-- ==== Sys2Proof/Word.lean ====
section
/-! DEFINITION. The word types of the VX4 model: the index widths of the manual's numbering (R12) and the
type of a sparse store. Everything that computes on them stands in Machine/. -/

namespace Sys2Proof

/-- A register is 32 bits wide (00_scope.md, "Registers"). -/
abbrev Word := BitVec 32
/-- Pavilion ID 0–127 (R12). -/
abbrev Pav := BitVec 7
/-- Crew 0–63 of a pavilion (R51). -/
abbrev Crew := BitVec 6
/-- Logical BP 0–15 of a crew (R51). -/
abbrev Bp := BitVec 4
/-- Router port code (R106); 6 and 7 name no port. -/
abbrev RPort := BitVec 3
/-- Daxair port 0–7 (R227). -/
abbrev DPort := BitVec 3
/-- Host channel 0–8,191 (R283). -/
abbrev Chan := BitVec 13
/-- Message port 0–4,095 (R324). -/
abbrev MPort := BitVec 12
/-- Function number: 0 is PF0, 1–31 a VF (R314). -/
abbrev Fn := BitVec 5

/-- A sparse store: pairs of key and value, keys strictly rising. What an absent key reads as is said by the
operation that reads (Machine/Store.lean). -/
abbrev Sparse (β : Type) := List (Nat × β)

end Sys2Proof
end

