-- ==== Sys2Proof/Syntax.lean ====
section
/-! DEFINITION. The commands of the VX4: one constructor of `Instr` for every row of spec/opcode_table.json,
in the table's order, and the plain data they carry. A command is one indivisible step of the part
(95_what_each_step_holds.md). Its operands say which unit takes the step and what reaches the package from outside
in it (levels, measurements, host data, received messages); everything else is in the state. -/

namespace Sys2Proof

/-- A cox message in the format of R255 (its kind is the command that carries it). -/
structure CoxMsg where
  origin : BitVec 4
  cause  : BitVec 4
  stroke : BitVec 10
  opn    : Bool
  len    : BitVec 32
  course : BitVec 64
  value  : BitVec 64
  deriving DecidableEq, Repr

/-- A STOP (R85, R255) with what its sized requests ask for by cause, which R88 has every package charge alike and the
message does not carry: the largest tick of LINK and of DMEM, the largest length of LINK and of THERMAL. -/
structure StopIn where
  msg     : CoxMsg
  link    : BitVec 64
  dmem    : BitVec 64
  stretch : BitVec 32
  thermal : BitVec 32
  deriving DecidableEq, Repr

/-- A frame on lanes 0–15 (R249): the sync header and the 64 payload bits of each lane; a seventeenth entry is lane
16's. -/
structure RxFrame where
  hdrs  : List (BitVec 2)
  lanes : List (BitVec 64)
  deriving DecidableEq, Repr

/-- What a channel fetch brings from host memory (R287): the 64-byte entry (byte i in bits [8i+7:8i]), the
microseconds since the doorbell (R291), how the host bus answered (0 all well, 1 the submission ring could not be read,
2 the entry's host buffer could not be accessed), and whether a die that the access wakes is ready within 50 ms (R471). -/
structure FetchIn where
  entry  : BitVec 512
  waitUs : BitVec 32
  bus    : BitVec 2
  ready  : Bool
  deriving DecidableEq, Repr

/-- The words of one mailbox command (R304, R305, R308). -/
structure MbxArgs where
  irq : Bool
  seq : BitVec 8
  a0  : Word
  a1  : Word
  a2  : Word
  a3  : Word
  deriving DecidableEq, Repr

/-- The manifest of a stream (R352) with the outcome of each cryptographic check, which the step that reads the
stream brings: the digests and signatures themselves are arithmetic on bytes outside this model. -/
structure Manifest where
  magic     : BitVec 32
  format    : BitVec 16
  kind      : BitVec 8
  keySlot   : BitVec 8
  imageId   : BitVec 64
  ver       : BitVec 8
  chunkLog2 : BitVec 8
  chunks    : BitVec 32     -- chunk_count
  bodyLen   : BitVec 64
  tableSha  : BitVec 384    -- table_digest
  ecdsaKey  : BitVec 776    -- big-endian
  lmsKey    : BitVec 448    -- big-endian
  zero      : Bool          -- every byte that R352 does not name is 0
  ecdsaOk   : Bool          -- found by the signature engines (R353, details 4 and 5)
  lmsOk     : Bool
  keySha    : BitVec 384    -- SHA-384 of the two keys, as found
  digest    : BitVec 384    -- SHA-384 of the manifest, as found
  deriving DecidableEq, Repr

/-- One entry of a design part's frame table with its payload (R364, R366): address, payload index, and the non-zero 64-bit
little-endian words of the payload's 4,096 bytes by word index 0–511. -/
structure Frame where
  addr  : BitVec 32
  index : BitVec 32
  words : Sparse (BitVec 64)
  deriving DecidableEq, Repr

/-- A signed stream (R351) as the loader reads it. `frames` are the entries of the frame table in its order (R366), and
`settings` the entries of a shell body (R363). -/
structure Stream where
  man       : Manifest
  table     : List (BitVec 384)        -- the chunk table: the digest that it holds for each chunk
  tableSha  : BitVec 384               -- SHA-384 of the chunk table, as found
  chunkSha  : List (BitVec 384)        -- SHA-384 of each chunk of the body, as pass A finds it
  head      : Sparse (BitVec 8)        -- the non-zero bytes of the resource header by offset 0–8,191 (R146)
  ports     : Sparse (BitVec 64)       -- port table (R325); an absent entry is zero
  tblMagic  : BitVec 32                -- the frame table's header: its magic, m and last word; n is the number of `frames`
  payloads  : BitVec 32
  tblZero   : BitVec 32
  frames    : List Frame
  settings  : List (BitVec 32 × BitVec 32)
  deriving DecidableEq, Repr

/-- The three copies of a fuse key slot as they are read through their ECC (R354); one that is uncorrectable is none. -/
structure KeyRead where
  hash0 : Option (BitVec 384)
  hash1 : Option (BitVec 384)
  hash2 : Option (BitVec 384)
  rev0  : Option Bool
  rev1  : Option Bool
  rev2  : Option Bool
  deriving DecidableEq, Repr

/-- How the writing of pass B ends (R375, R376): outcome 0 all writes done, 1 the digest of a chunk differs, 2 or 3 a read
failed; `bytes` have then been read. -/
structure WriteEnd where
  outcome : BitVec 2
  bytes   : BitVec 64
  deriving DecidableEq, Repr

/-- A debug token as read from the host, by the fields of R357, with what the hash and signature engines find. -/
structure TokenIn where
  magic     : BitVec 32
  format    : BitVec 16
  keySlot   : BitVec 8
  ecdsaKey  : BitVec 776
  lmsKey    : BitVec 448
  zero      : Bool
  ecdsaOk   : Bool
  lmsOk     : Bool
  keySha    : BitVec 384
  deviceId  : BitVec 64
  nonce     : BitVec 64
  rights    : BitVec 32
  deriving DecidableEq, Repr

/-- An NVM directory entry (R358). -/
structure DirEntry where
  role    : BitVec 8
  region  : BitVec 8
  device  : BitVec 8
  version : BitVec 8
  length  : BitVec 32
  offset  : BitVec 32
  digest  : BitVec 384         -- SHA-384 of the object's manifest
  imageId : BitVec 64          -- image_id of the object's manifest, which the digest fixes (R358, R370)
  deriving DecidableEq, Repr

/-- One copy of the NVM directory (R358), its 4,096 bytes read as the fields of R358: `entries` are the entries in use,
and `crc` the CRC-32C that stands at 0xFFC. -/
structure DirCopy where
  magic       : BitVec 32
  format      : BitVec 16
  sequence    : BitVec 64
  autoload    : Bool
  autoRelease : Bool
  entries     : List DirEntry
  crc         : BitVec 32
  deriving DecidableEq, Repr

/-- What another package of the board reports to the course master in MEASURING (R156, R230): its header's fields, its
grade, its COX.COURSE, the hop latency of its cox edge toward the master, and its largest Δ with the port. -/
structure PkgReport where
  position     : BitVec 4
  imageId      : BitVec 64
  courseLength : BitVec 16
  modes        : BitVec 8
  packageCount : BitVec 8
  positions    : BitVec 16
  slow         : Bool                -- grade -08 (R228)
  course       : BitVec 64
  hop          : BitVec 8
  worstDelta   : BitVec 8
  worstPort    : BitVec 3
  deriving DecidableEq, Repr

/-- A throttle request (R93): how many strokes beyond EASY_LEAD its stop point lies, and what the other packages of a board
report to the master: one at 100 °C or more, one above its current limit, and every one below 95 °C and within its limit for
the last 10 ms. -/
structure HeatIn where
  ahead : BitVec 10
  hot   : Bool
  draw  : Bool
  cool  : Bool
  deriving DecidableEq, Repr

/-- A Daxair port of a package of the board (R239). -/
structure BoardPort where
  pos : BitVec 4
  n   : DPort
  deriving DecidableEq, Repr

/-- The block by which a sleeping port is woken: its port, its lane and its bits (R261, R266). -/
structure WakeIn where
  n     : DPort
  lane  : BitVec 5
  block : BitVec 64
  deriving DecidableEq, Repr

/-- What the measurement of a board brings to this package (R230): the Δ of its own ports, the reports of the packages
that completed EXCHANGE, the master that a MOVE_MASTER given to another package names (R235), the master's COX.WALL at the
alignment tick, and the dynamic routes the Keeper writes for the board. -/
structure BoardMeas where
  deltas  : List (BitVec 8)     -- Δ of ports 0–7 of this package
  reports : List PkgReport      -- one of each other package
  master  : BitVec 4            -- the master that a MOVE_MASTER given elsewhere names
  wall    : BitVec 64           -- the master's COX.WALL at the alignment tick
  droutes : Sparse (BitVec 32)  -- dynamic routes, key pavilion × 256 + entry (R124)
  deriving DecidableEq, Repr

/-- A repair record or fault (R521–R527). kind: 0 schedule store, 1 data store, 2 bank memory, 3 BP logic,
4 router, NI or probe unit, 5 a router's forwarding path. `crew` holds the bank for kind 2. `bp` is 0–15 for a BP, 16 for
the crew's spare BP, 17 for a fault of the crew that is not in one BP's words. Of the pavilion's spare crew (R51), 32–47
are its BPs, 48 its own spare BP and 18 a fault that is not in one BP's words; `crew` then says nothing. -/
structure FaultRec where
  kind : BitVec 3
  pav  : Pav
  crew : Crew
  bp   : BitVec 6
  deriving DecidableEq, Repr

/-- What the slices of a BIST find (R521, R522, R528): those that do not pass and those stopped after 20 ms, by code; the
time of each slice in µs; sensors and rails that fail; and faults of the memory and logic slices. -/
structure BistIn where
  failed  : BitVec 32
  late    : BitVec 32
  us      : List (BitVec 15)
  sensors : List (BitVec 7)
  rails   : List (BitVec 7)
  faults  : List FaultRec
  deriving DecidableEq, Repr

/-- What reaches the package from outside in a mailbox command that a register write starts (R305): whether a die is ready
within 50 ms, the token read from the host, and what the test of the arrays or of a slice finds. -/
structure CmdIn where
  ready  : Bool
  token  : Option TokenIn
  faults : List FaultRec
  bist   : BistIn
  deriving DecidableEq, Repr

/-- A register write: its byte enables, and what the command that it may start meets. -/
structure WriteIn where
  be  : BitVec 4
  cmd : CmdIn
  deriving DecidableEq, Repr

/-- One round of the health monitors (R529): temperatures of sensors 0–71 in 1/16 °C, rail voltages in mV and
currents in 0.1 A, ring-oscillator counts of the pavilions read, and how long each rail has stood outside its
windows (in µs). -/
structure HealthIn where
  temps  : List (BitVec 16)
  railMv : List (BitVec 16)
  railDa : List (BitVec 14)
  warnUs : List Nat
  faultUs : List Nat
  procs  : Sparse (BitVec 16)
  deriving DecidableEq, Repr

/-- What an upset strikes (R29, R41, R393). Bits are numbered within the stored item, check bits above data. -/
inductive Target where
  | sched (p : Pav) (c : Crew) (b : Bp) (stroke : BitVec 10) (bit : BitVec 7)
  | slot (p : Pav) (c : Crew) (b : Bp) (slot : BitVec 10) (bit : BitVec 1)
  | group (p : Pav) (c : Crew) (b : Bp) (g : BitVec 6) (bit : BitVec 6)
  | table (addr : BitVec 32) (word : BitVec 9) (bit : BitVec 7)
  | bank (p : Pav) (cw : BitVec 16) (bit : BitVec 7)
  | deep (stack : BitVec 2) (cw : BitVec 29) (bit : BitVec 9)
  deriving DecidableEq, Repr

/-- Which BAR a host access addresses, and in BAR2 or a VF's BAR2 which function makes it (R283). -/
inductive Bar where
  | bar0
  | bar2 (fn : Fn)
  | vf0 (fn : Fn)
  | bar4
  deriving DecidableEq, Repr

/-- The commands, in the order of spec/opcode_table.json. -/
inductive Instr where
  -- BP operations (R23), at BP p.c.b in the stroke in progress
  | nop (p : Pav) (c : Crew) (b : Bp)
  | eval (p : Pav) (c : Crew) (b : Bp)
  | evalHold (p : Pav) (c : Crew) (b : Bp)
  | wide (p : Pav) (c : Crew) (b : Bp)
  | send (p : Pav) (c : Crew) (b : Bp)
  | drive (p : Pav) (c : Crew) (b : Bp)
  | memrd (p : Pav) (c : Crew) (b : Bp) (lat : BitVec 16)
  | memwr (p : Pav) (c : Crew) (b : Bp)
  | pinout (p : Pav) (c : Crew) (b : Bp)
  | log (p : Pav) (c : Crew) (b : Bp)
  | trapchk (p : Pav) (c : Crew) (b : Bp)
  -- memory pipelines
  | bankReadDeliver (p : Pav) (port : BitVec 1)
  | dmemResultArrive (t : BitVec 4) (glitch : BitVec 288)
  | dmemResultDeliver (t : BitVec 4)
  | correctionWriteBack
  | bankScrub
  | deepScrub (glitch : BitVec 288)
  -- the pavilion network
  | vn0Launch (p : Pav) (e : BitVec 10)
  | flitSwitch (p : Pav) (inp : RPort) (err : BitVec 72)
  | vn0Land (p : Pav) (inp : RPort) (err : BitVec 72)
  | ingressHandoff (n : DPort)
  | packetHop (p : Pav) (out : RPort) (errs : List (BitVec 72))
  | bankRdRequest (p : Pav)
  | bankWrRequest (p : Pav) (same : Bool)
  | regRd (p : Pav)
  | regWr (p : Pav)
  | deliver (p : Pav)
  | respData (io : Bool) (p : Pav)
  | respAck (io : Bool) (p : Pav)
  | respStatus (io : Bool) (p : Pav)
  | cfgWr (p : Pav) (addr : BitVec 32) (word : BitVec 9)
  | cfgRd (p : Pav) (addr : BitVec 32) (word : BitVec 9) (n : BitVec 2)
  | mgmt
  | routeBusy (p : Pav) (out : RPort)
  | wakeLatchReplay (die : BitVec 2)
  -- the course controller
  | run
  | step
  | halt
  | courseBoundary
  | startLeadEnd
  | grant (add : BitVec 16)
  | ask (m : CoxMsg)
  | stop (x : StopIn)
  | clear (m : CoxMsg)
  | resume (m : CoxMsg)
  | haltMessage (m : CoxMsg)
  | armMessage (m : CoxMsg)
  | fire (m : CoxMsg)
  | easyEnter
  | easyResumePoint
  | easyLong
  | throttleRequest (up : Bool) (x : HeatIn)
  | courseStretchAsk
  | boardWaitTimeout
  | tclkEdge (falling : Bool)
  | tetherLeadEnd
  | setMode (m : MbxArgs)
  | moveMaster (m : MbxArgs)
  | boardFormed (b : BoardMeas)
  | boardIncomplete
  | linkLost (x : BoardPort)
  -- the Daxair link
  | detect (n : DPort) (opens shorts : BitVec 17) (clockOk : Bool)
  | trainBlock (n : DPort) (lane : BitVec 5) (block : BitVec 64)
  | adaptStep (n : DPort) (lane : BitVec 5) (h w : BitVec 8)
  | blockLock (n : DPort)
  | trainTimeout (n : DPort)
  | lockTimeout (n : DPort)
  | exchangeTimeout (n : DPort)
  | faultRetry (n : DPort)
  | dataFrame (n : DPort) (f : RxFrame)
  | exchange (n : DPort) (f : RxFrame)
  | align (n : DPort) (f : RxFrame)
  | sleepReq (n : DPort) (f : RxFrame)
  | sleepAck (n : DPort) (f : RxFrame)
  | sleepAckTimeout (n : DPort)
  | wakeBlock (x : WakeIn)
  | laneSignalLoss (n : DPort) (lane : BitVec 5) (lockLost : Bool)
  | bufferDrift (n : DPort) (ahead : BitVec 10)
  | fomRefresh (n : DPort) (lane : BitVec 5) (h w : BitVec 8)
  | retrain (n : DPort)
  | sleep (n : DPort)
  | wake (n : DPort)
  | test (n : DPort) (on : Bool)
  | inject (n : DPort) (v : Word)
  -- channels
  | nopEntry (c : Chan) (f : FetchIn)
  | sendMsg (c : Chan) (f : FetchIn)
  | bankRd (c : Chan) (f : FetchIn)
  | bankWr (c : Chan) (f : FetchIn) (data : List (BitVec 64)) (same : Bool)
  | deepRd (c : Chan) (f : FetchIn) (glitch : BitVec 288)
  | deepWr (c : Chan) (f : FetchIn) (data : List (BitVec 64))
  | sqTail (c : Chan) (fn : Fn) (v : BitVec 16)
  | cqHead (c : Chan) (fn : Fn) (v : BitVec 16)
  | abort (c : Chan) (fn : Fn) (tag : BitVec 16)
  | channelEnable (c : Chan) (fn : Fn) (v : Word)
  | channelDisable (c : Chan) (fn : Fn)
  | chOwn (v : Word)
  | chBudget (v : Word)
  | completionWrite (c : Chan) (busErr : Bool)
  | functionLevelReset (fn : Fn)
  | d3hotEntry (fn : Fn)
  | d3coldEntry (fn : Fn)
  -- mailbox commands
  | release (m : MbxArgs)
  | packageState (m : MbxArgs)
  | dieDown (m : MbxArgs)
  | dieUp (m : MbxArgs) (ready : Bool)
  | portDown (m : MbxArgs)
  | portUp (m : MbxArgs)
  | installToken (m : MbxArgs) (tok : Option TokenIn)
  | loadFull (m : MbxArgs)
  | loadPartial (m : MbxArgs)
  | rollback (m : MbxArgs)
  | march (m : MbxArgs) (faults : List FaultRec)
  | bist (m : MbxArgs) (b : BistIn)
  | fuseRepair (m : MbxArgs)
  | scrubFull (m : MbxArgs)
  | reservedCommand (m : MbxArgs) (code : BitVec 8)
  | mbxComplete
  -- DOE and SPDM
  | doeDiscovery (index : BitVec 8)
  | getVersion
  | getCapabilities
  | negotiateAlgorithms (asym hash : BitVec 32)
  | getDigests
  | getCertificate (slot : BitVec 8) (off len : BitVec 16)
  | challenge (slot : BitVec 8) (nonce : BitVec 256)
  | getMeasurements (index : BitVec 8) (signed : Bool) (nonce : BitVec 256)
  -- message dispatch
  | portBind (v : Word)
  | creditGrant (p : MPort)
  | messageReady (c : Chan) (tag : BitVec 16)
  | engineSend (e : BitVec 6)
  | portDecision (p : MPort)
  | portLanding (p : MPort) (waits : BitVec 32 × BitVec 32)
  | replayEnable (on : Bool)
  | replayEntryRead (entry : BitVec 512)
  | recEnable (replay : Bool) (v : Word)
  | engineLoadWindow (busy : List (BitVec 8))
  -- loading
  | loadPassB
  | partialPassB
  | loadWriteDone (w : WriteEnd)
  | loadStoreDone (ok : Bool)
  | quiesceTimeout
  | loaderWakeTimeout
  | loadRecovery
  -- power-on and boot
  | powerOn (pos : BitVec 4) (nonce : BitVec 64)
  | supplyRiseTimeout (rail : BitVec 3)
  | postSlice (k : BitVec 6) (pass : Bool) (us : BitVec 15) (bad : List (BitVec 7)) (faults : List FaultRec)
  | incomplete (k : BitVec 6)
  | retentionDwellEnd
  | bootRomStart (d0 d1 : Option DirCopy) (keys : List KeyRead) (fw0 fw1 : Option (Stream × Bool)) (lmsNext : Option (BitVec 16))
  | keeperStart (shell : Option Stream) (shellCode : BitVec 8) (droutes : Sparse (BitVec 32))
  -- configuration integrity
  | scrubItem
  | recoveryRead (outcome : BitVec 2)
  | recoveryWrite
  | recoveryTimeout
  | scrubSelfCorrect (k : BitVec 4) (threeWay : Bool)
  -- triggers and capture
  | arm
  | disarm
  | force
  | probeSample
  | sequencerDecision
  | captureWrite (p : Pav) (granted : Bool)
  | triggerTimeout
  | densityWindowEnd
  | measEnable (u : BitVec 5) (v : Word)
  | densEnable (v : Word)
  -- trace
  | traceEnable (v : Word)
  | flush
  | msgCtrl (v : Word)
  | hostMarkerCommit
  | logPacketCommit
  | traceSinkWrite (busErr : Bool)
  | keeperSleep
  | keeperWake
  -- power
  | powerEntry
  | smbusAddressMatch (addr : BitVec 7)
  | smbusHoldTimeout
  | smbusAddr (len : BitVec 8) (ptr : Word) (pecOk : Option Bool)
  | smbusDataRead
  | smbusDataWrite (len : BitVec 8) (v : Word) (pecOk : Option Bool)
  | pcieWake
  | daxairWake (n : DPort)
  | wakeStep (us : BitVec 32)
  | wakeFail
  | resumeAfterWake
  | padRelease (v : Word)
  -- target pins
  | bankWanted (b : BitVec 4)
  | bankOn (b : BitVec 4) (podidMv : BitVec 13)
  | podMiskeyed (b : BitVec 4) (reversed : Bool) (podidMv : BitVec 13)
  | podRemoved (b : BitVec 4)
  | vccioFault (b : BitVec 4) (mv : BitVec 16)
  | podFaultClear (b : BitVec 4)
  | pinShort (pin : BitVec 9)
  | shortClear (b : BitVec 4) (v : Word)
  | pulltest (v : Word)
  | pulltestDone (followed : BitVec 512)
  -- JTAG
  | idcode
  | samplePreload (preload : BitVec 1899)
  | extest
  | highz
  | clamp
  | extestPulse
  | extestTrain
  | debugAccess (code : BitVec 8)
  | bypass (code : BitVec 8)
  -- health, counters and plain register accesses
  | healthSample (h : HealthIn)
  | thermalShutdown (sensor : BitVec 7) (temp : BitVec 16)
  | counterClear (addr : Word)
  | evlogClear
  | schedInject (p : Pav) (v : Word)
  | bankWindowWrite (off : BitVec 24) (v : Word)
  | bankPage (v : Word)
  | readClear (bar : Bar) (addr : Word) (be : BitVec 4)
  | registerWrite (bar : Bar) (addr v : Word) (x : WriteIn)
  | passAEnd (x : Option Stream)
  | upset (t : Target)
  | targetPinLevel (pin : BitVec 9) (level : Option Bool)
  | d0Return (fn : Fn)
  | dmemInitDone
  | powerLoss
  | retentionRailLoss (rail : BitVec 3)
  | brefLost (present : Bool)
  | alertResponseAddress
  | tapReset
  | snapshotRead (bar : Bar) (addr : Word) (be : BitVec 4)
  | bankWindowRead (off : BitVec 24)
  deriving DecidableEq, Repr

end Sys2Proof
end

