-- ==== Sys2Proof/Decode.lean ====
section
/-! DEFINITION. The command that a table word spells. No row of spec/opcode_table.json gives bits: the VX4 takes its
commands through registers, rings, pins and messages, and none of them is one word (notes/assumptions/3.md). -/

namespace Sys2Proof

/-- The command that the bits of a table row spell: no row has bits. -/
def decodeTableWord (_nbits _w : Nat) : Option Instr := none

end Sys2Proof
end

