-- ==== Sys2Proof/Machine/Bits.lean ====
section
/-! DEFINITION. Bit fields: reading, replacing, and splitting words. -/

namespace Sys2Proof.Machine

/-- Bits [lo + w − 1 : lo] as a number. -/
def bits {n : Nat} (x : BitVec n) (lo w : Nat) : Nat := (x.extractLsb' lo w).toNat

/-- A mask of `w` ones at `lo`. -/
def maskAt (n lo w : Nat) : BitVec n := BitVec.ofNat n ((2 ^ w - 1) * 2 ^ lo)

/-- `x` with bits [lo + w − 1 : lo] replaced by `v`. -/
def put {n : Nat} (x : BitVec n) (lo w v : Nat) : BitVec n :=
  (x &&& ~~~ maskAt n lo w) ||| BitVec.ofNat n (v % 2 ^ w * 2 ^ lo)

/-- `x` with bit `i` set to `b`. -/
def putBit {n : Nat} (x : BitVec n) (i : Nat) (b : Bool) : BitVec n := put x i 1 b.toNat

/-- Number of bits set. -/
def popcount {n : Nat} (x : BitVec n) : Nat := (List.range n).foldl (fun c i => c + (x.getLsbD i).toNat) 0

/-- Indices of the bits set, rising. -/
def ones {n : Nat} (x : BitVec n) : List Nat := (List.range n).filter fun i => x.getLsbD i

/-- The least number below `n` for which `p` holds, or `n`. -/
def least (p : Nat → Bool) (n : Nat) : Nat := ((List.range n).find? p).getD n

/-- 64-bit words from a list, word 0 in the low bits. -/
def joinWords (n : Nat) : List (BitVec 64) → BitVec n
  | [] => 0
  | w :: ws => w.setWidth n ||| (joinWords n ws <<< (64 : Nat))

/-- The `k` 64-bit words of a value, low word first. -/
def splitWords {n : Nat} (x : BitVec n) (k : Nat) : List (BitVec 64) :=
  (List.range k).map fun i => x.extractLsb' (64 * i) 64

/-- Inserts an element before the first one whose key is not less. -/
def insertBy {α : Type} (f : α → Nat) (a : α) : List α → List α
  | [] => [a]
  | b :: r => if f a ≤ f b then a :: b :: r else b :: insertBy f a r

/-- A list in rising order of a key; elements of one key keep their order. -/
def sortBy {α : Type} (f : α → Nat) (l : List α) : List α := l.foldr (insertBy f) []

/-- Adds, sticking at `cap`. -/
def stick (cap a b : Nat) : Nat := min cap (a + b)

end Sys2Proof.Machine
end

