-- ==== Sys2Proof/Machine/Flags.lean ====
section
/-! DEFINITION. The check-bit code of R41 with its three widths, the truth-table evaluation of R30 to R36 and R57 in
each mode family, and CRC-8 (R107). -/

namespace Sys2Proof.Machine

/-! Check bits (R41, R187, R394). -/

/-- h(j): the integers from 1 to 71 that are not powers of two, in rising order (R41). -/
def hPos : List Nat := (List.range 72).filter fun n => decide (n &&& (n - 1) ≠ 0)

/-- XOR of the bits of `x` below `n`, as 0 or 1. -/
def parityN (n x : Nat) : Nat := (List.range n).foldl (fun p i => p ^^^ ((x >>> i) % 2)) 0

/-- The Hamming bits of `k` data bits (R41). -/
def hamming (k d : Nat) : Nat :=
  ((hPos.take k).foldl (fun (acc : Nat × Nat) h => ((if acc.2 % 2 = 1 then acc.1 ^^^ h else acc.1), acc.2 / 2)) (0, d)).1

/-- A codeword: `k` data bits, `r` Hamming bits, then the overall parity bit. -/
def encodeEcc (k r d : Nat) : Nat :=
  let d := d % 2 ^ k
  if d = 0 then 0
  else
    let c := hamming k d
    d + c * 2 ^ k + (parityN k d ^^^ parityN r c) * 2 ^ (k + r)

/-- What a check finds (the table of R41). -/
inductive EccClass where
  | clean | fixed | bad
  deriving DecidableEq, Repr

/-- Result of a check: class, the data to deliver (corrected, or as stored when uncorrectable), the corrected
codeword, and the syndrome with P above S. -/
structure Ecc where
  cls  : EccClass
  data : Nat
  word : Nat
  synd : Nat
  deriving DecidableEq, Repr

/-- Checks a codeword of `k` data bits, `r` Hamming bits and a parity bit. -/
def checkEcc (k r w : Nat) : Ecc :=
  let d := w % 2 ^ k
  let s := (w / 2 ^ k % 2 ^ r) ^^^ hamming k d
  let p := parityN (k + r + 1) w
  let synd := p * 2 ^ r + s
  if s = 0 ∧ p = 0 then ⟨.clean, d, w, synd⟩
  else if p = 1 then
    if s = 0 ∨ (List.range r).any (fun i => decide (s = 2 ^ i)) then ⟨.fixed, d, encodeEcc k r d, synd⟩
    else match (hPos.take k).idxOf? s with
      | some j => let d' := d ^^^ 2 ^ j; ⟨.fixed, d', encodeEcc k r d', synd⟩
      | none => ⟨.bad, d, w, synd⟩
  else ⟨.bad, d, w, synd⟩

/-- The code of schedule words, tables and bank codewords (R41, R187, R395). -/
def encode72 (d : BitVec 64) : BitVec 72 := BitVec.ofNat 72 (encodeEcc 64 7 d.toNat)
/-- Checks a 72-bit codeword. -/
def check72 (w : BitVec 72) : Ecc := if w = 0 then ⟨.clean, 0, 0, 0⟩ else checkEcc 64 7 w.toNat
/-- The code of data-store groups (R394). -/
def check39 (d : BitVec 32) (mask : BitVec 39) : Ecc :=
  checkEcc 32 6 (encodeEcc 32 6 d.toNat ^^^ mask.toNat)

/-- A poisoned codeword: the data as read, with check bits c[1:0] inverted (R189). -/
def poison72 (d : Nat) : Nat := encodeEcc 64 7 d ^^^ (3 * 2 ^ 64)

/-- Sub-word `j` of a deep codeword as a 72-bit codeword (R187). -/
def subword (w : BitVec 288) (j : Nat) : Nat := bits w (64 * j) 64 + bits w (256 + 8 * j) 8 * 2 ^ 64

/-- A deep codeword from its four sub-words. -/
def joinDeep (ws : List Nat) : BitVec 288 :=
  BitVec.ofNat 288 ((ws.zipIdx).foldl (fun a (w, j) =>
    a + w % 2 ^ 64 * 2 ^ (64 * j) + w / 2 ^ 64 % 256 * 2 ^ (256 + 8 * j)) 0)

/-- A deep codeword of clean data. -/
def encodeDeep (d : BitVec 256) : BitVec 288 :=
  joinDeep ((List.range 4).map fun j => encodeEcc 64 7 (bits d (64 * j) 64))

/-- Checks of the four sub-words of a deep codeword. -/
def checkDeep (w : BitVec 288) : List Ecc :=
  if w = 0 then List.replicate 4 ⟨.clean, 0, 0, 0⟩ else (List.range 4).map fun j => checkEcc 64 7 (subword w j)

/-- Worst class of the sub-words: a deep codeword is correctable when no sub-word is uncorrectable (R187). -/
def deepClass (es : List Ecc) : EccClass :=
  if es.any (·.cls == .bad) then .bad else if es.any (·.cls == .fixed) then .fixed else .clean

/-! Values (R34, R38, R39). -/

/-- 0, 1, X and Z (R34). -/
def v0 : BitVec 2 := 0
def v1 : BitVec 2 := 1
def vX : BitVec 2 := 2
def vZ : BitVec 2 := 3

/-- How a mode reads a value: one bit, one bit per instance, or four-state (R34, R38, R39). -/
inductive Vals where
  | one | pair | four
  deriving DecidableEq, Repr

/-- X or Z. -/
def vague (v : BitVec 2) : Bool := v.getLsbD 1

/-- A value with both instances, or a single value, equal to a bit. -/
def broad (k : Vals) (b : Bool) : BitVec 2 := if b then (if k == .pair then 3 else 1) else 0

/-- The bits to which an input resolves (R35). -/
def resolutions (v : BitVec 2) : List Nat := if v = v0 then [0] else if v = v1 then [1] else [0, 1]

/-- All indices at which a table is read, operand A lowest (R22, R35). -/
def indices : List (BitVec 2) → List Nat
  | [] => [0]
  | v :: vs => (indices vs).flatMap fun k => (resolutions v).map fun b => b + 2 * k

/-- The index of instance `k`. -/
def index (k : Nat) : List (BitVec 2) → Nat
  | [] => 0
  | v :: vs => (v.getLsbD k).toNat + 2 * index k vs

/-- The agreed value of a list of readings, or X (R35). -/
def agreed (vs : List (BitVec 2)) : BitVec 2 :=
  if vs.all (· == v0) then v0 else if vs.all (· == v1) then v1 else vX

/-- A truth table over its operands: f in each instance, or exactly in FOURSTATE (R30, R35, R39, R55, R57). -/
def evalTable {n : Nat} (k : Vals) (tt : BitVec n) (ins : List (BitVec 2)) : BitVec 2 :=
  match k with
  | .one => BitVec.ofBool (tt.getLsbD (index 0 ins)) |>.setWidth 2
  | .pair => (BitVec.ofBool (tt.getLsbD (index 1 ins)) ++ BitVec.ofBool (tt.getLsbD (index 0 ins)))
  | .four => agreed ((indices ins).map fun i => if tt.getLsbD i then v1 else v0)

/-- EVAL_HOLD's slot: f where the enable is 1, the old value where it is 0, and the exact result where it is X or Z
(R31, R36, R39). -/
def holdValue (k : Vals) (f en old : BitVec 2) : BitVec 2 :=
  match k with
  | .one => if en.getLsbD 0 then f else old
  | .pair => (f &&& en) ||| (old &&& ~~~ en)
  | .four => if en = v1 then f else if en = v0 then old else if f = old ∧ !vague f then old else vX

/-- The select form of R56 and R57: lane *i* inverted where tt0 has a 1 at *i*. -/
def evalSelect (k : Vals) (tt : BitVec 16) (ins : List (BitVec 2)) (lane : Nat → BitVec 2) : BitVec 2 :=
  match k with
  | .one => BitVec.ofBool ((lane (index 0 ins)).getLsbD 0 ^^ tt.getLsbD (index 0 ins)) |>.setWidth 2
  | .pair => BitVec.ofBool ((lane (index 1 ins)).getLsbD 1 ^^ tt.getLsbD (index 1 ins)) ++
      BitVec.ofBool ((lane (index 0 ins)).getLsbD 0 ^^ tt.getLsbD (index 0 ins))
  | .four => agreed ((indices ins).map fun i =>
      if vague (lane i) then vX else if tt.getLsbD i then lane i ^^^ 1 else lane i)

/-! CRC-8 (R107). -/

/-- CRC-8 over the low `n` bits of `x`, most significant bit first, polynomial x^8 + x^2 + x + 1, initial value 0. -/
def crc8 (n x : Nat) : BitVec 8 :=
  (List.range n).foldl (fun c i =>
    let top := c.getLsbD 7 ^^ ((x >>> (n - 1 - i)) % 2 == 1)
    let c' := c <<< (1 : Nat)
    if top then c' ^^^ 0x07 else c') 0

end Sys2Proof.Machine
end

