-- ==== Sys2Proof/Machine/Store.lean ====
section
/-! DEFINITION. The sparse stores: reading, writing and clearing a key, and the canonical form (keys strictly rising,
no entry equal to what an absent key reads as). Memory, the configuration and the register file are such stores. -/

namespace Sys2Proof.Machine

/-- The value at a key; an absent key reads as `d`. -/
def look (d : β) : Sparse β → Nat → β
  | [], _ => d
  | (k, v) :: m, i => if i = k then v else look d m i

/-- The value at a key, if the store lists one. -/
def find (m : Sparse β) (i : Nat) : Option β := look none (m.map fun (k, v) => (k, some v)) i

/-- Lists `v` at key `i`, keeping the order of keys. -/
def ins : Sparse β → Nat → β → Sparse β
  | [], i, v => [(i, v)]
  | (k, w) :: m, i, v =>
    if i < k then (i, v) :: (k, w) :: m else if i = k then (k, v) :: m else (k, w) :: ins m i v

/-- Removes key `i`. -/
def del : Sparse β → Nat → Sparse β
  | [], _ => []
  | (k, w) :: m, i => if i = k then del m i else (k, w) :: del m i

/-- Writes a key in canonical form: writing what an absent key reads as removes the entry. -/
def upd [DecidableEq β] (d : β) (m : Sparse β) (i : Nat) (v : β) : Sparse β :=
  if v = d then del m i else ins m i v

/-- Keys strictly rising. -/
def rising : Sparse β → Bool
  | [] => true
  | [_] => true
  | (k, _) :: (l, v) :: m => decide (k < l) && rising ((l, v) :: m)

/-- The canonical form of a store whose absent keys read as `d`. -/
def wf [DecidableEq β] (d : β) (m : Sparse β) : Bool :=
  rising m && m.all fun e => !decide (e.2 = d)

end Sys2Proof.Machine
end

