-- ==== Sys2Proof/Machine/Header.lean ====
section
/-! DEFINITION. The 8,192-byte resource header: its little-endian fields by the byte table of R146. -/
namespace Sys2Proof
open Sys2Proof.Machine

/-- The fields of the resource header of R146. -/
structure Header where
  magic        : BitVec 32
  version      : BitVec 16
  sizeKib      : BitVec 16
  imageId      : BitVec 64
  courseLength : BitVec 16
  modes        : BitVec 8
  startMode    : BitVec 8
  packageCount : BitVec 8
  position     : BitVec 8
  positions    : BitVec 16
  kind         : BitVec 8
  region       : BitVec 8
  flags        : BitVec 16
  usedPav      : BitVec 128
  allocCount   : BitVec 16
  messagePorts : BitVec 16
  probeTaps    : BitVec 16
  logPorts     : BitVec 16
  pinBanks     : BitVec 64
  regions      : Sparse (BitVec 128)   -- region r ↦ used-pavilion map; an absent region is all zero (R148)
  allocs       : Sparse (BitVec 64)    -- entry i ↦ allocation entry; an absent entry is zero (R149)
  reservedZero : Bool                  -- every byte not listed in R146 is 0
  deriving DecidableEq, Repr

/-- The little-endian field of `n` bytes at offset `o` of a header (R146). -/
def headField (x : Sparse (BitVec 8)) (o n : Nat) : Nat :=
  match n with
  | 0 => 0
  | k + 1 => (look 0 x o).toNat + 256 * headField x (o + 1) k

/-- The non-zero entries of a table of `n` entries of `size` bytes at offset `o` (R148, R149). -/
def headTable (x : Sparse (BitVec 8)) (o n size w : Nat) : Sparse (BitVec w) :=
  let hit := x.filterMap fun e =>
    if o ≤ e.1 ∧ e.1 < o + n * size ∧ e.2 ≠ 0 then some ((e.1 - o) / size) else none
  hit.eraseDups.map fun i => (i, BitVec.ofNat w (headField x (o + i * size) size))

/-- The table of R146 lists byte `o`. -/
def headListed (o : Nat) : Bool :=
  decide (o < 0x1C) || (decide (0x20 ≤ o) && decide (o < 0x40)) || (decide (0x100 ≤ o) && decide (o < 0x500)) ||
    (decide (0x1000 ≤ o) && decide (o < 0x2000))

/-- The fields of a header from its bytes (R146). -/
def headerOf (x : Sparse (BitVec 8)) : Header :=
  { magic := BitVec.ofNat 32 (headField x 0x00 4), version := BitVec.ofNat 16 (headField x 0x04 2),
    sizeKib := BitVec.ofNat 16 (headField x 0x06 2), imageId := BitVec.ofNat 64 (headField x 0x08 8),
    courseLength := BitVec.ofNat 16 (headField x 0x10 2), modes := look 0 x 0x12, startMode := look 0 x 0x13,
    packageCount := look 0 x 0x14, position := look 0 x 0x15, positions := BitVec.ofNat 16 (headField x 0x16 2),
    kind := look 0 x 0x18, region := look 0 x 0x19, flags := BitVec.ofNat 16 (headField x 0x1A 2),
    usedPav := BitVec.ofNat 128 (headField x 0x20 16), allocCount := BitVec.ofNat 16 (headField x 0x30 2),
    messagePorts := BitVec.ofNat 16 (headField x 0x32 2), probeTaps := BitVec.ofNat 16 (headField x 0x34 2),
    logPorts := BitVec.ofNat 16 (headField x 0x36 2), pinBanks := BitVec.ofNat 64 (headField x 0x38 8),
    regions := headTable x 0x100 64 16 128, allocs := headTable x 0x1000 512 8 64,
    reservedZero := x.all fun e => headListed e.1 || e.2 == 0 }

/-- The header of a stream. -/
def Stream.hdr (x : Stream) : Header := headerOf x.head

/-- The version of a manifest, which R352 keeps to six bits. -/
def Manifest.version (m : Manifest) : BitVec 6 := m.ver.setWidth 6

/-- The bytes of a header that hold alloc_count and the allocation table (R146). -/
def headAllocs (o : Nat) : Bool := decide (0x30 ≤ o ∧ o < 0x32 ∨ 0x1000 ≤ o ∧ o < 0x2000)

/-- Header `b` with the allocations of header `x`. -/
def headMerge (x b : Sparse (BitVec 8)) : Sparse (BitVec 8) :=
  (x.filter fun e => headAllocs e.1).foldl (fun y e => ins y e.1 e.2) (b.filter fun e => !headAllocs e.1)

end Sys2Proof
end

