-- ==== Sys2Proof/Machine/Events.lean ====
section
/-! DEFINITION. The event codes of R552 and the location field of R550. -/

namespace Sys2Proof.Machine

/-- `MODE_CHANGE` (R205), severity I, location kind 0. -/
def evModeChange : Nat := 0x0001
/-- `COUNTER_SAT` (R532), severity W, location kind 4. -/
def evCounterSat : Nat := 0x0002
/-- `PKG_STATE` (R466), severity I, location kind 0. -/
def evPkgState : Nat := 0x0201
/-- `SMBUS_WAKE_LATE` (R469), severity W, location kind 0. -/
def evSmbusWakeLate : Nat := 0x0202
/-- `WAKE_FAIL` (R474), severity F, location kind 3. -/
def evWakeFail : Nat := 0x0203
/-- `POST_FAIL` (R522), severity E, location kind 3. -/
def evPostFail : Nat := 0x0301
/-- `INCOMPLETE` (R521), severity W, location kind 3. -/
def evIncomplete : Nat := 0x0302
/-- `SENSOR_BAD` (R522), severity W, location kind 3. -/
def evSensorBad : Nat := 0x0303
/-- `VOLT_WARN` (R530), severity W, location kind 3. -/
def evVoltWarn : Nat := 0x0304
/-- `SUPPLY_FAULT` (R493, R530), severity F, location kind 3. -/
def evSupplyFault : Nat := 0x0305
/-- `TEMP_LIMIT` (R530), severity W, location kind 3. -/
def evTempLimit : Nat := 0x0306
/-- `PROCESS_SLOW` (R530), severity I, location kind 2. -/
def evProcessSlow : Nat := 0x0307
/-- `THERMAL_SHUTDOWN` (R531), severity F, location kind 3. -/
def evThermalShutdown : Nat := 0x0308
/-- `REPAIR_APPLIED` (R524), severity I, location kind 0. -/
def evRepairApplied : Nat := 0x0309
/-- `PAVILION_RETIRED` (R524), severity W, location kind 2. -/
def evPavilionRetired : Nat := 0x030A
/-- `FUSE_REPAIRED` (R525), severity I, location kind 0. -/
def evFuseRepaired : Nat := 0x030B
/-- `REPLACE_ASSERTED` (R526), severity W, location kind 0. -/
def evReplaceAsserted : Nat := 0x030C
/-- `MARCH_FAULT` (R527), severity W, location kind 1. -/
def evMarchFault : Nat := 0x030D
/-- `KEY_VOTE` (R354), severity W, location kind 3. -/
def evKeyVote : Nat := 0x0401
/-- `KEY_SLOT_LOST` (R354), severity E, location kind 3. -/
def evKeySlotLost : Nat := 0x0402
/-- `LMS_LEAVES_LOW` (R356), severity W, location kind 0. -/
def evLmsLeavesLow : Nat := 0x0403
/-- `TOKEN_INSTALLED` (R357), severity I, location kind 0. -/
def evTokenInstalled : Nat := 0x0404
/-- `FLOOR_RAISED` (R380), severity I, location kind 3. -/
def evFloorRaised : Nat := 0x0405
/-- `DIR_REPAIRED` (R360), severity I, location kind 3. -/
def evDirRepaired : Nat := 0x0501
/-- `DIR_COPY_BAD` (R360), severity W, location kind 3. -/
def evDirCopyBad : Nat := 0x0502
/-- `DIR_CONFLICT` (R360), severity E, location kind 0. -/
def evDirConflict : Nat := 0x0503
/-- `DIR_BAD` (R360), severity F, location kind 0. -/
def evDirBad : Nat := 0x0504
/-- `SHELL_SKIP` (R363), severity W, location kind 4. -/
def evShellSkip : Nat := 0x0505
/-- `SHELL_FAIL` (R363), severity W, location kind 0. -/
def evShellFail : Nat := 0x0506
/-- `LOAD_RECOVERED` (R375), severity W, location kind 0. -/
def evLoadRecovered : Nat := 0x0507
/-- `LOAD_ABORTED` (R375), severity E, location kind 0. -/
def evLoadAborted : Nat := 0x0508
/-- `BOARD_MISMATCH` (R156), severity E, location kind 3. -/
def evBoardMismatch : Nat := 0x0509
/-- `COURSE_MISMATCH` (R156), severity E, location kind 3. -/
def evCourseMismatch : Nat := 0x050A
/-- `CONFIG_CE` (R42, R398), severity I, location kind 1. -/
def evConfigCe : Nat := 0x0601
/-- `CONFIG_UE` (R43, R398), severity E, location kind 1. -/
def evConfigUe : Nat := 0x0602
/-- `CARE_MAP_UE` (R399), severity W, location kind 1. -/
def evCareMapUe : Nat := 0x0603
/-- `CONFIG_RECOVERED` (R401), severity I, location kind 2. -/
def evConfigRecovered : Nat := 0x0604
/-- `CONFIG_RECOVER_FAIL` (R401), severity E, location kind 0. -/
def evConfigRecoverFail : Nat := 0x0605
/-- `SCRUB_SELF_CORRECT` (R403), severity W, location kind 4. -/
def evScrubSelfCorrect : Nat := 0x0606
/-- `TRIGGER_HALT` (R416), severity E, location kind 0. -/
def evTriggerHalt : Nat := 0x0801
/-- `CAPTURE_CFG_ERR` (R417), severity W, location kind 0. -/
def evCaptureCfgErr : Nat := 0x0802
/-- `TRIGGER_FIRED` (R420), severity I, location kind 0. -/
def evTriggerFired : Nat := 0x0803
/-- `CAPTURE_DONE` (R420), severity I, location kind 0. -/
def evCaptureDone : Nat := 0x0804
/-- `DENS_OVERFLOW` (R425), severity W, location kind 0. -/
def evDensOverflow : Nat := 0x0805
/-- `REC_OVERFLOW` (R337), severity W, location kind 0. -/
def evRecOverflow : Nat := 0x0901
/-- `REPLAY_DIVERGED` (R338), severity E, location kind 3. -/
def evReplayDiverged : Nat := 0x0902
/-- `HOST_DMA_ERR` (R303, R453), severity E, location kind 3. -/
def evHostDmaErr : Nat := 0x0A01
/-- `REG_ACCESS_FAIL` (R544), severity W, location kind 2. -/
def evRegAccessFail : Nat := 0x0A02
/-- `EASY_LONG` (R79), severity W, location kind 0. -/
def evEasyLong : Nat := 0x0B01
/-- `EASY_MISS` (R89), severity E, location kind 2. -/
def evEasyMiss : Nat := 0x0B02
/-- `COX_REACH_FAIL` (R84), severity E, location kind 0. -/
def evCoxReachFail : Nat := 0x0B03
/-- `THROTTLE_STEP` (R93), severity I, location kind 0. -/
def evThrottleStep : Nat := 0x0B04
/-- `TETHER_THERMAL_WARN` (R94), severity W, location kind 3. -/
def evTetherThermalWarn : Nat := 0x0B05
/-- `TETHER_THERMAL_STOP` (R94), severity E, location kind 3. -/
def evTetherThermalStop : Nat := 0x0B06
/-- `OVERRUN` (R215), severity E, location kind 0. -/
def evOverrun : Nat := 0x0B07
/-- `TETHER_STRETCH` (R217), severity E, location kind 0. -/
def evTetherStretch : Nat := 0x0B08
/-- `BOARD_INCOMPLETE` (R229), severity E, location kind 0. -/
def evBoardIncomplete : Nat := 0x0B09
/-- `BOARD_FORMED` (R230), severity I, location kind 3. -/
def evBoardFormed : Nat := 0x0B0A
/-- `COURSE_SPLIT` (R230), severity E, location kind 3. -/
def evCourseSplit : Nat := 0x0B0B
/-- `LINK_SLACK_FAIL` (R231), severity E, location kind 3. -/
def evLinkSlackFail : Nat := 0x0B0C
/-- `MASTER_MOVED` (R235), severity I, location kind 0. -/
def evMasterMoved : Nat := 0x0B0D
/-- `STRETCH_CHANGE` (R241), severity W, location kind 0. -/
def evStretchChange : Nat := 0x0B0E
/-- `COX_ISOLATED` (R240), severity E, location kind 0. -/
def evCoxIsolated : Nat := 0x0B0F
/-- `MEM_CE` (R188), severity I, location kind 2. -/
def evMemCe : Nat := 0x0C01
/-- `UE_POISON` (R189), severity E, location kind 2. -/
def evUePoison : Nat := 0x0C02
/-- `MEM_X_ADDRESS` (R186), severity W, location kind 2. -/
def evMemXAddress : Nat := 0x0C03
/-- `LATE` (R185), severity E, location kind 3. -/
def evLate : Nat := 0x0C04
/-- `LINK_LOST` (R239), severity E, location kind 3. -/
def evLinkLost : Nat := 0x1001
/-- `LINK_MISWIRED` (R229), severity E, location kind 3. -/
def evLinkMiswired : Nat := 0x1002
/-- `LINK_FRAME_ERR` (R257), severity E, location kind 3. -/
def evLinkFrameErr : Nat := 0x1003
/-- `LINK_PORT_FAULT` (R262), severity E, location kind 3. -/
def evLinkPortFault : Nat := 0x1004
/-- `LINK_LANE_SPARED` (R264), severity W, location kind 3. -/
def evLinkLaneSpared : Nat := 0x1005
/-- `LINK_MARGIN` (R266), severity W, location kind 3. -/
def evLinkMargin : Nat := 0x1006
/-- `LINK_WAKE` (R266), severity I, location kind 3. -/
def evLinkWake : Nat := 0x1007
/-- `PIN_SHORT` (R501), severity W, location kind 3. -/
def evPinShort : Nat := 0x2001
/-- `PIN_OPEN` (R502), severity W, location kind 3. -/
def evPinOpen : Nat := 0x2002
/-- `POD_REVERSED` (R496), severity W, location kind 3. -/
def evPodReversed : Nat := 0x2003
/-- `POD_MISKEYED` (R496), severity W, location kind 3. -/
def evPodMiskeyed : Nat := 0x2004
/-- `POD_REMOVED` (R496), severity W, location kind 3. -/
def evPodRemoved : Nat := 0x2005
/-- `VCCIO_FAULT` (R496), severity W, location kind 3. -/
def evVccioFault : Nat := 0x2006
/-- `TRAPCHK_HIT` (R33), severity E, location kind 1. -/
def evTrapchkHit : Nat := 0x4001
/-- `CREW_CONTENTION` (R65), severity W, location kind 1. -/
def evCrewContention : Nat := 0x4002
/-- `SLOT_COLLISION` (R120), severity E, location kind 2. -/
def evSlotCollision : Nat := 0x4003
/-- `SCHED_SKEW` (R121), severity E, location kind 2. -/
def evSchedSkew : Nat := 0x4004
/-- `FLIT_CHECK` (R122), severity E, location kind 2. -/
def evFlitCheck : Nat := 0x4005
/-- `OUT_OF_ALLOCATION` (R158), severity E, location kind 2. -/
def evOutOfAllocation : Nat := 0x4006

/-- Location of kind 0 (R550). -/
def locNone : Nat := 0
/-- Location of kind 1: a BP, or a wire of a crew (R550). -/
def locBp (p c b sub : Nat) : Nat := 1 * 2 ^ 19 + p * 2 ^ 12 + c * 2 ^ 6 + b * 4 + sub
/-- Location of kind 2: an item of a pavilion (R550). -/
def locPav (p sub : Nat) : Nat := 2 * 2 ^ 19 + p * 2 ^ 12 + sub % 4096
/-- Location of kind 3: a unit (R550). -/
def locUnit (u sub : Nat) : Nat := 3 * 2 ^ 19 + u % 4096 * 2 ^ 7 + sub % 128
/-- Location of kind 4: a BAR0 address, whose low bits are the detail (R550). -/
def locAddr (a : Nat) (f : Bool) : Nat := 4 * 2 ^ 19 + f.toNat * 256 + a / 65536 % 256

/-- The 128-bit entry of an event (R533). -/
def evEntry (code loc detail stroke course : Nat) : BitVec 128 :=
  BitVec.ofNat 128 (code % 2 ^ 16 + stroke % 2 ^ 10 * 2 ^ 16 + loc % 2 ^ 22 * 2 ^ 26 + detail % 2 ^ 16 * 2 ^ 48 +
    course % 2 ^ 64 * 2 ^ 64)

/-- Order of the events of one tick: increasing code, then increasing location (R533). -/
def evKey (e : BitVec 128) : Nat := bits e 0 16 * 2 ^ 22 + bits e 26 22

/-- Events whose EVENT packets are packets of secure code (R443). -/
def evSecure (code : Nat) : Bool :=
  code == evKeyVote || code == evKeySlotLost || code == evFloorRaised || code == evLmsLeavesLow ||
  code == evTokenInstalled

/-! Completion and status codes (R302). -/

def ccDone : Nat := 0x00
def ccAccepted : Nat := 0x01
def ccDelivered : Nat := 0x02
def ccShed : Nat := 0x03
def ccRefusedBudget : Nat := 0x10
def ccRefusedMode : Nat := 0x11
def ccPortClosed : Nat := 0x12
def ccQueueFull : Nat := 0x13
def ccBadEntry : Nat := 0x14
def ccAborted : Nat := 0x20
def ccAbortTooLate : Nat := 0x21
def ccDeadTarget : Nat := 0x30
def ccRouteBusy : Nat := 0x31
def ccWakeTimeout : Nat := 0x32
def ccBusyInUse : Nat := 0x33
def ccUePoison : Nat := 0x40
def ccNarrowWrite : Nat := 0x41
def ccOutOfAlloc : Nat := 0x42
def ccNotRunning : Nat := 0x50
def ccMbxBusy : Nat := 0x51
def ccSigFail : Nat := 0x60
def ccRollbackDenied : Nat := 0x61
def ccOutOfRegion : Nat := 0x62
def ccDirConflict : Nat := 0x63
def ccSourceChanged : Nat := 0x64
def ccImageCheck : Nat := 0x65
def ccInternal : Nat := 0xFF

end Sys2Proof.Machine
end

