-- ==== Sys2Proof/Config.lean ====
section
/-! DEFINITION. What is fixed for every VX4: the architectural constants of R14, and the free values. A free value is
a constant with no body: nothing can be proved about which value it is (notes/assumptions/7.md). -/

namespace Sys2Proof.Config

/-- EASY_LEAD (R14). -/
def easyLead : Nat := 64
/-- BANK_LAT (R14). -/
def bankLat : Nat := 3
/-- DMEM_SLACK (R14). -/
def dmemSlack : Nat := 64
/-- LINK_SLACK (R14). -/
def linkSlack : Nat := 48
/-- PIN_LAT (R14). -/
def pinLat : Nat := 2
/-- T_LEAD (R212, COX.TETHER.lead). -/
def tLead : Nat := 8

/-! The host interface's PCI Express features (R282); configuration space itself is outside the opcode table
(notes/assumptions/66.md). -/

/-- Class code of PF0: processing accelerator (R282). -/
def classCode : BitVec 24 := 0x120000
/-- The device ID that function `fn` reports: 0x4B04 for PF0, 0x4B05 for each VF (R282). -/
def deviceId (fn : BitVec 5) : BitVec 16 := if fn = 0 then 0x4B04 else 0x4B05
/-- VFs, First VF Offset and VF Stride (R282). -/
def numVfs : Nat := 31
def firstVfOffset : Nat := 1
def vfStride : Nat := 1
/-- The routing offset of VF `j` (1–31) from PF0, as the offset and stride give it (R282). -/
def vfOffset (j : Nat) : Nat := firstVfOffset + (j - 1) * vfStride
/-- Link widths, and rates in tenths of a GT/s; FLIT mode is always on at 64.0 GT/s (R282). -/
def linkWidths : List Nat := [8, 4, 2, 1]
def linkRates : List Nat := [25, 50, 80, 160, 320, 640]
def flitAlways (rate : Nat) : Bool := rate == 640
/-- The narrowest width of L0p (R282). -/
def l0pWidth : Nat := 2
/-- Payload and read request sizes in bytes, non-posted requests outstanding from the VX4, and tag bits (R282). -/
def minPayload : Nat := 128
def maxPayload : Nat := 512
def maxReadRequest : Nat := 4096
def maxNonPosted : Nat := 512
def tagBits : Nat := 14
/-- Lane reversal and polarity inversion of the link; ASPM L1 with L1.1 and L1.2, no L0s; relaxed ordering and no-snoop on
the VX4's own ring writes; AER with the header log (R282). -/
def laneReversal : Bool := true
def polarityInversion : Bool := true
def aspmL1Substates : List Nat := [1, 2]
def aspmL0s : Bool := false
def ringRelaxedOrdering : Bool := true
def ringNoSnoop : Bool := true
def aerHeaderLog : Bool := true
/-- Folarven's vendor ID (R282), whose value the spec does not state. -/
opaque vendorId : BitVec 16

/-- Free value: the 512 target lands as sampled where a land floats (R497), where the package and the target drive
opposite levels (R501), or where the bank shows undefined levels; drawn once per sample by `State.free`. -/
opaque freePins : Nat → BitVec 512
/-- Free value: any other word that the spec does not state: MBX.PROGRESS.percent before its operation ends (R310), what a
bank senses after its readings are lost (R495, R515), ring-oscillator counts before the first sample (R540); drawn by
`State.free`. -/
opaque freeWord : Nat → BitVec 64
/-- Free value: the nonce drawn when a wake from P3 begins the start-up again (R357, R463). -/
opaque freeNonce : Nat → BitVec 64

/-- Free value: a read of an operand source that does not exist (R26); the loader refuses every image that names one,
so only a miscorrected word can. Drawn by selector and absolute stroke. -/
opaque freeSource : Nat → Nat → BitVec 2

/-- Free value: the boundary cells that a capture takes from pads the manual gives no level for (R509). -/
opaque freeCells : Nat → BitVec 1899

/-- Free value: the SHA-384 digest of the boot ROM (R307), whose contents the spec does not state. -/
opaque bootRomDigest : BitVec 384

/-- Folarven's JEP106 manufacturer code in IDCODE (R508), which the spec does not state. -/
opaque jep106 : BitVec 11

end Sys2Proof.Config
end

