-- ==== Sys2Proof/Machine/State.lean ====
section
/-! DEFINITION. The state of one VX4 package as plain data, and its value right after reset.

Every register the manual names has one home: the register file (`regs`, `ctrs`, `wide`, `snaps`; Machine/Regs.lean
gives each register's reset value, and an absent register reads it), except that the state code of a state machine
is held typed (`CoxState`, `LnkState`, …) and shown in its register on a read. All configuration frames are one store
of check-bit-protected codewords (`cfg`). What the part emits is appended to `out`, and `free` counts the free values
drawn; these two, and `pending`, are the model's own fields. -/

namespace Sys2Proof.Machine

/-- Why the machine stops. Safe: the part goes on where the model stops, and nothing is claimed of it there. -/
inductive Fault where
  /-- An operand names a unit that the spec says does not exist (a lane above 16, a router port above 5, a sensor
  above 71, a rail above 5, a self-test slice above 0x22). Raised by the meaning of the command that carries the
  operand. Safe: no sender can address such a unit. -/
  | noSuchUnit
  deriving DecidableEq, Repr

/-- Why a command has no meaning. -/
inductive Refusal where
  /-- A command not modelled yet, by its mnemonic; raised only in Dispatch.lean. Safe. -/
  | notModelled (mnemonic : String)
  /-- A Folarven debug instruction while an installed token grants rights bit 1: the spec gives the instruction no
  effect there (R508). Raised by DEBUG_ACCESS. Safe. -/
  | folarvenDebug
  deriving DecidableEq, Repr

/-- Operating modes (R15), in the order of their codes. -/
inductive Mode where
  | service | capacity | fleet | fourstate | comodel | tethered
  deriving DecidableEq, Repr

/-- States of the course controller (R79). -/
inductive CoxState where
  | noImage | ready | run | easy | wait | halted
  deriving DecidableEq, Repr

/-- Board formation states (R229), in the order of their codes. -/
inductive BoardState where
  | none | forming | measuring | formed | incomplete | failed
  deriving DecidableEq, Repr

/-- Local-port states (R126), in the order of their codes. -/
inductive NetState where
  | live | dead | reconf | down
  deriving DecidableEq, Repr

/-- Daxair port states (R262), in the order of their codes. -/
inductive LnkState where
  | off | detect | train | lock | exchange | active | sleep | fault | test
  deriving DecidableEq, Repr

/-- Channel states (R322), in the order of their codes. -/
inductive ChState where
  | disabled | active | draining | error
  deriving DecidableEq, Repr

/-- Loader states (R376), in the order of their codes. -/
inductive LdState where
  | idle | manifest | table | verify | quiesce | wake | write | store | recover
  deriving DecidableEq, Repr

/-- Recovery states (R401), in the order of their codes. -/
inductive RecState where
  | idle | waitHalt | needHost | read | write | failed
  deriving DecidableEq, Repr

/-- Capture states (R420), in the order of their codes. -/
inductive TrgState where
  | idle | arming | armed | fired | done
  deriving DecidableEq, Repr

/-- Package power states P0 to P3 (R462). -/
inductive PkgState where
  | p0 | p1 | p2 | p3
  deriving DecidableEq, Repr

/-- Target-bank states (R496), in the order of their codes. -/
inductive PodState where
  | off | check | on | podFault
  deriving DecidableEq, Repr

/-- Where the start-up of R16 stands; `off` is a package without power. -/
inductive BootStep where
  | off | supply | selfTest | keeper | rom | recovery | up
  deriving DecidableEq, Repr

/-- A completion entry (R291), with the irq flag of its operation. -/
structure Completion where
  tag       : BitVec 16
  status    : BitVec 8
  final     : Bool
  abortF    : Bool
  detail    : BitVec 32
  course    : BitVec 64
  hostBytes : BitVec 32
  devWords  : BitVec 32
  sqHead    : BitVec 16
  waitUs    : BitVec 32
  irq       : Bool
  /-- It ends a message of which a further fragment failed: its tag may begin a new message before the entry is written
  (R290). -/
  restarts  : Bool
  deriving DecidableEq, Repr

/-- A packet of VN1 to VN3 (R125): head and data flits, the virtual network, the route that travels beside it
(R111), the mark of R122 and the network cycles its head has been held (R128). -/
structure Packet where
  head     : BitVec 64
  data     : List (BitVec 64)
  vn       : BitVec 2
  legs     : BitVec 18
  endG     : Bool
  nextPort : BitVec 3
  bad      : Bool
  held     : Nat
  cls      : Bool
  deriving DecidableEq, Repr

/-- A trace packet committed to the stream (R440): its fields and its full timestamp. -/
structure TracePacket where
  type   : BitVec 8
  flags  : BitVec 8
  source : BitVec 8
  words  : List (BitVec 64)
  time   : BitVec 64
  /-- COX.COURSE at commit, which a SYNC written before it carries. -/
  course : BitVec 64
  deriving DecidableEq, Repr

/-- What the package emits to the world outside it. -/
inductive Out where
  /-- 32-bit data returned to a read. -/
  | readData (v : Word)
  /-- A completion entry of channel `c`, four 64-bit words written at an address of its completion ring (R291). -/
  | completion (c : Chan) (addr : BitVec 64) (words : List (BitVec 64))
  /-- An MSI-X message of a function's vector. -/
  | msix (fn : Fn) (vec : BitVec 11)
  /-- 64-bit words written to host memory from an address up. -/
  | hostWrite (addr : BitVec 64) (words : List (BitVec 64))
  /-- A cox message put on the cox line of the package; the ports send it on in their COX frames (R233, R254). -/
  | cox (kind : BitVec 4) (m : CoxMsg)
  /-- A frame sent on a Daxair port (R249, R250): the sync headers and payloads of lanes 0–15, and of lane 16 where it
  stands in for a lane. -/
  | frame (n : DPort) (f : RxFrame)
  /-- Ordered blocks sent on lanes 0–16 of a Daxair port, and on its clock lane (R261). -/
  | ordered (n : DPort) (blocks : List (BitVec 64))
  /-- 64 bits of a test pattern sent on each data lane of a Daxair port (R269). -/
  | pattern (n : DPort) (lanes : List (BitVec 64))
  /-- A packet consumed by the I/O die as a response that completes a requester's tag: the tag, the completion code
  and the data. -/
  | tagDone (io : Bool) (pav : Pav) (tag : BitVec 10) (code : BitVec 8) (data : List (BitVec 64))
  /-- SMBus answer: acknowledged or not, and the data byte(s). -/
  | smbus (ack : Bool) (data : Word)
  /-- SCL held low, or released. -/
  | scl (held : Bool)
  /-- A DOE or SPDM response: the response's code, its fields, and whether it carries the identity key's ECDSA and
  LMS signatures (the LMS leaf index when it does). -/
  | doe (code : BitVec 8) (fields : List (BitVec 64)) (ecdsa : Bool) (leaf : Option (BitVec 16))
  deriving DecidableEq, Repr

/-- A DRIVE executed in the stroke in progress (R60): crew index pavilion × 64 + crew, wire, driver, and the two-bit
operands A and B. -/
structure Drive where
  crew : Nat
  wire : BitVec 2
  bp   : Bp
  val  : BitVec 2
  en   : BitVec 2
  deriving DecidableEq, Repr

/-- A lane placed by SEND (R114): pavilion, route entry, lane, value, and the absolute stroke of the SEND. -/
structure SendRec where
  pav   : Pav
  entry : BitVec 10
  lane  : BitVec 3
  val   : BitVec 2
  g     : Nat
  deriving DecidableEq, Repr

/-- A contribution to a memory operation (R171); `lat` is the deep-memory latency the controller would commit. -/
structure Contrib where
  pav  : Pav
  desc : BitVec 6
  role : BitVec 2
  idx  : BitVec 8
  val  : BitVec 2
  lat  : BitVec 16
  deriving DecidableEq, Repr

/-- A write to a receive register made in the stroke in progress, visible from the next (R27): register key, the
bits written, their value, and whether it fell in the second network cycle. -/
structure RxWrite where
  key  : Nat
  mask : BitVec 8
  val  : BitVec 8
  half : Bool
  deriving DecidableEq, Repr

/-- A bank read between issue and delivery (R174): due stroke, the codeword read per instance with its contents at
issue (none: the instance's values are 0, or X in FOURSTATE, R158, R186), the instance bits it delivers, and whether it
merges under an X enable (R186). -/
structure BankRead where
  pav   : Pav
  port  : BitVec 1
  due   : Nat
  cw0   : Option Nat
  cw1   : Option Nat
  raw0  : BitVec 72
  raw1  : BitVec 72
  inst  : BitVec 2
  merge : Bool
  deriving DecidableEq, Repr

/-- A LOG executed in the stroke in progress (R32, R444): global BP index, port, value, valid, end of message. -/
structure LogRec where
  bp   : Nat
  port : BitVec 8
  val  : BitVec 2
  en   : BitVec 2
  last : Bool
  deriving DecidableEq, Repr

/-- Stage of a deep read. -/
inductive DeepStage where
  /-- In the stack. -/
  | issued
  /-- In the port's return buffer, waiting for its due stroke. -/
  | arrived
  /-- Its due stroke has passed without it; the result is discarded when it comes. -/
  | missed
  deriving DecidableEq, Repr

/-- A deep read between issue and delivery (R174, R181): terrace port, pavilion, due stroke, committed ready tick of
COX.WALL (brought forward by the ticks that COX.WALL does not count),
the physical codewords read per instance (keys of `deep`, none if that instance reads nothing), the codewords as they
stood at issue (R173), the instance bits delivered, the merge of R186, and the unpacked result. -/
structure DeepRead where
  terr  : BitVec 4
  pav   : Pav
  due   : Nat
  tick  : Nat
  cw0   : Option Nat
  cw1   : Option Nat
  raw0  : BitVec 288
  raw1  : BitVec 288
  inst  : BitVec 2
  merge : Bool
  stage : DeepStage
  data  : BitVec 512
  deriving DecidableEq, Repr

/-- A pending correction write-back (R188): into deep or bank memory, the key, the word as it was read, and the
corrected word. -/
structure WriteBack where
  deep : Bool
  key  : Nat
  old  : BitVec 288
  new  : BitVec 288
  deriving DecidableEq, Repr

/-- The BPs, crews and memory pipelines. -/
structure Fabric where
  /-- Global indices of the BPs that have executed in the stroke in progress (R21). -/
  retired  : List Nat
  /-- Those of them whose word was uncorrectable (R43). -/
  bad      : List Nat
  /-- What the slots written in the stroke in progress held at its start (R27); key as in `slots`. -/
  past     : Sparse (BitVec 2)
  drives   : List Drive
  logs     : List LogRec
  /-- Wires with an enabled driver in the stroke before, and the value they resolved to; key crew × 4 + wire. -/
  wires    : Sparse (BitVec 2)
  /-- Keepers written since the load; an absent one holds its initial value (R63, R66). -/
  keepers  : Sparse (BitVec 2)
  sends    : List SendRec
  contribs : List Contrib
  /-- Receive registers written since the load, key pavilion × 64 + register (R115). -/
  rx       : Sparse (BitVec 8)
  rxNext   : List RxWrite
  /-- Bank read-data sources, key pavilion × 2 + port, two bits per value (R174). -/
  bankSrc  : Sparse (BitVec 128)
  /-- Deep read-data sources, key pavilion. -/
  deepSrc  : Sparse (BitVec 512)
  bankRds  : List BankRead
  deepRds  : List DeepRead
  backs    : List WriteBack
  /-- Bank codewords that the host, a packet or capture has written in the stroke in progress, as they stood at its start
  (R173, R177). -/
  bankPast : Sparse (BitVec 72)
  /-- Bank cycles of the stroke in progress granted outside the schedule, each by its bank, pavilion × 64 + bank (R176). -/
  grants   : List Nat
  /-- Events already logged in this course: kind of mark and unit. -/
  marks    : List (Nat × Nat)
  deriving DecidableEq, Repr

/-- What a request for Easy states (R83). -/
inductive ReqKind where
  /-- A tick request: the COX.WALL tick at which the data will be present. -/
  | tick (t : Nat)
  /-- A length request, in strokes. -/
  | len (n : Nat)
  /-- An open request, and its open figure once it has sent CLEAR (R87). -/
  | opn (figure : Option Nat)
  deriving DecidableEq, Repr

/-- A request for Easy: the package that raised it, its cause code (R255), its stop point as an absolute stroke. -/
structure EasyReq where
  origin : BitVec 4
  cause  : BitVec 4
  unit   : Nat
  p      : Nat
  kind   : ReqKind
  deriving DecidableEq, Repr

/-- A STOP in force (R85): stop point, cause, largest tick, largest length, whether any request is open, and the
figure that the last CLEAR or RESUME fixed (R87); and what its sized requests ask for by cause (R88): the largest tick of
LINK and of DMEM, the largest length of LINK and of THERMAL. -/
structure StopRec where
  p      : Nat
  cause  : BitVec 4
  tick   : Nat
  len    : Nat
  opn    : Bool
  figure : Option Nat
  linkTick : Nat
  dmemTick : Nat
  linkLen  : Nat
  thermLen : Nat
  deriving DecidableEq, Repr

/-- A halt raised and not yet in effect (R81): its cause, the first course that does not run, and the absolute
stroke in which it was raised. -/
structure HaltReq where
  cause  : BitVec 4
  before : Nat
  raised : Nat
  deriving DecidableEq, Repr

/-- A mode with its options (R204), and the course of its boundary. -/
structure ModeSet where
  mode      : Mode
  lockstep  : Bool
  fleetPins : Bool
  course    : Nat
  deriving DecidableEq, Repr

/-- The course controller (R76–R94) and the modes (R203–R217). -/
structure Cox where
  st         : CoxState
  /-- Course length L, 0 while no image is loaded (R98). -/
  length     : Nat
  stroke     : Nat
  /-- A run or step is in force. -/
  started    : Bool
  /-- Courses left of a step in force. -/
  stepping   : Option Nat
  /-- Strokes left of the start lead (R80), none when no lead runs. -/
  lead       : Option Nat
  halts      : List HaltReq
  /-- Requests raised by units of this package that have not reached the master yet. -/
  raised     : List EasyReq
  /-- Requests the master holds. -/
  reqs       : List EasyReq
  stops      : List StopRec
  /-- Easy strokes since the stop. -/
  easyK      : Nat
  /-- EASY_LONG has been logged for the Easy in progress. -/
  easyLong   : Bool
  mode       : Mode
  lockstep   : Bool
  fleetPins  : Bool
  pend       : Option ModeSet
  /-- Mode that replaces start_mode at release (R205). -/
  startMode  : Option ModeSet
  /-- Lock-step began at the acceptance of a SET_MODE before release (R205). -/
  lockPre    : Bool
  /-- Stroke-clock ticks since power-on, in every state. -/
  ticks      : Nat
  /-- The TCLK polarity in force for pacing and measurement (R217). -/
  edge       : Bool
  lastEdge   : Option Nat
  /-- Strokes left of the tether lead (R212). -/
  tether     : Option Nat
  /-- The throttle step asked for and not yet taken: up or down, and its stop point. -/
  throttle   : Option (Bool × Nat)
  /-- TRC.TIME of the last throttle step (R93). -/
  lastStep   : Option Nat
  /-- Which of the last 64 ticks retired a course stroke, the last in bit 0 (R92). -/
  strokes    : BitVec 64
  board      : BoardState
  /-- A MOVE_MASTER waits for the board to form again. -/
  moving     : Bool
  /-- The board measures again under a new master that another package's MOVE_MASTER named (R235). -/
  carried    : Bool
  formedOnce : Bool
  deriving DecidableEq, Repr

/-- A VN0 flit in the network (R112): the router it stands at, the input port it came by, and the network cycle
(2 × absolute stroke + half) at which it is there. -/
structure Flit where
  bits : BitVec 64
  at_  : Pav
  inp  : RPort
  due  : Nat
  deriving DecidableEq, Repr

/-- A VN0 flit held in a Daxair receive buffer until its tag cycle (R116). -/
structure HeldFlit where
  port : DPort
  bits : BitVec 64
  due  : Nat
  deriving DecidableEq, Repr

/-- The pavilion network. -/
structure Net where
  /-- Local-port states that differ from the one the fuses give (R126, R132). -/
  ports  : Sparse NetState
  flits  : List Flit
  held   : List HeldFlit
  /-- Router input buffers of VN1–VN3, key (router × 6 + input) × 4 + vn. -/
  bufs   : Sparse (List Packet)
  /-- Packets that wait at an NI or at the I/O die for a router's input buffer, by the same key (R110). -/
  waitQ  : Sparse (List Packet)
  /-- Outputs, router × 6 + output, that an unreserved VN0 flit took in a cycle of the stroke in progress (R109, R120). -/
  skid   : List (Nat × Nat)
  /-- The network cycle from which an output, router × 6 + output, is free of the packet granted last (R109). -/
  outFrom : Sparse Nat
  /-- MGMT packets that an NI has issued and that are not answered: each holds a place for its answer (R110). -/
  owed   : Sparse Nat
  /-- Pavilions whose local port was DEAD when it went DOWN (R131). -/
  wasDead : BitVec 128
  /-- Packets delivered to a local port and not yet served. -/
  inbox  : Sparse (List Packet)
  /-- Packets taken by the I/O die and not yet consumed. -/
  ioIn   : List Packet
  /-- Wake latches of the dies (R130). -/
  latch  : Sparse (List Packet)
  /-- Round-robin position per output and virtual network, key (router × 6 + output) × 4 + vn. -/
  turn   : Sparse Nat
  /-- Dies whose NIs are fenced (R130). -/
  fenced : BitVec 4
  /-- Messages put on the cox line that the ports have taken, as a count of `out`. -/
  sent   : Nat
  /-- UI of the frame in progress on the Daxair ports (R249). -/
  ui     : Nat
  deriving DecidableEq, Repr

/-- Adaptation of one receiving lane in TRAIN (R260). phase: 0 CTLE search, 1 post, 2 pre, 3 ended. -/
structure Adapt where
  phase   : Nat
  code    : Nat
  best    : Option (Nat × Nat)
  lastFom : Nat
  post    : Nat
  pre     : Nat
  deriving DecidableEq, Repr

/-- One Daxair port (R248–R269). -/
structure LnkPort where
  st       : LnkState
  /-- Sequence number of the last data frame accepted (R252). -/
  rxSeq    : BitVec 8
  nak      : Bool
  /-- The next frame is discarded with the one before (R257). -/
  dropNext : Bool
  /-- Last 58 scrambled bits of each lane (R250). -/
  scram    : List (BitVec 58)
  /-- Sequence number of the last data frame sent (R252). -/
  txSeq    : BitVec 8
  /-- Data frames sent and not acknowledged, oldest first: the number of each and the packets in its slots (R256). -/
  store    : List (BitVec 8 × List Packet)
  /-- Numbers of the data frames to be replayed (R256). -/
  resend   : List (BitVec 8)
  /-- Packets that wait for a data frame: for room in it, for credits, or while 128 frames are unacknowledged (R237, R256). -/
  txQ      : List Packet
  /-- VN0 flits that wait for the next data frame (R254). -/
  vnQ      : List (BitVec 64)
  /-- Cox messages that wait for a COX frame, with their kinds (R254). -/
  coxQ     : List (BitVec 4 × CoxMsg)
  /-- Cox messages taken from this port whose copy on the other port of the edge has yet to come (R233). -/
  coxGot   : List (BitVec 4 × CoxMsg)
  /-- SLEEP_REQ and SLEEP_ACK frames that are due (R254, R266). -/
  ctlQ     : List (BitVec 8)
  /-- The last frame sent was a control frame (R254). -/
  lastCtl  : Bool
  /-- Frames sent since the last ALIGN frame (R254). -/
  sinceAl  : Nat
  /-- Packet flits sent into each buffer of the far end since ACTIVE began, mod 16 (R252). -/
  sentTo   : List (BitVec 4)
  /-- Latency markers still to be sent, and markers of the far end still to be echoed (R230, R252). -/
  markers  : Nat
  echo     : Nat
  /-- Last 58 bits that each transmitted lane's scrambler put out (R250). -/
  txScram  : List (BitVec 58)
  /-- Idle frames still to be sent before the data lanes stop (R266), and WAKE blocks still to be sent (R266). -/
  idle     : Nat
  wakes    : Nat
  /-- Flits of a packet whose tail has not come yet, key virtual network × 2 + class. -/
  asm      : Sparse (List (BitVec 64))
  /-- Flits freed per receive buffer since ACTIVE began, mod 16 (R252). -/
  freed    : List (BitVec 4)
  /-- The far end's credit fields last received. -/
  farFreed : BitVec 24
  exchLast : Option (BitVec 960)
  exchRx   : Nat
  /-- EXCHANGE frames sent in EXCHANGE (R262). -/
  exchTx   : Nat
  adapt    : Sparse Adapt
  /-- Far lane carried by each physical lane, as TRAIN blocks name it (R264). -/
  laneMap  : Sparse (BitVec 5)
  farReady : Bool
  /-- TRAIN blocks with ready = 1 have gone out (R261, R262). -/
  readySent : Bool
  /-- Data lanes found marginal under R260. -/
  marginal : BitVec 17
  /-- Data lanes that were shorted at DETECT. -/
  shorted  : BitVec 17
  trainTo  : Nat
  warned   : BitVec 17
  /-- An agreed sleep is in progress: SLEEP_REQ has been sent. -/
  sleeping : Bool
  /-- The far end asked for lane 16 to stand in for this lane (R261). -/
  txSpare  : BitVec 5
  /-- FIR settings that the far end asked of each transmitted lane: pre-cursor and post-cursor code (R258, R261). -/
  fir      : Sparse (BitVec 4 × BitVec 5)
  /-- The far end asks for its bits to be looped back (R261, R269). -/
  farLoop  : Bool
  /-- The pattern generators' last 31 bits, and those of each checker that is synchronised, with the pattern that it is
  synchronised on (R269). -/
  gen      : BitVec 31
  check    : Sparse (BitVec 2 × BitVec 31)
  /-- The rest of an injected burst, on the next block of a lane (R269). -/
  spill    : Option (BitVec 5 × BitVec 66)
  /-- Strokes of recentring that the receive buffer is still short of (R213, R267). -/
  drift    : Nat
  deriving DecidableEq, Repr

/-- A message fetched from a channel (R331): it holds one matching-store entry until its final completion. -/
structure Msg where
  chan    : Chan
  tag     : BitVec 16
  port    : MPort
  inst    : BitVec 1
  cls     : BitVec 2
  frags   : BitVec 2
  got     : List (BitVec 2 × List (BitVec 8))
  /-- Promised course of an admitted TIMED message (R296). -/
  promise : Option Nat
  claimed : Bool
  ready   : Bool
  /-- 0 in the store, 1 taken by an engine, 2 sent as DELIVER, 3 staged. -/
  stage   : BitVec 2
  order   : Nat
  irq     : Bool
  sqHead  : BitVec 16
  waitUs  : BitVec 32
  /-- A copy read from the replay ring (R338), with its recorded course. -/
  replay  : Option Nat
  /-- Aborts that came after an engine had taken the message: they are answered after its completion (R339). -/
  late    : Nat
  deriving DecidableEq, Repr

/-- One host channel beyond its page registers (R286–R292). -/
structure ChanSt where
  st     : ChState
  err    : BitVec 4
  sqHead : BitVec 16
  cqTail : BitVec 16
  phase  : Bool
  /-- Completions committed and not yet written to the ring, oldest first. -/
  held   : List Completion
  /-- The last fetch found no dispatch room for its SEND_MSG (R294, R335). -/
  bpD    : Bool
  deriving DecidableEq, Repr

/-- A BANK_WR fetched during Easy: its writes are held at the NI until the stop point (R86): channel, pavilion, first
codeword, data, whether it is narrow (R290), and its completion as it stands but for code and dev_words. -/
structure HeldWrite where
  chan   : Chan
  pav    : Pav
  index  : Nat
  words  : List (BitVec 64)
  narrow : Bool
  done   : Completion
  deriving DecidableEq, Repr

/-- The result of a long mailbox command, waiting for its completion (R305). -/
structure MbxRes where
  code : BitVec 8
  r0   : Word
  r1   : Word
  r2   : Word
  r3   : Word
  deriving DecidableEq, Repr

/-- The host interface. -/
structure Hif where
  chans   : Sparse ChanSt
  owner   : Sparse Word
  budget  : Sparse (BitVec 13)
  /-- Budget writes waiting for the next course boundary (R285), oldest first. -/
  budNext : List (Chan × BitVec 13)
  /-- TIMED admissions: channel, port, instance, promised course (R296, R334). -/
  admits  : List (Chan × MPort × BitVec 1 × Nat)
  /-- Functions in D3hot, and completions are held for them. -/
  d3      : BitVec 32
  busy    : Bool
  long    : Bool
  irq     : Bool
  due     : Option MbxRes
  /-- The channel served last in each class and the turns it has had in a row (R295). -/
  turns   : Sparse (Nat × Nat)
  /-- BANK_WR operations held during Easy, in the order of their fetch. -/
  parked  : List HeldWrite
  /-- SPDM responder: version and algorithms negotiated (R306). -/
  spdm    : BitVec 2
  /-- Pending bits of the MSI-X vectors (R284): PF0's 1,056, then 32 of each VF. -/
  msix    : BitVec 2048
  deriving DecidableEq, Repr

/-- What a port has decided for its next landing (R333): due stroke, instance, whether a message lands, and whether
the port asked for Easy to wait for one. -/
structure Decision where
  port : MPort
  inst : BitVec 1
  due  : Nat
  land : Bool
  wait : Bool
  /-- A credit was free at the decision stroke (R338). -/
  free : Bool
  deriving DecidableEq, Repr

/-- What is still to come of a message that ended before all its fragments were fetched (R292, R331): the fields its other
fragments carry, and the indices already fetched or discarded. -/
structure Rest where
  port  : MPort
  inst  : BitVec 1
  frags : BitVec 2
  seen  : List (BitVec 2)
  deriving DecidableEq, Repr

/-- Message dispatch (R324–R339). -/
structure Dsp where
  bind     : Sparse (BitVec 13)
  /-- The channel field of ports that were written with bound = 0 (R6, R342). -/
  unbound  : Sparse (BitVec 13)
  /-- Free credits at the NI, key port × 2 + instance. -/
  credits  : Sparse Nat
  /-- Credits the matching store holds and no message has claimed. -/
  unclaimed : Sparse Nat
  msgs     : List Msg
  nextOrd  : Nat
  /-- Message orders on the ready lists TIMED, BULK, BACKGROUND, oldest first. -/
  readyT   : List Nat
  readyB   : List Nat
  readyG   : List Nat
  /-- Prefetch slots of the engines: message orders, at most two. -/
  engines  : Sparse (List Nat)
  /-- Orders of the messages staged beside a port, earliest first; key port × 2 + instance. -/
  staged   : Sparse (List Nat)
  decided  : List Decision
  /-- Course of the replay entry read last, and whether the end entry has been read (R338). -/
  rplLast  : Option Nat
  rplEnd   : Bool
  /-- Messages that ended with fragments still to come, which are discarded; key channel × 65,536 + tag (R292, R331). -/
  dropped  : Sparse Rest
  /-- Record entries of landings that the ring has not taken yet, key (absolute stroke × 4,096 + port) × 2 + instance
  (R337). -/
  recHeld  : Sparse (List (BitVec 64))
  /-- Ports whose pavilion's region is being loaded: their messages end DEAD_TARGET (R339). -/
  deadPav  : List Nat
  deriving DecidableEq, Repr

/-- A load in progress (R368–R373). -/
structure Job where
  /-- 1 LOAD_FULL, 2 LOAD_PARTIAL, 3 ROLLBACK, 4 boot (R382). -/
  op       : BitVec 4
  host     : Bool
  object   : BitVec 2
  store    : Bool
  auto     : Bool
  region   : BitVec 6
  /-- The load rewrites one region of a partial part. -/
  regional : Bool
  /-- A load the Keeper started by itself after a failed pass B (R375). -/
  recovery : Bool
  /-- Role of the directory entry read, 0 for a host source. -/
  role     : BitVec 8
  deriving DecidableEq, Repr

/-- Release of a region (R386). -/
structure Region where
  stage   : Nat
  target  : Nat
  partial_ : Bool
  dead    : Bool
  version : BitVec 6
  fromHost : Bool
  /-- The first course after the region's last partial load (R553). -/
  since   : Option Nat
  deriving DecidableEq, Repr

/-- Images, loading and release. -/
structure Ldr where
  st       : LdState
  job      : Option Job
  passB    : Bool
  /-- The stream that passed pass A, waiting for pass B. -/
  stream   : Option Stream
  /-- The loaded base part's header, port table and provenance. -/
  image    : Option Stream
  fromHost : Bool
  role     : BitVec 8
  stage    : Nat
  target   : Nat
  auto     : Bool
  regions  : Sparse Region
  /-- The two directory copies in flash (R360, R361). -/
  dir0     : DirCopy
  dir1     : DirCopy
  /-- Running versions of firmware and shell, for the commit bits of RELEASE. -/
  fwVer    : BitVec 6
  shVer    : BitVec 6
  /-- The next leaf of the identity key's LMS tree as flash keeps it (R356). -/
  lmsRec   : BitVec 16
  /-- Manifest digests of the running firmware and shell (R307). -/
  fwDig    : BitVec 384
  shDig    : BitVec 384
  token    : Option (BitVec 2)
  deriving DecidableEq, Repr

/-- A SCRUB_FULL in progress (R404): its step (1 configuration pass, 2 recovery, 3 bank pass, 4 deep pass), the
position of its own walk, what its configuration pass has found, and its two arguments. -/
structure FullScrub where
  step    : Nat
  pos     : Nat
  fixed   : Nat
  care    : Nat
  dc      : Nat
  rec_    : Bool
  memory  : Bool
  deriving DecidableEq, Repr

/-- Configuration recovery and the scrubbers' own state. -/
structure Scb where
  st     : RecState
  queue  : List (BitVec 32)
  full   : Option FullScrub
  /-- The completion code with which recovery last went to FAILED (R401). -/
  fail   : Nat
  /-- Care-map codewords found uncorrectable whose frame has not been rewritten since, by configuration key (R399). -/
  careUe : List Nat
  deriving DecidableEq, Repr

/-- A sample waiting to be written into a pavilion's capture ring. -/
structure CapWrite where
  pav : Pav
  pos : Nat
  w   : Nat
  /-- The codeword of the sample that is written next. -/
  j   : Nat
  val : BitVec 128
  deriving DecidableEq, Repr

/-- A measurement unit's working values (R426). -/
structure Meas where
  prev  : Option Bool
  run   : Nat
  n0    : Nat
  n1    : Nat
  rise  : Option Nat
  any   : Bool
  deriving DecidableEq, Repr

/-- Triggers, capture and measurement. -/
structure Trg where
  st      : TrgState
  seq     : Nat
  stopped : Bool
  armAt   : Option Nat
  /-- Samples taken since arming. -/
  taken   : Nat
  course  : Nat
  prev    : Sparse (BitVec 128)
  cur     : Sparse (BitVec 128)
  havePrev : Bool
  /-- Conditions met in the sample of the course in progress, waiting for the decision at S + 8. -/
  met     : BitVec 16
  waiting : Bool
  /-- CAP_WIN and CAP_DEPTH as read at the arm (R432). -/
  win     : Word
  depth   : Nat
  /-- Absolute stroke at which a FIRE_HALT raises its halt (R418). -/
  haltAt  : Option Nat
  landings : List (MPort × BitVec 1 × Nat)
  writes  : List CapWrite
  /-- FIREs that this package has raised as the master and that have not reached its controller. -/
  raised  : List CoxMsg
  /-- The FIRE that the master has accepted and on which its package has not acted, with the absolute stroke in which it was
  accepted (R418). -/
  sent    : Option (CoxMsg × Nat)
  /-- The FIRE on which this package has acted. -/
  fire    : Option CoxMsg
  accepted : Bool
  preAtFire : Nat
  dens    : Sparse Nat
  densN   : Nat
  densOn  : Bool
  densFirst : Nat
  densK   : Nat
  meas    : Sparse Meas
  frozen  : Bool
  deriving DecidableEq, Repr

/-- An ended log message waiting for its commit (R444, R445). -/
structure LogMsg where
  port   : BitVec 8
  inst   : BitVec 1
  course : Nat
  stroke : Nat
  vals   : List (BitVec 2)
  cont   : Bool
  two    : Bool
  deriving DecidableEq, Repr

/-- Message trace. -/
structure Trc where
  hostQ     : List (BitVec 8 × List Word)
  asm       : Sparse (List (BitVec 2))
  ended     : List LogMsg
  committed : List TracePacket
  ring      : Sparse (BitVec 64)
  lastTime  : BitVec 64
  sinceSync : Nat
  syncTime  : BitVec 64
  syncDue   : Bool
  lostRun   : Nat
  /-- Fraction of a 10 ns tick of TRC.TIME gathered by the stroke clock, in units of 1/28,828,800. -/
  frac      : Nat
  bref      : Bool
  flushing  : Option Nat
  deriving DecidableEq, Repr

/-- An accepted entry to P1, P2 or P3 (R465). -/
structure Entry where
  target   : PkgState
  resume   : Bool
  tclkWake : Bool
  deriving DecidableEq, Repr

/-- Power states, SMBus and the start-up. -/
structure Pwr where
  st       : PkgState
  entry    : Option Entry
  entering : Bool
  /-- A wake source latched during entry (R472). -/
  latched  : Option (BitVec 4)
  /-- A wake in progress: source, next step of R470 (0 IOD and PCIE, 1–16 PWR.SEQ[0..15], 17 DMEM), microseconds so
  far, and whether it comes from P3. -/
  waking   : Option (BitVec 4 × Nat × Nat × Bool)
  tclkWake : Bool
  /-- Dies held off by a die-down operation, and dies whose wake failed (R474). -/
  dieOff   : BitVec 4
  dieDead  : BitVec 4
  /-- Retained state was lost in P2 (R477). -/
  lost     : Bool
  smPtr    : Word
  sclHeld  : Bool
  nackNext : Bool
  lateLog  : Bool
  asleep   : Bool
  boot     : BootStep
  /-- Sensor and reading of a thermal shutdown, kept in AON (R531). -/
  thermal  : Option (BitVec 7 × BitVec 16)
  aonHot   : Bool
  /-- run and step are ignored until a LOAD_FULL completes (R530). -/
  supplyLock : Bool
  faultPin : Bool
  replacePin : Bool
  wakePin  : Bool
  /-- Banks, by pavilion, that the entry to P2 put in retention (R462). -/
  kept     : Sparse (BitVec 64)
  /-- The run that an entry with resume = 1 asked for is still to be issued (R473). -/
  resuming : Bool
  /-- Step 5 of R16 has ended, so that Daxair ports may leave OFF. -/
  linksOpen : Bool
  deriving DecidableEq, Repr

/-- A sample of the 512 target lands: the levels, the pins that float, the number of the free draw, and the banks that were
in ON. -/
structure PinSample where
  lev   : BitVec 512
  float : BitVec 512
  n     : Nat
  on    : BitVec 16
  deriving DecidableEq, Repr

/-- A pin change due two strokes after its PINOUT (R40): drive to a level, or release. -/
structure PinDue where
  pin : BitVec 9
  act : Option Bool
  g   : Nat
  deriving DecidableEq, Repr

/-- Target pins. -/
structure Pins where
  /-- What the targets drive on the lands, and which lands they drive. -/
  land   : BitVec 512
  landOn : BitVec 512
  /-- What the VX4 drives, and which pins it drives. -/
  drv    : BitVec 512
  drvOn  : BitVec 512
  due    : List PinDue
  /-- Samples at the start of the stroke in progress and of the two strokes before it. -/
  s0     : PinSample
  s1     : PinSample
  s2     : PinSample
  /-- Strokes sampled since the load, up to 3 (R553). -/
  taken  : Nat
  pods   : Sparse PodState
  /-- Pulls in effect (R498). -/
  up     : BitVec 512
  dn     : BitVec 512
  /-- Pads as latched at the last entry to P2 or P3 (R475). -/
  padLev : BitVec 512
  padOn  : BitVec 512
  padUp  : BitVec 512
  padDn  : BitVec 512
  padIn  : BitVec 512
  /-- Outputs frozen by an overrun, and the course at whose start they thaw (R215). -/
  frozen : Bool
  thaw   : Nat
  /-- Pavilions whose outputs a partial load has released and whose stage 1 is still to come (R373). -/
  held   : List Nat
  pulling : Bool
  deriving DecidableEq, Repr

/-- The JTAG port (R508, R509). -/
structure Jtag where
  ir       : BitVec 8
  boundary : BitVec 1899
  capture  : BitVec 1899
  deriving DecidableEq, Repr

/-- Self-test, repair and health. -/
structure Hlt where
  /-- Soft repair records (R522, R527), and those of them that still wait to be applied. -/
  soft      : List FaultRec
  waiting   : List FaultRec
  applied   : Bool
  retired   : List Nat
  /-- Spare rows and columns used, key by array (Machine/Health.lean). -/
  spares    : Sparse Nat
  /-- The spare crew's own spare BP, by pavilion, laid out as SPARE_BP (R51, R70, R75). -/
  ownSpare  : Sparse (BitVec 32)
  replaced  : Bool
  above105  : Bool
  tetherHot : Bool
  /-- TRC.TIME since which every sample was below 95 °C and within the current limit; none if the last one was not (R93). -/
  coolSince : Option Nat
  railWarn  : BitVec 6
  railFault : BitVec 6
  slow      : List Nat
  /-- Good sensors at 115 °C or more in the last sample, and in the last two (R531). -/
  hot115    : BitVec 72
  hotTwice  : BitVec 72
  clocksBad : Bool
  dwell     : Bool
  deriving DecidableEq, Repr

/-- What this package's fuses hold. -/
structure Fuses where
  pavs     : BitVec 128
  partPavs : BitVec 8
  grade    : BitVec 8
  stepping : BitVec 4
  fwFloor  : BitVec 6
  shFloor  : BitVec 6
  dsFloor  : BitVec 6
  /-- Key slots as the vote of R354 resolves them: usable, revoked, voted. -/
  keyUse   : BitVec 8
  keyRev   : BitVec 8
  keyVote  : BitVec 8
  /-- The key hashes that the vote finds, by slot (R354). -/
  keyHash  : Sparse (BitVec 384)
  deviceId : BitVec 64
  /-- Fuses blown for LMS leaves (R356). -/
  lms      : Nat
  repairs  : List FaultRec
  retired  : List Nat
  procRef  : BitVec 16
  deriving DecidableEq, Repr

/-- The machine. -/
structure State where
  regs   : Sparse Word
  ctrs   : Sparse (BitVec 49)
  wide   : Sparse (BitVec 64)
  snaps  : Sparse Word
  evlog  : Sparse (BitVec 128)
  /-- The clock tick of the events logged last, and how many were logged in it (R533). -/
  evTick : Nat
  evIn   : Nat
  satDue : List Nat
  cfg    : Sparse (BitVec 72)
  shadow : Sparse (BitVec 72)
  slots  : Sparse (BitVec 2)
  groups : Sparse (BitVec 39)
  bank   : Sparse (BitVec 72)
  deep   : Sparse (BitVec 288)
  winLow : Option (Nat × Word)
  fab    : Fabric
  cox    : Cox
  net    : Net
  lnk    : Sparse LnkPort
  hif    : Hif
  dsp    : Dsp
  ldr    : Ldr
  scb    : Scb
  trg    : Trg
  trc    : Trc
  pwr    : Pwr
  pins   : Pins
  jtag   : Jtag
  hlt    : Hlt
  fuses  : Fuses
  out    : List Out
  free   : Nat
  pending : List Instr
  deriving DecidableEq, Repr

/-- A sample of lands that nothing drives. -/
def PinSample.quiet : PinSample := { lev := 0, float := 0, n := 0, on := 0 }

/-- A Daxair port in OFF, as at reset (R272–R280). -/
def LnkPort.off : LnkPort :=
  { st := .off, rxSeq := 0, nak := false, dropNext := false, scram := [], txSeq := 0, store := [],
    resend := [], txQ := [], vnQ := [], coxQ := [], coxGot := [], ctlQ := [], lastCtl := false, sinceAl := 0,
    sentTo := [0, 0, 0, 0, 0, 0], markers := 0, echo := 0, txScram := [], idle := 0, wakes := 0, asm := [],
    freed := [0, 0, 0, 0, 0, 0], farFreed := 0, exchLast := none, exchRx := 0, exchTx := 0, adapt := [], laneMap := [],
    farReady := false, readySent := false, marginal := 0, shorted := 0, trainTo := 0, warned := 0, sleeping := false, txSpare := 31,
    fir := [], farLoop := false, gen := BitVec.allOnes 31, check := [], spill := none, drift := 0 }

/-- A channel as at reset: DISABLED (R322). -/
def ChanSt.off : ChanSt :=
  { st := .disabled, err := 0, sqHead := 0, cqTail := 0, phase := true, held := [], bpD := false }

/-- A directory copy that fails its check. -/
def noDir : DirCopy :=
  { magic := 0, format := 0, sequence := 0, autoload := false, autoRelease := false, entries := [], crc := 0 }

/-- The machine right after reset: no supply has risen yet (R16 step 1 is the command POWER_ON), every register holds
its reset value (an empty register file; the values stand in Machine/Regs.lean), every memory lists nothing, and the
queue is empty. The fuses describe a FLV-VX4-128-10 of stepping B0 (DESIGN CHOICE, notes/assumptions/4.md). -/
def State.reset : State :=
  { regs := [], ctrs := [], wide := [], snaps := [], evlog := [], evTick := 0, evIn := 0, satDue := [], cfg := [], shadow := [], slots := [],
    groups := [], bank := [], deep := [], winLow := none,
    fab := { retired := [], bad := [], past := [], drives := [], logs := [], wires := [], keepers := [], sends := [], contribs := [], rx := [],
             rxNext := [], bankSrc := [], deepSrc := [], bankRds := [], deepRds := [], backs := [], bankPast := [], grants := [], marks := [] },
    cox := { st := .noImage, length := 0, stroke := 0, started := false, stepping := none, lead := none, halts := [],
             raised := [], reqs := [], stops := [], easyK := 0, easyLong := false, mode := .service,
             lockstep := false, fleetPins := false, pend := none, startMode := none, lockPre := false, ticks := 0,
             edge := false, lastEdge := none, tether := none, throttle := none, lastStep := none, strokes := 0, board := .none, moving := false,
             carried := false,
             formedOnce := false },
    net := { ports := [], flits := [], held := [], bufs := [], waitQ := [], skid := [], outFrom := [], owed := [], wasDead := 0, inbox := [], ioIn := [], latch := [], turn := [],
             fenced := 0, sent := 0, ui := 0 },
    lnk := [],
    hif := { chans := [], owner := [], budget := [], budNext := [], admits := [], d3 := 0, busy := false,
             long := false, irq := false, due := none, turns := [], parked := [], spdm := 0, msix := 0 },
    dsp := { bind := [], unbound := [], credits := [], unclaimed := [], msgs := [], nextOrd := 0, readyT := [], readyB := [],
             readyG := [], engines := [], staged := [], decided := [], rplLast := none, rplEnd := false, dropped := [], recHeld := [],
             deadPav := [] },
    ldr := { st := .idle, job := none, passB := false, stream := none, image := none, fromHost := false, role := 0,
             stage := 0, target := 0, auto := false, regions := [], dir0 := noDir, dir1 := noDir, lmsRec := 0, fwVer := 0, shVer := 0, fwDig := 0, shDig := 0,
             token := none },
    scb := { st := .idle, queue := [], full := none, fail := 0, careUe := [] },
    trg := { st := .idle, seq := 0, stopped := false, armAt := none, taken := 0, course := 0, prev := [], cur := [],
             havePrev := false, met := 0, waiting := false, win := 0, depth := 0, haltAt := none, landings := [], writes := [],
             raised := [], sent := none, fire := none, accepted := false, preAtFire := 0, dens := [], densN := 0, densOn := false, densFirst := 0, densK := 0,
             meas := [], frozen := false },
    trc := { hostQ := [], asm := [], ended := [], committed := [], ring := [], lastTime := 0, sinceSync := 0,
             syncTime := 0, syncDue := true, lostRun := 0, frac := 0, bref := true, flushing := none },
    pwr := { st := .p0, entry := none, entering := false, latched := none, waking := none, tclkWake := false,
             dieOff := 0, dieDead := 0, lost := false, smPtr := 0, sclHeld := false, nackNext := false, lateLog := false,
             asleep := false, boot := .off, thermal := none, aonHot := false, supplyLock := false,
             faultPin := false, replacePin := false, wakePin := false,
             kept := [], resuming := false, linksOpen := false },
    pins := { land := 0, landOn := 0, drv := 0, drvOn := 0, due := [], s0 := .quiet, s1 := .quiet, s2 := .quiet,
              taken := 0, pods := [], up := 0, dn := 0, padLev := 0, padOn := 0, padUp := 0, padDn := 0, padIn := 0, frozen := false, thaw := 0,
              held := [], pulling := false },
    jtag := { ir := 0x01, boundary := 0, capture := 0 },
    hlt := { soft := [], waiting := [], applied := false, retired := [], spares := [], ownSpare := [], replaced := false, above105 := false,
             tetherHot := false, coolSince := none, railWarn := 0, railFault := 0, slow := [], hot115 := 0, hotTwice := 0, clocksBad := false,
             dwell := false },
    fuses := { pavs := BitVec.allOnes 128, partPavs := 0x80, grade := 0x0A, stepping := 2, fwFloor := 0, shFloor := 0,
               dsFloor := 0, keyUse := 0xFF, keyRev := 0, keyVote := 0, keyHash := [], deviceId := 0, lms := 0, repairs := [],
               retired := [], procRef := 0 },
    out := [], free := 0, pending := [] }

end Sys2Proof.Machine
end

