-- ==== Sys2Proof/Machine/Regs.lean ====
section
/-! DEFINITION. The register file: which addresses hold a register, what each one holds at reset, which of its bits
software writes, and the named fields. A register's key is its BAR0 address; a register of a channel page has the key
0x4000_0000 + 0x1000 × channel + offset. The register tables stand in the chapters that own the blocks. -/

namespace Sys2Proof.Machine

/-- Base of PAV[p] (R542). -/
def pavA (p : Nat) : Nat := 0x400000 + 0x10000 * p
/-- Base of LNK[n] (R542). -/
def lnkA (n : Nat) : Nat := 0x100000 + 0x10000 * n
/-- Key of offset 0 of channel `c`'s page (R548). -/
def chnA (c : Nat) : Nat := 0x40000000 + 0x1000 * c
/-- Base of TRG.COND[c] (R436). -/
def condA (c : Nat) : Nat := 0x80100 + 0x20 * c
/-- Base of TRG.MEAS[u] (R437). -/
def measA (u : Nat) : Nat := 0x80400 + 0x40 * u

/-- The PAV block of an address, with the offset in it. -/
def pavOf (a : Nat) : Option (Nat × Nat) :=
  if 0x400000 ≤ a ∧ a < 0xC00000 then some ((a - 0x400000) / 0x10000, a % 0x10000) else none
/-- The LNK block of an address, with the offset in it. -/
def lnkOf (a : Nat) : Option (Nat × Nat) :=
  if 0x100000 ≤ a ∧ a < 0x180000 then some ((a - 0x100000) / 0x10000, a % 0x10000) else none
/-- The channel page of a key, with the offset in it. -/
def chnOf (a : Nat) : Option (Nat × Nat) :=
  if 0x40000000 ≤ a ∧ a < 0x42000000 then some ((a - 0x40000000) / 0x1000, a % 0x1000) else none

/-- The MSI-X table entry of a key (R283, R284): its function, its vector, and the offset in the entry. A register of a
VF's BAR0 has the key 0x5000_0000 + 0x1_0000 × function + offset. -/
def msixOf (a : Nat) : Option (Nat × Nat × Nat) :=
  if 0xA8000 ≤ a ∧ a < 0xAC200 then some (0, (a - 0xA8000) / 16, a % 16)
  else if 0x50010000 ≤ a ∧ a < 0x50200000 ∧ a % 0x10000 < 0x200 then
    some ((a - 0x50000000) / 0x10000, a % 0x10000 / 16, a % 16)
  else none

/-- `a` is `b + step × i` for some `i < n`. -/
def inRow (a b step n : Nat) : Bool := decide (b ≤ a ∧ a < b + step * n) && (a - b) % step == 0

/-- Reset values that are not zero (R8); fields whose reset is "fuse" or "img" are computed when read. -/
def regReset (a : Nat) : Word :=
  if a = 0xB0008 then 1                                    -- COX.STEP_COUNT (R97)
  else if a = 0xB0050 then 0x0404                          -- COX.REACH (R102)
  else if a = 0xB0054 then 0x0810                          -- COX.THROTTLE (R103)
  else if a = 0xB0060 then 0x0804                          -- COX.TETHER (R220)
  else if a = 0xB0088 then 0x2710                          -- COX.LINK_TIMEOUT (R245)
  else if a = 0x60000 then 0x4000                          -- SCB.CFG_RATE (R406)
  else if a = 0x60100 then 0x0400                          -- SCB.MEM_BANK_RATE (R201)
  else if a = 0x60104 then 0x4000                          -- SCB.MEM_DEEP_RATE (R201)
  else if a = 0xA000C then 2                               -- HIF.TIMED (R316)
  else if a = 0x90018 then 0x03E8                          -- DSP.LOAD_WINDOW (R345)
  else if a = 0x90038 ∨ a = 0x90058 then 0x0A              -- DSP.REC_CFG, RPL_CFG (R347)
  else if a = 0x80014 then 0x400                           -- TRG.CAP_DEPTH (R432)
  else if a = 0x80030 then 0x000A000A                      -- TRG.DENS_CFG (R434)
  else if a = 0x70000 then 8                               -- TRC.CTRL (R454)
  else if a = 0x70020 then 0x10                            -- TRC.HOST_CFG (R457)
  else if a = 0x2000C then 0xF                             -- PWR.WAKE_EN (R480)
  else if a = 0x20018 then 0x0A                            -- PWR.CFG (R482)
  else if inRow a 0x20040 4 4 then 0x32                    -- PWR.SEQ[0–3] (R486)
  else if inRow a 0x20050 4 4 then 0x64
  else if inRow a 0x20060 4 4 then 0x14
  else if inRow a 0x20070 4 4 then 0x0A
  else if inRow a 0x200040 4 16 then 0x10                  -- TIO.BANK_CFG (R516)
  else if a = 0x200204 then 3                              -- TIO.TCLK_CFG (R519)
  else if a = 0x30604 then 0xFF                            -- HLT.ALERT_EN (R536)
  else if a = 0x30320 then 0x2A8                           -- HLT.ICORE_LIMIT (R539)
  else match lnkOf a with
  | some (_, 0x0) => 1                                     -- LNK.CTRL (R272)
  | some (_, 0x4) => 0x00F80000                            -- LNK.STATUS (R273)
  | some (_, 0x10) => 0x2840                               -- LNK.CFG (R276)
  | _ => match pavOf a with
    | some (_, o) => if inRow o 0x620 4 4 then 0xAAAAAAAA else 0   -- PAV.BANK_PWR: every bank off (R191, R195)
    | none => match msixOf a with
      | some (_, _, 12) => 1                               -- MSI-X vector control: masked (PRESUMED, notes/assumptions/66.md)
      | _ => 0

/-- Low-word addresses of the 48-bit counters (R532). -/
def isCtr (a : Nat) : Bool :=
  a == 0x24 || a == 0x10040 || a == 0x20080 || inRow a 0x60020 8 5 || inRow a 0x700C0 8 4 || inRow a 0x80048 8 3 ||
  inRow a 0x80118 0x20 16 || inRow a 0x80418 0x40 32 || inRow a 0x90080 8 3 || inRow a 0x90200 8 48 ||
  inRow a 0xA0040 8 5 || inRow a 0xB0020 8 6 || a == 0xB0068 || inRow a 0xC0010 8 4 || a == 0x200210 ||
  (match lnkOf a with
   | some (_, o) => inRow o 0x140 8 17 || inRow o 0x200 8 5
   | none => false) ||
  (match pavOf a with
   | some (_, o) => o == 0x200 || o == 0x208 || o == 0x218 || o == 0x300 || inRow o 0x510 8 8 || inRow o 0x560 8 6 ||
       inRow o 0x600 8 3 || o == 0x700
   | none => false)

/-- Low-word addresses of the 64-bit registers in the layout of R99 whose low word snapshots the high word. -/
def isWide (a : Nat) : Bool :=
  a == 0xB0010 || a == 0xB0018 || a == 0x70008 || a == 0x50010 || a == 0x50034 || a == 0x40044 || a == 0x80024 ||
  inRow a 0x80420 0x40 32 || inRow a 0x80428 0x40 32

/-- Bits that a plain register write sets (RW, R6). Registers whose write has a further effect are written through
their own operation, which uses this mask too. -/
def rwMask (a : Nat) : Word :=
  if a = 0x200 ∨ a = 0x208 then 1                          -- BP_POLICY, CHECK_POLICY
  else if a = 0x204 then 3                                 -- NET_POLICY
  else if a = 0x400 then 3                                 -- BANK_PAGE
  else if inRow a 0x10010 4 8 then 0xFFFFFFFF              -- MBX.ARG
  else if a = 0x2000C then 0xF
  else if a = 0x20018 then 0xFF
  else if a = 0x2001C then 0x100                           -- PWR.SMBUS.pec_req
  else if inRow a 0x20040 4 16 then 0xFFFF
  else if a = 0x30604 then 0xFF
  else if a = 0x30320 then 0xFFF
  else if a = 0x60000 ∨ a = 0x60100 ∨ a = 0x60104 then 0xFFFF
  else if a = 0x70000 then 0xF
  else if a = 0x70018 then 0xFFFFFFFF
  else if a = 0x7001C then 0xFFFFFFFF
  else if a = 0x70020 then 0x1F
  else if a = 0x70024 then 0x3FFFFFF8
  else if inRow a 0x70040 4 8 ∨ inRow a 0x70080 4 8 then 0xFFFFFFFF
  else if a = 0x8000C ∨ a = 0x80010 then 0xFFFFFFFF        -- TIMEOUT, CAP_WIN
  else if a = 0x80014 then 0x1FFFF
  else if a = 0x80018 then 0x7F
  else if a = 0x80030 then 0x801F001F
  else if a = 0x80034 then 0xFFFFFFFF
  else if a = 0x80038 then 0xFFFFFFFF
  else if a = 0x8003C then 0xFFFF
  else if 0x80100 ≤ a ∧ a < 0x80300 then
    (match a % 0x20 with
     | 0x0 => 0xFEFFF800
     | 0x4 => 0x007F0FFF
     | 0x8 | 0xC | 0x10 | 0x14 => 0xFFFFFFFF
     | _ => 0)
  else if inRow a 0x80400 0x40 32 then 0xC07F013F
  else if a = 0x90000 then 1
  else if a = 0x90008 then 0xFFF
  else if a = 0x9000C then 0x80001FFF
  else if a = 0x90018 then 0xFFFF
  else if a = 0x90030 ∨ a = 0x90050 ∨ a = 0x90034 ∨ a = 0x90054 then 0xFFFFFFFF
  else if a = 0x90038 then 0xC000001F
  else if a = 0x90058 then 0x8000001F
  else if a = 0x9003C ∨ a = 0x9005C then 0xFFFFF           -- REC_HEAD, RPL_TAIL
  else if a = 0xA0000 then 0x1FFF
  else if a = 0xA0004 then 0xFFF0FF00
  else if a = 0xA0008 then 0x1FFF
  else if a = 0xA000C then 3
  else if a = 0xB0008 then 0xFFFFFFFF
  else if a = 0xB0054 then 0x1F00
  else if a = 0xB0060 then 7
  else if a = 0xB0088 then 0xFFFF
  else if a = 0xC0000 then 3
  else if inRow a 0x200040 4 16 then 0x1F
  else if a = 0x200200 then 0xFFFF
  else if a = 0x200204 then 0xF
  else match lnkOf a with
  | some (_, 0x0) => 3
  | some (_, 0x10) => 0xFFFF
  | some (_, 0x100) => 0xFC
  | some (_, 0x104) => 0xFFFC0000
  | _ => match pavOf a with
    | some (_, 0x214) => 0x8FFFFFFF
    | _ => match chnOf a with
      | some (_, 0x0) | some (_, 0x4) => 0xFFFF
      | some (_, 0x10) | some (_, 0x14) | some (_, 0x18) | some (_, 0x1C) => 0xFFFFFFFF
      | some (_, 0x20) => 0x9F1F07FF
      | _ => match msixOf a with
        | some (_, _, 0) => 0xFFFFFFFC
        | some (_, _, 12) => 1
        | some (_, _, k) => if k = 4 ∨ k = 8 then 0xFFFFFFFF else 0
        | none => 0

/-- Bits cleared by writing 1 that stand alone (W1C, R6). -/
def w1cMask (a : Nat) : Word :=
  if a = 0x30600 then 0xFF
  else if a = 0x70004 then 0xA0000000
  else if a = 0x80008 then 0xFFFF
  else if a = 0x90008 ∨ a = 0xA0000 then 0x80000000
  else if inRow a 0x200100 4 16 ∨ inRow a 0x200180 4 16 then 0xFFFFFFFF
  else if a = 0x200200 then 0x20000000
  else 0

/-- Record registers whose bit 31 (valid, W1C) clears the register: the registers that a clear empties. -/
def validGroup (a : Nat) : List Nat :=
  if a = 0xC0030 then [0xC0030, 0xC0034]                   -- DMEM.ERR_LAST, ERR_ADDR (R199)
  else if a = 0x60010 then [0x60010, 0x60014]              -- SCB.ERR_LAST, ERR_ADDR (R409)
  else match pavOf a with
  | some (_, 0x210) => [a]                                 -- SCHED_ERR_LAST (R48)
  | some (_, 0x308) => [a, a + 4]                          -- WIRE_LAST, WIRE_LAST_DRV (R72)
  | some (_, 0x504) => [a, a + 4]                          -- NET_LAST, NET_LAST_TAG (R133)
  | some (_, 0x618) => [a]                                 -- BANK_ERR_LAST (R194)
  | some (_, 0x708) => [a]                                 -- ALLOC_LAST (R166)
  | _ => []

/-- Bits of a register that clear when it is read (RC, R6). -/
def rcMask (a : Nat) : Word :=
  if a = 0xB0064 then 0xFFFF0000                           -- TCLK_PERIOD.shortest (R221)
  else if a = 0xA0010 then 0x7FFF0000                      -- HIF.TAGS.high (R317)
  else if a = 0x90014 ∨ inRow a 0x90020 4 3 then 0x7FFF0000 -- DSP.MATCH, READY peak (R344)
  else if inRow a 0xC0040 4 16 then 0xFFFF                 -- DMEM.LAT_MAX (R200)
  else 0

/-- The stored value of a register. -/
def reg (s : State) (a : Nat) : Word := look (regReset a) s.regs a

/-- Stores a register. -/
def setReg (a : Nat) (v : Word) (s : State) : State := { s with regs := upd (regReset a) s.regs a v }

/-- A named field of a register. -/
structure Fld where
  a  : Nat
  lo : Nat
  w  : Nat
  deriving DecidableEq, Repr

/-- The value of a field. -/
def fld (s : State) (f : Fld) : Nat := bits (reg s f.a) f.lo f.w

/-- A one-bit field. -/
def flag (s : State) (f : Fld) : Bool := fld s f != 0

/-- Stores a field. -/
def setFld (f : Fld) (v : Nat) (s : State) : State := setReg f.a (put (reg s f.a) f.lo f.w v) s

/-- Stores a one-bit field. -/
def setFlag (f : Fld) (b : Bool) (s : State) : State := setFld f b.toNat s

/-- A 64-bit register of `wide`. -/
def wideReg (s : State) (a : Nat) : BitVec 64 := look 0 s.wide a

/-- Stores a 64-bit register. -/
def setWide (a : Nat) (v : BitVec 64) (s : State) : State := { s with wide := upd 0 s.wide a v }

/-- COX.COURSE (R76). -/
def course (s : State) : Nat := (wideReg s 0xB0010).toNat
/-- COX.WALL (R76). -/
def wall (s : State) : Nat := (wideReg s 0xB0018).toNat
/-- TRC.TIME (R439). -/
def trcTime (s : State) : Nat := (wideReg s 0x70008).toNat
/-- Sets COX.COURSE. -/
def setCourse (n : Nat) (s : State) : State := setWide 0xB0010 (BitVec.ofNat 64 n) s
/-- Advances COX.WALL. -/
def addWall (n : Nat) (s : State) : State := setWide 0xB0018 (BitVec.ofNat 64 (wall s + n)) s

/-! Named fields. -/

def fPostDone : Fld := ⟨0x10, 28, 1⟩
def fPostFail : Fld := ⟨0x10, 27, 1⟩
def fEvNext : Fld := ⟨0x20, 0, 8⟩
def fEvWrapped : Fld := ⟨0x20, 31, 1⟩
def fPosition : Fld := ⟨0x100, 8, 4⟩
def fPackages : Fld := ⟨0x100, 4, 4⟩
def fTrapHalt : Fld := ⟨0x200, 0, 1⟩
def fCollHalt : Fld := ⟨0x204, 0, 1⟩
def fSkewHalt : Fld := ⟨0x204, 1, 1⟩
def fAllocHalt : Fld := ⟨0x208, 0, 1⟩
def fModeAt : Fld := ⟨0x304, 0, 32⟩
def fBankPage : Fld := ⟨0x400, 0, 2⟩
def fMbxCmd : Fld := ⟨0x10004, 16, 8⟩
def fMbxSeq : Fld := ⟨0x10004, 8, 8⟩
def fMbxCode : Fld := ⟨0x10004, 0, 8⟩
def fMbxStep : Fld := ⟨0x10008, 16, 16⟩
def fMbxPct : Fld := ⟨0x10008, 0, 7⟩
def fPwrPrev : Fld := ⟨0x20000, 28, 2⟩
def fPwrSrc : Fld := ⟨0x20000, 24, 4⟩
def fPwrLatched : Fld := ⟨0x20000, 22, 1⟩
def fPwrResume : Fld := ⟨0x20000, 21, 1⟩
def fPwrFailed : Fld := ⟨0x20000, 20, 1⟩
def fDomIod : Fld := ⟨0x20004, 30, 2⟩
def fDomPcie : Fld := ⟨0x20004, 28, 2⟩
def fDomDmem : Fld := ⟨0x20004, 26, 2⟩
def fDomNet (n : Nat) : Fld := ⟨0x20004, 18 + 2 * n, 2⟩
def fDomDie (n : Nat) : Fld := ⟨0x20004, 10 + 2 * n, 2⟩
def fDomStore (n : Nat) : Fld := ⟨0x20004, 2 + 2 * n, 2⟩
def fDomLnk (n : Nat) : Fld := ⟨0x20008, 2 * n, 2⟩
def fPadLatched : Fld := ⟨0x20010, 0, 16⟩
def fKeeperIdle : Fld := ⟨0x20018, 0, 8⟩
def fPecReq : Fld := ⟨0x2001C, 8, 1⟩
def fWakeUs : Fld := ⟨0x20020, 0, 32⟩
def fCfgLast : Fld := ⟨0x50000, 16, 8⟩
def fCheck : Fld := ⟨0x50004, 24, 8⟩
def fCheckDetail : Fld := ⟨0x50004, 16, 8⟩
def fCheckAddr : Fld := ⟨0x50008, 0, 32⟩
def fDmemUeCont : Fld := ⟨0xC0000, 0, 1⟩
def fDmemLateHalt : Fld := ⟨0xC0000, 1, 1⟩
def fDmemInit : Fld := ⟨0xC0004, 31, 1⟩
def fStackOk : Fld := ⟨0xC0004, 0, 4⟩
def fReachUp : Fld := ⟨0xB0050, 0, 8⟩
def fReachDown : Fld := ⟨0xB0050, 8, 8⟩
def fThrFloor : Fld := ⟨0xB0054, 8, 5⟩
def fThrLevel : Fld := ⟨0xB0054, 0, 5⟩
def fThrPending : Fld := ⟨0xB0054, 31, 1⟩
def fHaltCause : Fld := ⟨0xB0004, 24, 4⟩
def fStepCount : Fld := ⟨0xB0008, 0, 32⟩
def fTclkSeen : Fld := ⟨0xB0060, 31, 1⟩
def fHaltPins : Fld := ⟨0xB0060, 2, 1⟩
def fOverrunHalt : Fld := ⟨0xB0060, 1, 1⟩
def fTclkEdge : Fld := ⟨0xB0060, 0, 1⟩
def fTclkShort : Fld := ⟨0xB0064, 16, 16⟩
def fTclkLast : Fld := ⟨0xB0064, 0, 16⟩
def fGrantBal : Fld := ⟨0xB0074, 0, 32⟩
def fBoardMaster : Fld := ⟨0xB0080, 24, 4⟩
def fBoardCols : Fld := ⟨0xB0080, 21, 3⟩
def fBoardRows : Fld := ⟨0xB0080, 18, 3⟩
def fIsolated : Fld := ⟨0xB0080, 17, 1⟩
def fBoardRate : Fld := ⟨0xB0080, 8, 8⟩
def fStretch : Fld := ⟨0xB0084, 0, 8⟩
def fPortsActive : Fld := ⟨0xB008C, 8, 8⟩
def fPortsExpected : Fld := ⟨0xB008C, 0, 8⟩
def fTrcEnable : Fld := ⟨0x70000, 0, 1⟩
def fTrcSink : Fld := ⟨0x70000, 1, 2⟩
def fTrcWrap : Fld := ⟨0x70000, 3, 1⟩
def fTrcFlushDone : Fld := ⟨0x70004, 31, 1⟩
def fTrcStopped : Fld := ⟨0x70004, 30, 1⟩
def fTrcDmaErr : Fld := ⟨0x70004, 29, 1⟩
def fTrcWrapped : Fld := ⟨0x70010, 31, 1⟩
def fTrcOff : Fld := ⟨0x70010, 0, 16⟩
def fTrcLog2 : Fld := ⟨0x70020, 0, 5⟩
def fAlert : Fld := ⟨0x30600, 0, 8⟩
def fAlertEn : Fld := ⟨0x30604, 0, 8⟩

end Sys2Proof.Machine
end

