-- ==== Sys2Proof/Machine/Ops.lean ====
section
/-! DEFINITION. The operations that many commands share: the place in the run, pavilions, counters (R532), trace
commits (R440, R450), the event log (R533), alerts (R536) and halts (R81). -/

namespace Sys2Proof.Machine

/-- The outcome type of every meaning. -/
abbrev Res := Host.Outcome State Fault Refusal

/-- A command whose step can occur only when `c` holds; otherwise nothing happens (notes/assumptions/1.md). -/
def whenever (c : Bool) (s t : State) : Res := if c then .next t else .next s

/-- A command whose operand names a unit; a unit that does not exist is a fault. -/
def forUnit (c : Bool) (r : Res) : Res := if c then r else .fault .noSuchUnit

/-- Applies a change if a condition holds. -/
def iff (c : Bool) (f : State → State) (s : State) : State := if c then f s else s

/-- Appends to what the package emits. -/
def emit (o : Out) (s : State) : State := { s with out := s.out ++ [o] }

/-! Interrupts (R284). -/

/-- Number of a function's vector among the 2,048 (R284). -/
def msixIndex (fn vec : Nat) : Nat := if fn = 0 then vec else 1056 + 32 * (fn - 1) + vec

/-- The key of the vector control word of a vector's table entry. -/
def msixCtl (fn vec : Nat) : Nat := (if fn = 0 then 0xA8000 else 0x50000000 + 0x10000 * fn) + 16 * vec + 12

/-- The vector is masked in its table entry (PRESUMED, notes/assumptions/66.md). -/
def msixMasked (s : State) (fn vec : Nat) : Bool := (reg s (msixCtl fn vec)).getLsbD 0

/-- A vector is signalled: its message goes out, or its pending bit is set while it is masked (R284). -/
def interrupt (fn : Nat) (vec : BitVec 11) (s : State) : State :=
  if msixMasked s fn vec.toNat then
    { s with hif := { s.hif with msix := putBit s.hif.msix (msixIndex fn vec.toNat) true } }
  else emit (.msix (BitVec.ofNat 5 fn) vec) s

/-! The place in the run. -/

/-- Absolute stroke index: course × L + stroke. -/
def gOf (s : State) : Nat := course s * s.cox.length + s.cox.stroke

/-- The package has power: every step of the part but POWER_ON needs it (R16). -/
def powered (s : State) : Bool := s.pwr.boot != .off

/-- The package stands in P0 or P1 with no entry and no wake in progress. -/
def upState (s : State) : Bool :=
  (s.pwr.st == .p0 || s.pwr.st == .p1) && !s.pwr.entering && s.pwr.waking.isNone

/-- The host can reach the registers: IOD and the PCIE domain are up (R461, R466). -/
def hostUp (s : State) : Bool := upState s && s.pwr.boot != .supply && s.pwr.boot != .off

/-- The controller is in RUN and a stroke is in progress. -/
def running (s : State) : Bool := s.cox.st == .run

/-- Course strokes retire or an Easy is in progress. -/
def inCourse (s : State) : Bool := s.cox.st == .run || s.cox.st == .easy

/-- Slots and VN0 lanes hold two bits per value: FLEET and FOURSTATE (R34, R112). -/
def twoBit (s : State) : Bool := s.cox.mode == .fleet || s.cox.mode == .fourstate

/-- FOURSTATE is in force. -/
def fourState (s : State) : Bool := s.cox.mode == .fourstate

/-- FLEET is in force. -/
def fleet (s : State) : Bool := s.cox.mode == .fleet

/-- Instances of the mode: 2 in FLEET, 1 otherwise (R15). -/
def instances (s : State) : Nat := if fleet s then 2 else 1

/-- Mode code of R15. -/
def Mode.code : Mode → Nat
  | .service => 0 | .capacity => 1 | .fleet => 2 | .fourstate => 3 | .comodel => 4 | .tethered => 5

/-- The mode of a code. -/
def modeOf : Nat → Option Mode
  | 0 => some .service | 1 => some .capacity | 2 => some .fleet | 3 => some .fourstate | 4 => some .comodel
  | 5 => some .tethered | _ => none

/-! Pavilions (R12). -/

/-- Row of a pavilion. -/
def rowOf (p : Nat) : Nat := p / 16
/-- Column of a pavilion. -/
def colOf (p : Nat) : Nat := p % 16
/-- Compute die of a pavilion. -/
def dieOf (p : Nat) : Nat := rowOf p / 4 * 2 + colOf p / 8
/-- Terrace of a pavilion. -/
def terraceOf (p : Nat) : Nat := dieOf p * 4 + rowOf p % 4
/-- Global index of a BP. -/
def bpIndex (p c b : Nat) : Nat := p * 1024 + c * 16 + b
/-- All pavilion numbers. -/
def allPavs : List Nat := List.range 128
/-- Pavilions of a die. -/
def pavsOfDie (d : Nat) : List Nat := allPavs.filter fun p => dieOf p == d

/-- The pavilion is enabled: neither disabled by the part number nor retired (R12, R524). -/
def enabled (s : State) (p : Nat) : Bool :=
  s.fuses.pavs.getLsbD p && !s.fuses.retired.contains p && !s.hlt.retired.contains p

/-- Local-port state of a pavilion (R126): DEAD where the pavilion is not enabled. -/
def portState (s : State) (p : Nat) : NetState :=
  if enabled s p then look .live s.net.ports p else .dead

/-- Sets the local-port state of an enabled pavilion. -/
def setPort (p : Nat) (st : NetState) (s : State) : State :=
  { s with net := { s.net with ports := upd .live s.net.ports p st } }

/-- Board position of this package (GLB.PART.position). -/
def position (s : State) : Nat := fld s fPosition

/-- This package is the course master (R96, R234). -/
def isMaster (s : State) : Bool := s.cox.board == .none || fld s fBoardMaster == position s

/-- The board of several packages is formed. -/
def onBoard (s : State) : Bool := s.cox.board == .formed

/-! Counters (R532). -/

/-- The count of a 48-bit counter. -/
def ctr (s : State) (a : Nat) : Nat := bits (look 0 s.ctrs a) 0 48

/-- Adds to a 48-bit counter: it sticks at its maximum, sets sat, and its COUNTER_SAT is due. -/
def bump (a n : Nat) (s : State) : State :=
  let c := look 0 s.ctrs a
  let v := stick (2 ^ 48 - 1) (bits c 0 48) n
  let full := v == 2 ^ 48 - 1
  let new := BitVec.ofNat 49 (v + if full || c.getLsbD 48 then 2 ^ 48 else 0)
  let s' := { s with ctrs := upd 0 s.ctrs a new }
  if full && bits c 0 48 != 2 ^ 48 - 1 then { s' with satDue := s'.satDue ++ [a] } else s'

/-! Trace commits. -/

/-- Rank of packets committed in the same tick (R450). -/
def pktRank (p : TracePacket) : Nat :=
  if p.type = 0x01 then 1 else if p.type = 0x02 then 2 else if p.type = 0x10 then 3 else if p.type = 0x20 then 4
  else 5 + p.source.toNat * 2 + bits p.flags 1 1

/-- Places a packet in the committed stream, in the order of R450 among those of its tick. -/
def insPkt (p : TracePacket) : List TracePacket → List TracePacket
  | [] => [p]
  | q :: qs => if q.time == p.time && decide (pktRank p < pktRank q) then p :: q :: qs else q :: insPkt p qs

/-- Trace commits packets: enabled, with a sink; a host ring of a size that R457 excludes is none (R447). -/
def tracing (s : State) : Bool :=
  flag s fTrcEnable &&
    (fld s fTrcSink == 1 || (fld s fTrcSink == 2 && decide (16 ≤ fld s fTrcLog2 ∧ fld s fTrcLog2 ≤ 30)))

/-- Commits a packet to the stream (R440). -/
def commit (type flags source : BitVec 8) (words : List (BitVec 64)) (s : State) : State :=
  if tracing s then
    let p : TracePacket :=
      { type := type, flags := flags, source := source, words := words, time := wideReg s 0x70008,
        course := wideReg s 0xB0010 }
    { s with trc := { s.trc with committed := insPkt p s.trc.committed } }
  else s

/-- An installed token has rights bit `i` (R357). -/
def tokenRight (s : State) (i : Nat) : Bool :=
  match s.ldr.token with
  | some r => r.getLsbD i
  | none => false

/-- Commits a packet of secure code, or counts it in TRC.SUPPRESSED (R443). -/
def commitSecure (flags : BitVec 8) (words : List (BitVec 64)) (s : State) : State :=
  if tokenRight s 0 then commit 0x10 flags 0 words s
  else if tracing s then bump 0x700C8 1 s else s

/-- Commits a KEEPER packet of class SECURE (R442). -/
def secureStep (stage code : Nat) (s : State) : State := commitSecure 3 [BitVec.ofNat 64 (stage + code * 2 ^ 16)] s

/-- State code of R376. -/
def LdState.code : LdState → Nat
  | .idle => 0 | .manifest => 1 | .table => 2 | .verify => 3 | .quiesce => 4 | .wake => 5 | .write => 6 | .store => 7
  | .recover => 8

/-- The state of a long operation shows in MBX.PROGRESS, with its STEP packet (R310, R442). The spec states no percent
for any state: it is a free value below 101 (notes/assumptions/7.md). -/
def showStep (st : Nat) (s : State) : State :=
  let pct := (Config.freeWord s.free).toNat % 101
  let s1 := setFld fMbxStep st (setFld fMbxPct pct { s with free := s.free + 1 })
  if fld s fMbxStep = st ∧ fld s fMbxPct = pct then s1
  else commit 0x10 2 0 [BitVec.ofNat 64 (fld s1 fMbxCmd + st * 2 ^ 8 + pct * 2 ^ 24)] s1

/-- The loader is in a state (R376): CFG.STATUS and MBX.PROGRESS show it. -/
def toLoader (st : LdState) (s : State) : State := showStep st.code { s with ldr := { s.ldr with st := st } }

/-! The event log. -/

/-- Writes an entry at position `pos`, moving the last `m` entries with a greater key up by one (R533). -/
def evPlace : Nat → Nat → BitVec 128 → Sparse (BitVec 128) → Sparse (BitVec 128)
  | 0, pos, e, m => upd 0 m pos e
  | k + 1, pos, e, m =>
    let q := (pos + 255) % 256
    let x := look 0 m q
    if evKey e < evKey x then evPlace k q e (upd 0 m pos x) else upd 0 m pos e

/-- Logs one event: the entry, the pointer, the wrapped flag and GLB.EVLOG_OVER, and its EVENT packet (R442). -/
def log0 (code loc detail : Nat) (s : State) : State :=
  let e := evEntry code loc detail s.cox.stroke (course s)
  let n := fld s fEvNext
  let m := if running s && s.evTick == s.cox.ticks then min 255 s.evIn else 0
  let s1 := iff (flag s fEvWrapped) (bump 0x24 1) s
  let s2 := { s1 with evlog := evPlace m n e s1.evlog, evTick := s.cox.ticks, evIn := m + 1 }
  let s3 := setFld fEvNext (n + 1) s2
  let s4 := iff (n == 255) (setFlag fEvWrapped true) s3
  let ws := [e.extractLsb' 0 64, e.extractLsb' 64 64]
  if evSecure code then commitSecure 0 ws s4 else commit 0x10 0 0 ws s4

/-- Logs the COUNTER_SAT of every counter that has just stuck (R532). -/
def settle : Nat → State → State
  | 0, s => s
  | k + 1, s =>
    match s.satDue with
    | [] => s
    | a :: r => settle k (log0 evCounterSat (locAddr a false) a { s with satDue := r })

/-- Logs an event (R533). -/
def logEvent (code loc detail : Nat) (s : State) : State := settle 4 (log0 code loc detail s)

/-- Counts events in a 48-bit counter (R532). -/
def countN (a n : Nat) (s : State) : State := settle 4 (bump a n s)

/-- Counts one event. -/
def count (a : Nat) (s : State) : State := countN a 1 s

/-- Does `f` unless `(kind, unit)` is already marked in this course. -/
def oncePerCourse (kind unit : Nat) (f : State → State) (s : State) : State :=
  if s.fab.marks.contains (kind, unit) then s
  else f { s with fab := { s.fab with marks := (kind, unit) :: s.fab.marks } }

/-- Records the first occurrence in a register whose bit 31 is valid. -/
def recordFirst (a : Nat) (v : Word) (s : State) : State :=
  if (reg s a).getLsbD 31 then s else setReg a v s

/-- Sets bits of HLT.ALERT (R536): 0 temp_high, 1 temp_limit, 2 volt_warn, 3 supply_fault, 4 sensor_bad, 5 post_fail,
6 replace, 7 process_slow. -/
def alert (i : Nat) (s : State) : State := setReg 0x30600 (reg s 0x30600 ||| BitVec.ofNat 32 (2 ^ i)) s

/-! Halts. -/

/-- Halt causes (R96). -/
def hcCommand : Nat := 1
def hcStepDone : Nat := 2
def hcConfigUe : Nat := 3
def hcTrap : Nat := 4
def hcPoison : Nat := 5
def hcLinkLost : Nat := 6
def hcEasyMiss : Nat := 7
def hcThermal : Nat := 8
def hcOther : Nat := 15

/-- The stroke in which a halt is raised: the stroke in progress, or in Easy the stroke before the stop (R90). -/
def raiseAt (s : State) : Nat := if s.cox.st == .easy then gOf s - 1 else gOf s

/-- The first course that a halt raised at absolute stroke `g` keeps from running (R81). -/
def haltBefore (s : State) (g : Nat) : Nat :=
  let l := s.cox.length
  if g % l + fld s fReachUp + fld s fReachDown + 1 ≤ l then g / l + 1 else g / l + 2

/-- Adds a halt that is raised and not yet in effect. -/
def addHalt (h : HaltReq) (s : State) : State :=
  if s.cox.halts.contains h then s else { s with cox := { s.cox with halts := s.cox.halts ++ [h] } }

/-- Raises a halt per R81 with a cause; on a formed board the HALT message goes on the cox line (R84). In WAIT the
stroke of raise is stroke 0 of the waiting course (R398; notes/assumptions/16.md). -/
def raiseHalt (cause : Nat) (s : State) : State :=
  if inCourse s || s.cox.st == .wait then
    let g := raiseAt s
    let b := haltBefore s g
    let h : HaltReq := { cause := BitVec.ofNat 4 cause, before := b, raised := g }
    let m : CoxMsg :=
      { origin := BitVec.ofNat 4 (position s), cause := BitVec.ofNat 4 cause,
        stroke := BitVec.ofNat 10 (g % s.cox.length), opn := false, len := 0, course := BitVec.ofNat 64 b, value := 0 }
    iff (onBoard s && !s.cox.halts.contains h) (emit (.cox 5 m)) (addHalt h s)
  else s

/-- The least message of the cox line from this package. -/
def coxMsg (s : State) : CoxMsg :=
  { origin := BitVec.ofNat 4 (position s), cause := 0, stroke := 0, opn := false, len := 0, course := 0, value := 0 }

/-- A ring base held in two registers in the layout of R320. DESIGN CHOICE (notes/assumptions/90.md): bits [11:0], which must
be 0, act as 0. -/
def ringBase (s : State) (a : Nat) : BitVec 64 := put (reg s (a + 4) ++ reg s a : BitVec 64) 0 12 0

/-- Draws a number for a free value. -/
def draw (s : State) : State := { s with free := s.free + 1 }

end Sys2Proof.Machine
end

