-- ==== Sys2Proof/Machine/Image.lean ====
section
/-! DEFINITION. Reading the loaded image: frame keys (R364), schedule words (R21), initial slots (R29), routes (R113,
R116, R124), reservation maps (R117), descriptors (R169), the care map (R397), pin maps (R498), wire policies (R66),
allocations (R149), regions and release stages (R378). -/

namespace Sys2Proof.Machine

/-- A frame address less its seven low bits (R364). -/
def frameKey (type pav crew bp part : Nat) : Nat := type * 2 ^ 21 + pav * 2 ^ 14 + crew * 2 ^ 8 + bp * 2 ^ 4 + part

/-- The key of the 64-bit word `w` of a frame in the configuration store. -/
def cfgKey (frame w : Nat) : Nat := frame * 512 + w

/-- The data of a configuration codeword, corrected if it can be (R41, R395). -/
def cfgData (s : State) (k : Nat) : Nat := (check72 (look 0 s.cfg k)).data

/-- Stores a configuration word with new check bits. -/
def setCfg (k : Nat) (d : BitVec 64) (s : State) : State := { s with cfg := upd 0 s.cfg k (encode72 d) }

/-- Key of a BP's schedule word at a stroke. -/
def schedKey (p c b st : Nat) : Nat := cfgKey (frameKey 1 p c b (st / 512)) (st % 512)

/-- Key of a data-store slot. -/
def slotKey (p c b j : Nat) : Nat := bpIndex p c b * 1024 + j

/-- The initial value of a slot from its type 2 frame, with upsets of a constant group (R29, R394). -/
def initSlot (s : State) (p c b j : Nat) : BitVec 2 :=
  let w := (look 0 s.cfg (cfgKey (frameKey 2 p c 0 0) (32 * b + j / 32))).extractLsb' (2 * (j % 32)) 2
  let m := (look 0 s.groups (bpIndex p c b * 64 + j / 16)).extractLsb' (2 * (j % 16)) 2
  w ^^^ m

/-- The bits stored in a slot (R28, R29): what was written last, else the initial value. -/
def cell (s : State) (p c b j : Nat) : BitVec 2 :=
  match find s.slots (slotKey p c b j) with
  | some v => v
  | none => initSlot s p c b j

/-- The read of values by mode (R34, R38, R39). -/
def valsOf (s : State) : Vals :=
  match s.cox.mode with
  | .fourstate => .four
  | .fleet => .pair
  | _ => .one

/-- A value as the mode reads it: in the one-value modes bit 1 reads 0 (R38). -/
def readVal (s : State) (v : BitVec 2) : BitVec 2 := if valsOf s == .one then v &&& 1 else v

/-- The contents of a slot as a read returns them (R28, R38). -/
def slot (s : State) (p c b j : Nat) : BitVec 2 := readVal s (cell s p c b j)

/-- Writes a slot. -/
def setSlot (p c b j : Nat) (v : BitVec 2) (s : State) : State :=
  { s with slots := ins s.slots (slotKey p c b j) v }

/-- The image in place. -/
def image (s : State) : Option Stream := s.ldr.image

/-- The header of the image in place. -/
def header (s : State) : Option Header := s.ldr.image.map (·.hdr)

/-- The image uses a pavilion (R146). -/
def usedPav (s : State) (p : Nat) : Bool :=
  match header s with
  | some h => h.usedPav.getLsbD p
  | none => false

/-- The region of a pavilion that the image declares (R148). -/
def regionOf (s : State) (p : Nat) : Option Nat :=
  match header s with
  | some h => (List.range 64).find? fun r => (look 0 h.regions r).getLsbD p
  | none => none

/-- Release stages in effect for a pavilion (R378, R379): its region's after a partial load, else the base image's. -/
def stageOf (s : State) (p : Nat) : Nat :=
  match regionOf s p with
  | some r => match find s.ldr.regions r with
    | some g => g.stage
    | none => s.ldr.stage
  | none => s.ldr.stage

/-- The allocation entry `i` of the image (R149); an absent one is zero. -/
def alloc (s : State) (i : Nat) : BitVec 64 :=
  match header s with
  | some h => look 0 h.allocs i
  | none => 0

/-- Memory-op descriptor `d` of a pavilion (R169). -/
def descriptor (s : State) (p d : Nat) : Nat := cfgData s (cfgKey (frameKey 5 p 0 0 15) d)

/-- A descriptor that is defined (R169). -/
def descOk (d : Nat) : Bool := decide (2 ^ 63 ≤ d ∧ d / 2 ^ 60 % 4 ≠ 3 ∧ d % 2 ^ 51 = 0)

/-- Entry of bank `b` in the bank power map of the image; a pavilion without a part 15 frame has every bank off (R191). -/
def bankMap (s : State) (p b : Nat) : Nat :=
  let key := frameKey 5 p 0 0 15
  if (image s).any fun x => x.frames.any fun f => f.addr.toNat / 128 == key then
    cfgData s (cfgKey key (64 + b / 32)) / 4 ^ (b % 32) % 4
  else 2

/-- State of a bank: 0 on, 1 retention, 2 off (R191, R195). -/
def bankState (s : State) (p b : Nat) : Nat := fld s ⟨pavA p + 0x620 + 4 * (b / 16), 2 * (b % 16), 2⟩

/-- Sets the state of a bank. -/
def setBank (p b st : Nat) (s : State) : State := setFld ⟨pavA p + 0x620 + 4 * (b / 16), 2 * (b % 16), 2⟩ st s

/-- A scheduled route entry (R113). -/
def sroute (s : State) (p e : Nat) : BitVec 64 :=
  BitVec.ofNat 64 (cfgData s (cfgKey (frameKey 4 p 0 0 (e / 512)) (e % 512)))

/-- A dynamic route entry (R124, R137); the table belongs to no frame, and its key uses type 0. -/
def droute (s : State) (p i : Nat) : BitVec 32 :=
  BitVec.ofNat 32 (cfgData s (cfgKey (frameKey 0 p 0 0 0) (i / 2)) / 2 ^ (32 * (i % 2)))

/-- Writes a dynamic route entry. -/
def setDroute (p i : Nat) (v : BitVec 32) (s : State) : State :=
  let k := cfgKey (frameKey 0 p 0 0 0) (i / 2)
  setCfg k (put (BitVec.ofNat 64 (cfgData s k)) (32 * (i % 2)) 32 v.toNat) s

/-- The gateway number of a pavilion (R106). -/
def gatewayOf (p : Nat) : Option Nat := [0, 16, 15, 31, 96, 112, 111, 127].idxOf? p

/-- The pavilion of a gateway (R106). -/
def gatewayPav (g : Nat) : Nat := [0, 16, 15, 31, 96, 112, 111, 127].getD g 0

/-- The legs of the dynamic route from pavilion `p` to pavilion `q`: first along the row, then along the column, over no
wraparound link (R110, R111). -/
def keeperLegs (p q : Nat) : Nat :=
  let leg := fun (a b fwd back : Nat) => if a = b then 0 else if a < b then fwd * 16 + (b - a) else back * 16 + (a - b)
  let row := leg (colOf p) (colOf q) 1 3
  let col := leg (rowOf p) (rowOf q) 2 0
  if row = 0 then col * 2 ^ 12 else row * 2 ^ 12 + col * 2 ^ 6

/-- An entry that the Keeper may write for pavilion `p`, index `i` (R110, R124): not in use, the route to pavilion `i`, or
a route out through a gateway. -/
def keeperRoute (p i : Nat) (e : BitVec 32) : Bool :=
  let goes := fun (q : Nat) => bits e 13 18 == keeperLegs p q
  !e.getLsbD 31 || (if i < 128 then !e.getLsbD 12 && goes i else e.getLsbD 12 && (List.range 8).any fun g => goes (gatewayPav g))

/-- The Keeper writes dynamic route entries, key pavilion × 256 + entry (R124, R137); it writes no other routes than those
of R110, and the reserved bits stay 0. -/
def setDroutes (ds : Sparse (BitVec 32)) (s : State) : State :=
  ds.foldl (fun x e =>
    if e.1 < 32768 ∧ keeperRoute (e.1 / 256) (e.1 % 256) e.2 then
      setDroute (e.1 / 256) (e.1 % 256) (e.2 &&& 0xFFFFF000) x
    else x) s

/-- A pavilion has left the enabled map: the Keeper's tables hold no route to it (R124). -/
def dropRoutesTo (p : Nat) (s : State) : State :=
  allPavs.foldl (fun x q => if (droute x q p).getLsbD 31 then setDroute q p 0 x else x) s

/-- An ingress entry of a gateway pavilion (R116, R138). -/
def ingress (s : State) (p n : Nat) : BitVec 32 :=
  BitVec.ofNat 32 (cfgData s (cfgKey (frameKey 4 p 0 0 (2 + n / 1024)) (n % 1024 / 2)) / 2 ^ (32 * (n % 2)))

/-- Byte `n` of a reservation map in a store (R117). -/
def mapByte (m : Sparse (BitVec 72)) (p n : Nat) : Nat :=
  (check72 (look 0 m (cfgKey (frameKey 3 p 0 0 0) (n / 8)))).data / 256 ^ (n % 8) % 256

/-- An output is reserved for VN0 in cycle `n` (R117). -/
def reserved (s : State) (p n k : Nat) : Bool := (mapByte s.cfg p n).testBit k

/-- A pin-map input entry (R498). -/
def pinIn (s : State) (p e : Nat) : Nat := cfgData s (cfgKey (frameKey 7 p 0 0 0) (e / 2)) / 2 ^ (32 * (e % 2)) % 2 ^ 32
/-- A pin-map output entry (R498). -/
def pinOut (s : State) (p e : Nat) : Nat :=
  cfgData s (cfgKey (frameKey 7 p 0 0 0) (32 + e / 2)) / 2 ^ (32 * (e % 2)) % 2 ^ 32

/-- The byte of a crew wire's policy (R66). -/
def wirePolicy (s : State) (p c w : Nat) : Nat := cfgData s (cfgKey (frameKey 9 p c 0 0) 0) / 256 ^ w % 256

/-- A frame that the image in place lists. -/
def listed (s : State) (frame : Nat) : Bool :=
  match image s with
  | some i => i.frames.any fun f => f.addr.toNat / 128 == frame
  | none => false

/-- Word of the care map that covers a schedule word (R397). -/
def careKey (p c b st : Nat) : Nat := cfgKey (frameKey 8 p c 0 0) (16 * b + st / 64)
/-- Word of the care map that covers a slot (R397). -/
def careSlotKey (p c b j : Nat) : Nat := cfgKey (frameKey 8 p c 0 0) (256 + 16 * b + j / 64)

/-- A care bit: the map's, 1 where its codeword is uncorrectable (R399), or the default of a crew with no frame
(R397). -/
def careBit (s : State) (p c k i : Nat) (dflt : Bool) : Bool :=
  let e := check72 (look 0 s.cfg k)
  if !usedPav s p then false
  else if e.cls == .bad then true
  else if listed s (frameKey 8 p c 0 0) then e.data.testBit i
  else dflt

/-- The schedule word of a BP at a stroke is care (R397). -/
def careWord (s : State) (p c b st : Nat) : Bool :=
  careBit s p c (careKey p c b st) (st % 64) (decide (st < s.cox.length))

/-- A slot is care (R397). -/
def careSlot (s : State) (p c b j : Nat) : Bool :=
  careBit s p c (careSlotKey p c b j) (j % 64) (decide (s.cox.length ≤ j))

/-- A data-store group is care if any of its slots is (R397). -/
def careGroup (s : State) (p c b g : Nat) : Bool :=
  (List.range 16).any fun i => careSlot s p c b (16 * g + i)

/-- Pin bank of a pin. -/
def bankOfPin (pin : Nat) : Nat := pin / 32

/-- State of a target bank (R496). -/
def podState (s : State) (b : Nat) : PodState := look .off s.pins.pods b

end Sys2Proof.Machine
end

