-- ==== Sys2Proof/Machine/Dir.lean ====
section
/-! DEFINITION. The NVM directory (R358 to R361, R370): valid copies, the copy in use, its entries, and updates. -/

namespace Sys2Proof.Machine

def fDir0 : Fld := ⟨0x50030, 31, 1⟩
def fDir1 : Fld := ⟨0x50030, 30, 1⟩
def fDirConflict : Fld := ⟨0x50030, 29, 1⟩
def fDirUse : Fld := ⟨0x50030, 28, 1⟩
def fDirRecovery : Fld := ⟨0x50030, 27, 1⟩

/-- Roles of directory entries (R358). -/
def roleFirmware : Nat := 1
def roleShell : Nat := 2
def roleCurrent : Nat := 3
def rolePrevious : Nat := 4
def rolePartial : Nat := 5

/-- Two entries overlap in flash (R359). -/
def overlap (a b : DirEntry) : Bool :=
  a.device == b.device && decide (a.offset.toNat < b.offset.toNat + b.length.toNat) &&
    decide (b.offset.toNat < a.offset.toNat + a.length.toNat)

/-- No two entries of a list overlap. -/
def noOverlap : List DirEntry → Bool
  | [] => true
  | e :: es => es.all (fun x => !overlap e x) && noOverlap es

/-- Entries of a role. -/
def ofRole (d : DirCopy) (r : Nat) : List DirEntry := d.entries.filter fun e => e.role.toNat == r

/-! The CRC-32C of a copy (R358): reflected Castagnoli polynomial, initial value and final XOR all ones. -/

/-- One bit of the CRC; also a multiplication by x. -/
def crcBit (c : BitVec 32) : BitVec 32 := if c.getLsbD 0 then c >>> 1 ^^^ 0x82F63B78 else c >>> 1

/-- One byte of the CRC. -/
def crcByte (c : BitVec 32) (b : BitVec 8) : BitVec 32 :=
  crcBit (crcBit (crcBit (crcBit (crcBit (crcBit (crcBit (crcBit (c ^^^ b.setWidth 32))))))))

/-- The product of two polynomials modulo the CRC's, bit 31 being the coefficient of 1. -/
def crcMul (a b : BitVec 32) : BitVec 32 :=
  ((List.range 32).foldl (fun (r, x) i => (if a.getLsbD (31 - i) then r ^^^ x else r, crcBit x)) ((0 : BitVec 32), b)).1

/-- The effect of `n` zero bytes, which multiply the CRC by x^8n: for each of the 12 bits of `n`, lowest first, the square
of the last factor. -/
def crcZeros (n : Nat) (c : BitVec 32) : BitVec 32 :=
  ((List.range 12).foldl (fun (r, x) i => (if n.testBit i then crcMul x r else r, crcMul x x))
    (c, (0x00800000 : BitVec 32))).1

/-- The CRC-32C of bytes followed by `n` zero bytes. -/
def crc32c (bs : List (BitVec 8)) (n : Nat) : BitVec 32 := ~~~(crcZeros n (bs.foldl crcByte 0xFFFFFFFF))

/-- The `n` bytes of a number, little-endian. -/
def bytesOf (n v : Nat) : List (BitVec 8) := (List.range n).map fun i => BitVec.ofNat 8 (v / 256 ^ i)

/-- The 64 bytes of an entry (R358). -/
def entryBytes (e : DirEntry) : List (BitVec 8) :=
  [e.role, e.region, e.device, e.version] ++ bytesOf 4 e.length.toNat ++ bytesOf 4 e.offset.toNat ++ bytesOf 4 0 ++
    bytesOf 48 e.digest.toNat

/-- The bytes of a copy from its magic up to its last entry in use (R358); those from there to 0xFFB are 0. -/
def dirBytes (d : DirCopy) : List (BitVec 8) :=
  bytesOf 4 d.magic.toNat ++ bytesOf 2 d.format.toNat ++ bytesOf 2 d.entries.length ++ bytesOf 8 d.sequence.toNat ++
    bytesOf 48 (d.autoload.toNat + 2 * d.autoRelease.toNat) ++ d.entries.flatMap entryBytes

/-- The CRC-32C that the bytes 0x000 to 0xFFB of a copy have. -/
def dirCrc (d : DirCopy) : BitVec 32 := crc32c (dirBytes d) (0xFFC - 64 * (d.entries.length + 1))

/-- Magic, format and CRC-32C are correct (R358, R359). -/
def crcOk (d : DirCopy) : Bool :=
  d.magic == 0x52494456 && d.format == 1 && decide (d.entries.length ≤ 62) && d.crc == dirCrc d

/-- A copy with its magic, format and CRC-32C (R358). -/
def sealDir (d : DirCopy) : DirCopy :=
  let n : DirCopy := { d with magic := 0x52494456, format := 1 }
  { n with crc := dirCrc n }

/-- A copy is valid (R359). -/
def dirValid (d : DirCopy) : Bool :=
  crcOk d && (ofRole d roleFirmware).length == 1 &&
    [roleShell, roleCurrent, rolePrevious].all (fun r => decide ((ofRole d r).length ≤ 1)) &&
    (List.range 64).all (fun r => decide (((ofRole d rolePartial).filter fun e => e.region.toNat == r).length ≤ 1)) &&
    noOverlap d.entries

/-- The copy in use; none in a conflict or without a valid copy (R360). -/
def dirInUse (s : State) : Option DirCopy :=
  if flag s fDirConflict then none
  else
    let d := if flag s fDirUse then s.ldr.dir1 else s.ldr.dir0
    if dirValid d then some d else none

/-- The entry of a role, and of a region for PARTIAL entries. -/
def dirEntry (s : State) (role region : Nat) : Option DirEntry :=
  match dirInUse s with
  | some d => d.entries.find? fun e => e.role.toNat == role && (role != rolePartial || e.region.toNat == region)
  | none => none

/-- The image in place declares a region (R148). -/
def declared (s : State) (r : Nat) : Bool :=
  match header s with
  | some h => look 0 h.regions r != 0
  | none => false

/-- The entry from which ROLLBACK restores a region (R370): its PARTIAL entry, else DESIGN_CURRENT of the same image. -/
def rollbackEntry (s : State) (r : Nat) : Option DirEntry :=
  match dirEntry s rolePartial r with
  | some e => some e
  | none =>
    match dirEntry s roleCurrent 0, header s with
    | some e, some h => if e.imageId = h.imageId then some e else none
    | _, _ => none

/-- ROLLBACK of a region would find an entry (R386). -/
def rollbackFinds (s : State) (r : Nat) : Bool := declared s r && (rollbackEntry s r).isSome

/-! Updates (R361). -/

/-- A sequence number one above the higher of the valid copies. -/
def nextSequence (s : State) : BitVec 64 :=
  let q := fun (d : DirCopy) => if crcOk d then d.sequence.toNat else 0
  BitVec.ofNat 64 (max (q s.ldr.dir0) (q s.ldr.dir1) + 1)

/-- Both copies are written with new contents, one after the other (R361); the conflict, if any, ends (R360). -/
def writeDir (d : DirCopy) (s : State) : State :=
  let n := sealDir { d with sequence := nextSequence s }
  let s1 := setFlag fDir0 true (setFlag fDir1 true (setFlag fDirConflict false (setFlag fDirUse false s)))
  setWide 0x50034 n.sequence { s1 with ldr := { s1.ldr with dir0 := n, dir1 := n } }


/-- Chunks of a body of the manifest's length (R351). -/
def chunkCount (m : Manifest) : Nat := (m.bodyLen.toNat + 2 ^ m.chunkLog2.toNat - 1) / 2 ^ m.chunkLog2.toNat

/-- Bytes of a stream before its body: the manifest and the padded chunk table (R351). -/
def bodyStart (m : Manifest) : Nat := 4096 + (48 * chunkCount m + 4095) / 4096 * 4096

/-- Length of a stream in 4 KiB units (R351). -/
def streamUnits (m : Manifest) : Nat := (bodyStart m + m.bodyLen.toNat + 4095) / 4096

/-- The place of a new stream in flash: on device 0, above every stream that either copy names there (R361;
notes/assumptions/60.md). -/
def freeOffset (s : State) : Nat :=
  ((s.ldr.dir0.entries ++ s.ldr.dir1.entries).filter fun e => e.device == 0).foldl
    (fun m e => max m (e.offset.toNat + e.length.toNat)) 32

/-- The entry of a stream that is stored. -/
def newEntry (role region : Nat) (m : Manifest) (s : State) : DirEntry :=
  { role := BitVec.ofNat 8 role, region := BitVec.ofNat 8 region, device := 0, version := m.version.setWidth 8,
    length := BitVec.ofNat 32 (streamUnits m), offset := BitVec.ofNat 32 (freeOffset s), digest := m.digest,
    imageId := m.imageId }

/-- The contents from which an update starts: the copy in use, or, in a conflict, the copy with the higher firmware
version (R360). -/
def dirBase (s : State) : DirCopy :=
  match dirInUse s with
  | some d => d
  | none =>
    let v := fun (d : DirCopy) => ((ofRole d roleFirmware).head?.map (·.version.toNat)).getD 0
    if v s.ldr.dir0 ≥ v s.ldr.dir1 then s.ldr.dir0 else s.ldr.dir1

/-- The entries after a stored design, shell, firmware or partial stream (R361, R372, R373). -/
def storedEntries (role region : Nat) (new : DirEntry) (es : List DirEntry) : List DirEntry :=
  let others := es.filter fun e =>
    if role = roleCurrent then e.role.toNat != roleCurrent && e.role.toNat != rolePrevious
    else if role = rolePartial then !(e.role.toNat == rolePartial && e.region.toNat == region)
    else e.role.toNat != role
  let old := if role = roleCurrent then
      (es.filter fun e => e.role.toNat == roleCurrent).map fun e => { e with role := BitVec.ofNat 8 rolePrevious }
    else []
  others ++ old ++ [new]

/-- A stored stream enters the directory. -/
def storeEntry (role region : Nat) (m : Manifest) (s : State) : State :=
  let d := dirBase s
  writeDir { d with entries := storedEntries role region (newEntry role region m s) d.entries } s

/-- DESIGN_CURRENT and DESIGN_PREVIOUS swap roles (R370). -/
def swapRoles (s : State) : State :=
  let d := dirBase s
  writeDir { d with entries := d.entries.map fun e =>
    if e.role.toNat = roleCurrent then { e with role := BitVec.ofNat 8 rolePrevious }
    else if e.role.toNat = rolePrevious then { e with role := BitVec.ofNat 8 roleCurrent } else e } s

end Sys2Proof.Machine
end

