-- ==== Sys2Proof/Machine/Pads.lean ====
section
/-! DEFINITION. Pulls and drivers of the target pins as a whole (R377, R475, R497, R498). -/

namespace Sys2Proof.Machine

/-- The pull that one valid pin-map entry gives its pin: the pin, and up or down (R498). -/
def entryPull (w : Nat) : Option (Nat × Bool) :=
  if w.testBit 31 then
    (match w / 2 ^ 27 % 4 with
     | 1 => some (w % 512, false)
     | 2 => some (w % 512, true)
     | _ => none)
  else none

/-- The pulls that the image's type 7 frames name (R498). -/
def imagePulls (s : State) : List (Nat × Bool) :=
  match image s with
  | some i => (i.frames.filter fun f => bits f.addr 28 4 == 7).flatMap fun f =>
      f.words.flatMap fun e => [entryPull (e.2.toNat % 2 ^ 32), entryPull (e.2.toNat / 2 ^ 32)].filterMap id
  | none => []

/-- Pins pulled in one direction. -/
def pullMask (s : State) (up : Bool) : BitVec 512 :=
  (imagePulls s).foldl (fun m x => if x.2 == up then m ||| BitVec.ofNat 512 (2 ^ x.1) else m) 0

/-- Pins that the output entries of a pavilion name (R498). -/
def outputPins (s : State) (p : Nat) : BitVec 512 :=
  (List.range 64).foldl (fun m e =>
    let w := pinOut s p e
    if w.testBit 31 then m ||| BitVec.ofNat 512 (2 ^ (w % 512)) else m) 0

/-- Outputs of the pavilions whose region is being loaded and has not reached stage 1 (R377). -/
def heldPins (s : State) : BitVec 512 := s.pins.held.foldl (fun m p => m ||| outputPins s p) 0

/-- The pulls of the pin map apply, from release stage 1 (R498), but not on the outputs of a region whose stage 1 is
still to come (R377). -/
def pullsOn (s : State) : State :=
  let k := ~~~heldPins s
  { s with pins := { s.pins with up := pullMask s true &&& k, dn := pullMask s false &&& k } }

/-- Every target output is released to high impedance; pin changes not yet due are dropped (R207, R216). -/
def releasePins (s : State) : State := { s with pins := { s.pins with drvOn := 0, due := [] } }

/-- Target pins high impedance with no pull, pending changes dropped (R207, R377). -/
def pinsOff (s : State) : State :=
  { s with pins := { s.pins with drvOn := 0, up := 0, dn := 0, due := [], frozen := false } }

/-- Banks named by the image's pin_banks (R146). -/
def bankNamed (s : State) (b : Nat) : Bool :=
  match header s with
  | some h => bits h.pinBanks (4 * b) 4 != 0
  | none => false

/-- A bank that the image names is still latched (R475). -/
def padsHold (s : State) : Bool := (List.range 16).any fun b => bankNamed s b && (reg s 0x20010).getLsbD b

/-- A pin_banks code that names a voltage (R494). -/
def namesVolt (v : Nat) : Nat := if 1 ≤ v ∧ v ≤ 5 then v else 0

/-- The expected voltage of a bank, 0 for none (R494). -/
def expectedVolt (s : State) (b : Nat) : Nat :=
  let own := bits (reg s (0x200040 + 4 * b)) 0 4
  match header s with
  | some h => if bits h.pinBanks (4 * b) 4 != 0 then namesVolt (bits h.pinBanks (4 * b) 4) else namesVolt own
  | none => namesVolt own

/-- The bank is wanted (R494). -/
def bankIsWanted (s : State) (b : Nat) : Bool := (reg s (0x200040 + 4 * b)).getLsbD 4 && expectedVolt s b != 0

/-- A bank leaves ON: its VCCIO is disconnected, and its pins are high impedance (R496, R497). -/
def bankDrop (b : Nat) (s : State) : State :=
  { s with pins := { s.pins with drvOn := s.pins.drvOn &&& ~~~maskAt 512 (32 * b) 32 } }

/-- Cause field of TIO.BANK (R515). -/
def fBankCause (b : Nat) : Fld := ⟨0x200000 + 4 * b, 24, 4⟩
def fPodkeyHigh (b : Nat) : Fld := ⟨0x200000 + 4 * b, 19, 1⟩
def fVccioOk (b : Nat) : Fld := ⟨0x200000 + 4 * b, 18, 1⟩
def fPodid (b : Nat) : Fld := ⟨0x200000 + 4 * b, 0, 13⟩

/-- A bank takes a state; leaving ON disconnects it (R496). -/
def setPod (b : Nat) (st : PodState) (s : State) : State :=
  let s1 := if podState s b == .on && st != .on then bankDrop b s else s
  { s1 with pins := { s1.pins with pods := upd .off s1.pins.pods b st } }

/-- What stands on the bank's PODID, PODKEY and VCCIO pins is not known: its measurements in TIO.BANK (R515) are free
values (notes/assumptions/7.md). -/
def freeReadings (b : Nat) (s : State) : State :=
  let w := Config.freeWord s.free
  draw (setFlag (fVccioOk b) (w.getLsbD 14) (setFlag (fPodkeyHigh b) (w.getLsbD 13) (setFld (fPodid b) w.toNat s)))

/-- A bank passes to CHECK by OFF or by a new expected voltage. What keeps it there, if anything, is not known either:
none, NO_POD, POD_MISKEYED, POD_REVERSED or VCCIO_FAULT. -/
def podCheck (b : Nat) (s : State) : State :=
  setFld (fBankCause b) ((Config.freeWord s.free).toNat / 2 ^ 16 % 5) (freeReadings b (setPod b .check s))

/-- Banks in ON whose expected voltage is no longer what it was in `old` pass to CHECK at once (R496). -/
def revolt (old s : State) : State :=
  (List.range 16).foldl (fun x b =>
    if podState s b == .on && expectedVolt old b != expectedVolt s b then podCheck b x else x) s

end Sys2Proof.Machine
end

