-- ==== Sys2Proof/Machine/Rs.lean ====
section
/-! DEFINITION. Frames on a Daxair port (R249 to R251): the vote of the sync headers, the Reed–Solomon code RS(64, 60)
over GF(2^16), and the scramblers. -/

namespace Sys2Proof.Machine

/-! GF(2^16) with field polynomial x^16 + x^12 + x^3 + x + 1 (R251). -/

/-- Multiplies by α = x. -/
def gfX (a : Nat) : Nat := if a < 32768 then 2 * a else (2 * a) % 65536 ^^^ 0x100B

/-- Product of two field elements. -/
def gfMul (a b : Nat) : Nat :=
  ((List.range 16).foldl (fun (acc : Nat × Nat) i => (if b.testBit i then acc.1 ^^^ acc.2 else acc.1, gfX acc.2)) (0, a)).1

/-- Inverse of a field element other than 0: its power 2^16 − 2. -/
def gfInv (a : Nat) : Nat :=
  ((List.range 15).foldl (fun (acc : Nat × Nat) _ => let q := gfMul acc.2 acc.2; (gfMul acc.1 q, q)) (1, a)).1

/-- The power α^k. -/
def gfPow (k : Nat) : Nat := (List.range k).foldl (fun a _ => gfX a) 1

/-- Multiplies by α^k, k small. -/
def gfShift (k a : Nat) : Nat := (List.range k).foldl (fun x _ => gfX x) a

/-- Syndrome `k` of 64 symbols; symbol j is the coefficient of x^(63 − j), so that the check symbols stand last. -/
def syndrome (k : Nat) (sym : List Nat) : Nat := sym.foldl (fun a x => gfShift k a ^^^ x) 0

/-- The error locations and values of a frame with at most two bad symbols: none if it has more (R251). -/
def locate (s0 s1 s2 s3 : Nat) : Option (List (Nat × Nat)) :=
  if s0 = 0 ∧ s1 = 0 ∧ s2 = 0 ∧ s3 = 0 then some []
  else
    let powers := ((List.range 64).foldl (fun (acc : List Nat × Nat) _ => (acc.2 :: acc.1, gfX acc.2)) ([], 1)).1
    -- `powers` lists α^63 first, so that its index is the symbol number
    let det := gfMul s0 s2 ^^^ gfMul s1 s1
    if det = 0 then
      if s0 = 0 then none
      else match powers.findIdx? fun x => gfMul s0 x == s1 && gfMul s1 x == s2 && gfMul s2 x == s3 with
        | some j => some [(j, s0)]
        | none => none
    else
      let d := gfInv det
      let t1 := gfMul d (gfMul s0 s3 ^^^ gfMul s1 s2)
      let t2 := gfMul d (gfMul s1 s3 ^^^ gfMul s2 s2)
      match (powers.zipIdx).filter fun x => gfMul x.1 x.1 ^^^ gfMul t1 x.1 ^^^ t2 == 0 with
      | [(x1, j1), (x2, j2)] =>
        let e1 := gfMul (gfInv (x1 ^^^ x2)) (s1 ^^^ gfMul s0 x2)
        if e1 = 0 ∨ e1 = s0 then none else some [(j1, e1), (j2, s0 ^^^ e1)]
      | _ => none

/-- The 64 symbols of a frame: four of each lane's block (R251). -/
def symbolsOf (lanes : List (BitVec 64)) : List Nat :=
  lanes.flatMap fun l => (List.range 4).map fun i => bits l (16 * i) 16

/-- The corrected lanes of a frame, and whether the decoder corrected anything; none where it cannot (R251). -/
def rsDecode (lanes : List (BitVec 64)) : Option (List (BitVec 64) × Bool) :=
  let sym := symbolsOf lanes
  (locate (syndrome 0 sym) (syndrome 1 sym) (syndrome 2 sym) (syndrome 3 sym)).map fun errs =>
    let fix := fun (l : BitVec 64) (i : Nat) => errs.foldl (fun x e =>
      if e.1 / 4 = i then x ^^^ BitVec.ofNat 64 (e.2 * 2 ^ (16 * (e.1 % 4))) else x) l
    ((lanes.zipIdx).map fun (l, i) => fix l i, !errs.isEmpty)

/-- The vote of the sync headers (R249): control or data, and how many lanes disagree; none where the frame is
discarded. -/
def headerVote (hdrs : List (BitVec 2)) : Option (Bool × Nat) :=
  let data := (hdrs.filter (· == 1)).length
  let ctl := (hdrs.filter (· == 2)).length
  if data = ctl ∨ 4 < hdrs.length - data - ctl then none
  else some (decide (data < ctl), hdrs.length - max data ctl)

/-- Descrambles one lane's block with the 58 scrambled bits before it (R250): polynomial 1 + x^39 + x^58, bit 0 of a
block first. The second component is the last 58 scrambled bits. -/
def descramble (hist : BitVec 58) (blk : BitVec 64) : BitVec 64 × BitVec 58 :=
  let all : BitVec 122 := blk ++ hist
  (blk ^^^ all.extractLsb' 19 64 ^^^ all.extractLsb' 0 64, blk.extractLsb' 6 58)

/-- The content of a frame, lanes 0 to 14 descrambled, with the scramblers' new bits. -/
def descrambleAll (hist : List (BitVec 58)) (lanes : List (BitVec 64)) : BitVec 960 × List (BitVec 58) :=
  let ds := ((lanes.take 15).zipIdx).map fun (l, i) => descramble (hist.getD i 0) l
  (joinWords 960 (ds.map (·.1)), ds.map (·.2))

/-! The transmitter (R250). -/

/-- The check symbols of a frame's 60 other symbols, symbol 60 first: the remainder by the generator polynomial
x^4 + 0xF x^3 + 0x36 x^2 + 0x78 x + 0x40, whose roots are α^0 to α^3 (R251). -/
def checkSymbols (sym : List Nat) : List Nat :=
  sym.foldl (fun r x =>
    let f := x ^^^ r.getD 0 0
    [r.getD 1 0 ^^^ gfMul f 0xF, r.getD 2 0 ^^^ gfMul f 0x36, r.getD 3 0 ^^^ gfMul f 0x78, gfMul f 0x40]) [0, 0, 0, 0]

/-- Lane 15's block for the blocks of lanes 0 to 14. -/
def checkLane (lanes : List (BitVec 64)) : BitVec 64 :=
  BitVec.ofNat 64 (((checkSymbols (symbolsOf lanes)).zipIdx).foldl (fun a (x, i) => a + x * 2 ^ (16 * i)) 0)

/-- Scrambles one lane's block with the 58 scrambled bits before it (R250), bit 0 first: the first 39 bits follow from those
58 alone. The second component is the last 58 scrambled bits. -/
def scramble (hist : BitVec 58) (blk : BitVec 64) : BitVec 64 × BitVec 58 :=
  let lo : BitVec 39 := blk.extractLsb' 0 39 ^^^ hist.extractLsb' 19 39 ^^^ hist.extractLsb' 0 39
  let all : BitVec 97 := lo ++ hist
  let hi : BitVec 25 := blk.extractLsb' 39 25 ^^^ all.extractLsb' 58 25 ^^^ all.extractLsb' 39 25
  let y : BitVec 64 := hi ++ lo
  (y, y.extractLsb' 6 58)

/-- The blocks of lanes 0 to 15 for a frame's content, with the scramblers' new bits (steps 2 and 3 of R250). -/
def frameLanes (hist : List (BitVec 58)) (body : BitVec 960) : List (BitVec 64) × List (BitVec 58) :=
  let ds := ((splitWords body 15).zipIdx).map fun (b, i) => scramble (hist.getD i 0) b
  let lanes := ds.map (·.1)
  (lanes ++ [checkLane lanes], ds.map (·.2))

/-! Test patterns (R269). PRESUMED (notes/assumptions/81.md): the polynomials x^7 + x^6 + 1, x^15 + x^14 + 1 and
x^31 + x^28 + 1 of ITU-T O.150, the last two sent inverted. -/

/-- The next bit of a pattern after the bits `h`, the newest in bit 0. -/
def prbsBit (pattern : Nat) (h : BitVec 31) : Bool :=
  match pattern with
  | 1 => h.getLsbD 5 ^^ h.getLsbD 6
  | 2 => h.getLsbD 13 ^^ h.getLsbD 14
  | _ => h.getLsbD 27 ^^ h.getLsbD 30

/-- What the line carries for a pattern's bits. -/
def prbsLine (pattern : Nat) (b : BitVec 64) : BitVec 64 := if pattern = 1 then b else ~~~b

/-- The next 64 bits of a pattern, bit 0 first, with the last 31 of them. -/
def prbsBlock (pattern : Nat) (h : BitVec 31) : BitVec 64 × BitVec 31 :=
  (List.range 64).foldl (fun (acc : BitVec 64 × BitVec 31) i =>
    let b := prbsBit pattern acc.2
    (putBit acc.1 i b, (acc.2.extractLsb' 0 30 ++ BitVec.ofBool b : BitVec 31))) (0, h)

/-- The last 31 of the first `k` bits of a block. -/
def prbsHist (b : BitVec 64) (k : Nat) : BitVec 31 :=
  (List.range 31).foldl (fun h i => putBit h i (b.getLsbD (k - 1 - i))) 0

/-- A checker without synchronism finds it in a block (R269): every bit after the first 31 follows from those before it, and
they are not all 0. -/
def prbsFind (pattern : Nat) (b : BitVec 64) : Option (BitVec 31) :=
  let h := prbsHist b 31
  if h != 0 && ((prbsBlock pattern h).1.extractLsb' 0 33 == b.extractLsb' 31 33) then some (prbsHist b 64) else none

end Sys2Proof.Machine
end

