-- ==== Sys2Proof/Machine/Operands.lean ====
section
/-! DEFINITION. The operand selectors of R25 and every source of R26, as they stand at the start of the stroke (R27). -/

namespace Sys2Proof.Machine

/-- `n` two-bit values, each X in FOURSTATE and 0 otherwise: what a source holds before anything arrives (R115, R174). -/
def blank (s : State) (n : Nat) : BitVec (2 * n) :=
  if fourState s then BitVec.ofNat (2 * n) ((2 ^ (2 * n) - 1) / 3 * 2) else 0

/-- Crew broadcast lane `k` (R52): slot *s* − 1 of member `k`, slot L − 1 in stroke 0. -/
def lane (s : State) (p c st k : Nat) : BitVec 2 :=
  slot s p c k (if st = 0 then s.cox.length - 1 else st - 1)

/-- The keeper of a crew wire: written, or initial (R63, R66); one bit per instance. -/
def keeper (s : State) (p c w : Nat) : BitVec 2 :=
  match find s.fab.keepers ((p * 64 + c) * 4 + w) with
  | some v => v
  | none =>
    let k := wirePolicy s p c w / 4 % 4
    BitVec.ofNat 2 (if fleet s then k else k % 2)

/-- What an undriven crew wire reads: Z in FOURSTATE, else by its policy (R63, R64). -/
def undriven (s : State) (p c w : Nat) : BitVec 2 :=
  if fourState s then vZ
  else match wirePolicy s p c w % 4 with
  | 1 => v0
  | 2 => broad (valsOf s) true
  | _ => keeper s p c w

/-- A crew wire's resolved value in the stroke before (R60). -/
def wire (s : State) (p c w : Nat) : BitVec 2 :=
  match find s.fab.wires ((p * 64 + c) * 4 + w) with
  | some v => v
  | none => undriven s p c w

/-- Read-data value `v` of bank port `k` (R26, R174). -/
def bankValue (s : State) (p k v : Nat) : BitVec 2 :=
  (look (blank s 64) s.fab.bankSrc (p * 2 + k)).extractLsb' (2 * v) 2

/-- Deep read-data value `v` (R26, R174). -/
def deepValue (s : State) (p v : Nat) : BitVec 2 :=
  (look (blank s 256) s.fab.deepSrc p).extractLsb' (2 * v) 2

/-- A receive register (R26, R115). -/
def rxReg (s : State) (p r : Nat) : BitVec 8 := look (blank s 4) s.fab.rx (p * 64 + r)

/-- Lane of a receive register (R26). -/
def rxLane (s : State) (p r l : Nat) : BitVec 2 :=
  if twoBit s then (rxReg s p r).extractLsb' (2 * l) 2 else (rxReg s p r).extractLsb' l 1 |>.setWidth 2

/-- The level of a pin in a sample; a floating pin reads a free value (R497, R501). -/
def sampled (x : PinSample) (pin : Nat) : Bool :=
  if x.float.getLsbD pin then (Config.freePins x.n).getLsbD pin else x.lev.getLsbD pin

/-- The sample that pin-map inputs of a pavilion show exists (R553): the sample of two strokes before was taken
since the load, and a partial load of the region does not stand between. -/
def sampleThere (s : State) (p : Nat) : Bool :=
  decide (3 ≤ s.pins.taken) &&
  match regionOf s p with
  | some r => match find s.ldr.regions r with
    | some g => !(s.cox.stroke < 2 && g.since == some (course s))
    | none => true
  | none => true

/-- Pin-map input entry `e` (R26, R39, R378, R497, R498, R553): whether its bank is in ON is as at the start of the stroke
(R27). -/
def pinValue (s : State) (p e : Nat) : BitVec 2 :=
  let w := pinIn s p e
  let pin := w % 512
  let k := valsOf s
  let isReset := w.testBit 30
  let asserted := w.testBit 29
  let on := s.pins.s0.on.getLsbD (bankOfPin pin)
  let there := sampleThere s p
  let lev := sampled s.pins.s2 pin
  if isReset then
    if stageOf s p < 3 then broad k asserted
    else if w.testBit 24 then broad k (!asserted)
    else
      let i0 := if k == .pair && !s.cox.fleetPins then !asserted
                else if !on then asserted else there && lev
      if k == .four && on && !there then vX
      else if k == .pair then BitVec.ofBool (!asserted) ++ BitVec.ofBool i0 else (BitVec.ofBool i0).setWidth 2
  else if k == .pair then (if s.cox.fleetPins && on && there && lev then v1 else v0)
  else if !on || !there then (if k == .four then vX else v0)
  else if lev then v1 else v0

/-- A source that does not exist: a free value (R26). -/
def noSource (s : State) (sel : Nat) : BitVec 2 := Config.freeSource sel (gOf s)

/-- The value of a special source in stroke `st` (R26). -/
def special (s : State) (p c st n : Nat) : BitVec 2 :=
  let k := valsOf s
  let two := k != .one
  if n < 0x010 then lane s p c st n
  else if n < 0x014 then wire s p c (n - 0x010)
  else if n = 0x020 then v0
  else if n = 0x021 then broad k true
  else if n = 0x022 ∧ k = .four then vX
  else if n = 0x023 ∧ k = .four then vZ
  else if n = 0x024 then broad k (st % 2 == 1)
  else if 0x040 ≤ n ∧ n < 0x080 ∧ (!two || decide (n - 0x040 < 32)) then bankValue s p 0 (n - 0x040)
  else if 0x080 ≤ n ∧ n < 0x0C0 ∧ (!two || decide (n - 0x080 < 32)) then bankValue s p 1 (n - 0x080)
  else if 0x0C0 ≤ n ∧ n < 0x100 ∧ (pinIn s p (n - 0x0C0)).testBit 31 then pinValue s p (n - 0x0C0)
  else if 0x100 ≤ n ∧ n < 0x200 ∧ (!two || decide (n - 0x100 < 128)) then deepValue s p (n - 0x100)
  else if 0x200 ≤ n ∧ n < 0x400 ∧ (!two || decide (n % 8 < 4)) then rxLane s p ((n - 0x200) / 8) (n % 8)
  else noSource s n

/-- The value of an operand selector in stroke `st` of a BP (R25), in bit 0 alone in the one-value modes (R38). -/
def operand (s : State) (p c b st sel : Nat) : BitVec 2 :=
  if sel < 1024 then slot s p c b sel else readVal s (special s p c st (sel - 1024))

/-- The value of an operand selector of a BP that may have executed in this stroke: a slot as it stood at the start of
the stroke (R27). -/
def operandBefore (s : State) (p c b st sel : Nat) : BitVec 2 :=
  match (if sel < 1024 then find s.fab.past (slotKey p c b sel) else none) with
  | some v => readVal s v
  | none => operand s p c b st sel

/-- The fields of an instruction word (R22). -/
def ttOf (w : Nat) : Nat := w / 2 ^ 48 % 2 ^ 16
def opaOf (w : Nat) : Nat := w / 2 ^ 37 % 2 ^ 11
def opbOf (w : Nat) : Nat := w / 2 ^ 26 % 2 ^ 11
def opcOf (w : Nat) : Nat := w / 2 ^ 15 % 2 ^ 11
def opdOf (w : Nat) : Nat := w / 2 ^ 4 % 2 ^ 11
def opOf (w : Nat) : Nat := w % 16

end Sys2Proof.Machine
end

