-- ==== Sys2Proof/Machine/Recovery.lean ====
section
/-! DEFINITION. The recovery queue and its states (R400, R401), and what a configuration error does (R42 to R44, R398,
R399). -/

namespace Sys2Proof.Machine

/-- SCB.RECOVER.overflow, host; SCB.RECOVER_ADDR (R410). -/
def fRecOverflow : Fld := ⟨0x60050, 27, 1⟩
def fRecHost : Fld := ⟨0x60050, 26, 1⟩
def fRecAddr : Fld := ⟨0x60054, 0, 32⟩

/-- Type of a frame address. -/
def frameType (a : BitVec 32) : Nat := bits a 28 4
/-- Pavilion of a frame address. -/
def framePav (a : BitVec 32) : Nat := bits a 21 7
/-- Crew of a frame address. -/
def frameCrew (a : BitVec 32) : Nat := bits a 15 6

/-- State codes of R401. -/
def RecState.code : RecState → Nat
  | .idle => 0 | .waitHalt => 1 | .needHost => 2 | .read => 3 | .write => 4 | .failed => 5

/-- A pending design frame: any queued frame but a type 8 frame (R401). -/
def designPending (s : State) : Bool := s.scb.queue.any fun a => frameType a != 8

/-- SCRUB_FULL has ended: its completion and results (R404). -/
def fullEnd (code : Nat) (f : FullScrub) (s : State) : State :=
  let r : MbxRes :=
    { code := BitVec.ofNat 8 code, r0 := BitVec.ofNat 32 f.fixed, r1 := BitVec.ofNat 32 f.care,
      r2 := BitVec.ofNat 32 f.dc, r3 := BitVec.ofNat 32 s.scb.st.code }
  { s with hif := { s.hif with due := some r }, scb := { s.scb with full := none } }

/-- Enters FAILED and logs `CONFIG_RECOVER_FAIL` with the failing code (R401); a SCRUB_FULL at its recovery ends with it
(R404). -/
def recoverFail (code : Nat) (s : State) : State :=
  let s1 := logEvent evConfigRecoverFail locNone code { s with scb := { s.scb with st := .failed, fail := code } }
  match s.scb.full with
  | some f => iff (f.rec_ && f.step == 2) (fullEnd code f) s1
  | none => s1

/-- The part that holds a frame was loaded from the host and not stored (R400); the pin map belongs to the base part
(R373). -/
def hostSource (s : State) (a : BitVec 32) : Bool :=
  match (if frameType a = 7 then none else regionOf s (framePav a)) with
  | some r => match find s.ldr.regions r with
    | some g => g.fromHost
    | none => s.ldr.fromHost
  | none => s.ldr.fromHost

/-- Where recovery goes when it need not wait for a halt (R401). -/
def recoverStart (s : State) : State :=
  let host := s.scb.queue.any (hostSource s)
  setFlag fRecHost host { s with scb := { s.scb with st := if host then .needHost else .read } }

/-- Appends a frame to the queue unless it stands there; a seventeenth frame overflows (R400). -/
def enqueue (a : BitVec 32) (s : State) : State :=
  if s.scb.queue.contains a then s
  else if s.scb.queue.length ≥ 16 then
    if flag s fRecOverflow then s else recoverFail ccBusyInUse (setFlag fRecOverflow true s)
  else { s with scb := { s.scb with queue := s.scb.queue ++ [a] } }

/-- Queues a frame for recovery with the frames that go with it, and leaves IDLE (R400, R401). -/
def queueFrame (a : BitVec 32) (s : State) : State :=
  let fresh := s.scb.st == .idle
  let t := frameType a
  let p := framePav a
  let c := frameCrew a
  let crewFrame := fun ty => BitVec.ofNat 32 (frameKey ty p c 0 0 * 128)
  let s1 := iff (fresh && s.scb.queue.isEmpty) (setFld fRecAddr a.toNat) s
  let s2 := enqueue a s1
  let s3 := iff (t == 1 || t == 2 || t == 9) (fun x => enqueue (crewFrame 9) (enqueue (crewFrame 2) x)) s2
  let s3 := setFlag fRecHost (s3.scb.queue.any (hostSource s3)) s3
  if s3.scb.st == .idle then
    if designPending s3 && (s.cox.st == .wait || inCourse s) then
      { s3 with scb := { s3.scb with st := .waitHalt } }
    else recoverStart s3
  else s3

/-- Records a schedule-store error in SCHED_ERR_LAST (R44, R48): the first error, the first uncorrectable one over a
correctable one, and among the errors of one stroke the lowest-numbered BP. -/
def recordSched (p c b st synd : Nat) (ue : Bool) (s : State) : State :=
  let a := pavA p + 0x210
  let v : Word := BitVec.ofNat 32 (2 ^ 31 + ue.toNat * 2 ^ 30 + synd * 2 ^ 20 + c * 2 ^ 14 + b * 2 ^ 10 + st)
  let old := reg s a
  let same := s.fab.marks.contains (9, p * 1024 + st)
  let oldUe := old.getLsbD 30
  let take := !old.getLsbD 31 || (ue && !oldUe) || (same && (ue == oldUe) && decide (c * 16 + b < bits old 10 10))
  if take then
    setReg a v { s with fab := { s.fab with marks := (9, p * 1024 + st) :: s.fab.marks } }
  else s

/-- A correctable schedule word read by a BP (R42): counted, logged for the first since the counter was cleared,
recorded, and written back corrected unless the flip was injected (R49). DESIGN CHOICE (notes/assumptions/92.md): where
several words of a pavilion are the first in one stroke, CONFIG_CE names the BP whose command came first. -/
def schedCorrected (p c b st : Nat) (e : Ecc) (injected : Bool) (s : State) : State :=
  let a := pavA p + 0x200
  let first := ctr s a == 0
  let s1 := count a s
  let s2 := iff first (logEvent evConfigCe (locBp p c b 0) 0) s1
  let s3 := recordSched p c b st e.synd false s2
  if injected then s3 else { s3 with cfg := upd 0 s3.cfg (schedKey p c b st) (BitVec.ofNat 72 e.word) }

/-- An uncorrectable care item: counted, `CONFIG_UE`, a halt and recovery of its frame (R43, R398). -/
def careError (p c b area : Nat) (frame : Nat) (s : State) : State :=
  queueFrame (BitVec.ofNat 32 (frame * 128))
    (raiseHalt hcConfigUe (logEvent evConfigUe (locBp p c b 0) area (count 0x60028 s)))

/-- A care-map codeword that a reader finds uncorrectable (R399): counted and logged once until its frame is rewritten, and
the type 8 frame queued; no halt. -/
def careMapBad (p c k : Nat) (s : State) : State :=
  let a : BitVec 32 := BitVec.ofNat 32 (frameKey 8 p c 0 0 * 128)
  if (check72 (look 0 s.cfg k)).cls != .bad || s.scb.careUe.contains k then s
  else queueFrame a (logEvent evCareMapUe (locBp p c 0 0) 0
    (count 0x60040 { s with scb := { s.scb with careUe := k :: s.scb.careUe } }))

/-- The care-map codewords of the frames that `f` names have been rewritten. -/
def careRewritten (f : Nat → Bool) (s : State) : State :=
  { s with scb := { s.scb with careUe := s.scb.careUe.filter fun k => !f (k / 512) } }

/-- An uncorrectable schedule word read by a BP (R43): counted and recorded; a care word halts and is recovered, a
don't-care word is counted and rewritten as zero (R398). -/
def schedBad (p c b st : Nat) (e : Ecc) (injected : Bool) (s : State) : State :=
  let s1 := careMapBad p c (careKey p c b st) (recordSched p c b st e.synd true (count (pavA p + 0x208) s))
  if careWord s p c b st then careError p c b 0 (frameKey 1 p c b (st / 512)) s1
  else
    let s2 := count 0x60030 s1
    if injected then s2 else { s2 with cfg := upd 0 s2.cfg (schedKey p c b st) 0 }

end Sys2Proof.Machine
end

