-- ==== Sys2Proof/Machine/Bp.lean ====
section
/-! DEFINITION. The eleven BP operations (R21 to R40, R53 to R59, R504): one BP executes its word in the stroke in
progress. Slots are written at once, since no read of this stroke sees slot *s* of this course; every side effect is
staged and takes effect when the stroke retires (Machine/Stroke.lean). -/

namespace Sys2Proof.Machine

/-- SCHED_INJECT names the word that BP p.c.b reads in stroke `st`, and is armed (R49). -/
def injected (s : State) (p c b st : Nat) : Bool :=
  let v := reg s (pavA p + 0x214)
  v.getLsbD 31 && bits v 0 20 == c * 2 ^ 14 + b * 2 ^ 10 + st

/-- The bits that an injection flips (R49). -/
def injectMask (v : Word) : BitVec 72 :=
  let k := min (bits v 21 7) 71
  BitVec.ofNat 72 (2 ^ k) ^^^ (if v.getLsbD 20 then BitVec.ofNat 72 (2 ^ ((k + 1) % 72)) else 0)

/-- The check of the schedule word that BP p.c.b reads in stroke `st` (R21, R41, R49). -/
def readSched (s : State) (p c b st : Nat) : Ecc :=
  let w := look 0 s.cfg (schedKey p c b st)
  check72 (if injected s p c b st then w ^^^ injectMask (reg s (pavA p + 0x214)) else w)

/-- The word that the image gives a BP at a stroke: what an uncorrectable word stood for (R43, R114, R172). -/
def intended (s : State) (p c b st : Nat) : Nat :=
  match image s with
  | some i => match i.frames.find? fun f => f.addr.toNat / 128 == frameKey 1 p c b (st / 512) with
    | some f => (look 0 f.words (st % 512)).toNat
    | none => 0
  | none => 0

/-- BP p.c.b can execute in the stroke in progress: the controller is in RUN, the BP is enabled and has not executed
in this stroke (R21). -/
def bpReady (s : State) (p c b : Nat) : Bool :=
  running s && enabled s p && decide (s.cox.stroke < s.cox.length) && !s.fab.retired.contains (bpIndex p c b)

/-- The four operands A, B, C, D of a word (R21, R22). -/
def operands (s : State) (p c b w : Nat) : List (BitVec 2) :=
  let st := s.cox.stroke
  [operand s p c b st (opaOf w), operand s p c b st (opbOf w), operand s p c b st (opcOf w),
   operand s p c b st (opdOf w)]

/-- Operand A. -/
def opA (s : State) (p c b w : Nat) : BitVec 2 := operand s p c b s.cox.stroke (opaOf w)
/-- Operand B. -/
def opB (s : State) (p c b w : Nat) : BitVec 2 := operand s p c b s.cox.stroke (opbOf w)

/-- Writes slot *s* of a BP, once data-store writes are enabled (R28, R378); what it held at the start of the stroke
is kept until the stroke retires, for a quad leader's read (R27, R55). -/
def writeSlot (p c b : Nat) (v : BitVec 2) (s : State) : State :=
  let st := s.cox.stroke
  let keep := fun (x : State) =>
    { x with fab := { x.fab with past := ins x.fab.past (slotKey p c b st) (cell x p c b st) } }
  iff (decide (2 ≤ stageOf s p)) (fun x => setSlot p c b st v (keep x)) s

/-- Every BP of the enabled pavilions has executed in the stroke in progress, each one instruction (R10, R21). -/
def strokeDone (s : State) : Bool :=
  s.fab.retired.length == 1024 * (allPavs.filter (enabled s)).length

/-- Marks a BP as executed in this stroke. -/
def markRetired (i : Nat) (s : State) : State := { s with fab := { s.fab with retired := i :: s.fab.retired } }

/-- Places a lane for the VN0 flit of a route entry (R23, R114). -/
def addSend (p : Nat) (tt : Nat) (v : BitVec 2) (s : State) : State :=
  let r : SendRec :=
    { pav := BitVec.ofNat 7 p, entry := BitVec.ofNat 10 tt, lane := BitVec.ofNat 3 (tt / 1024), val := v, g := gOf s }
  { s with fab := { s.fab with sends := s.fab.sends ++ [r] } }

/-- Contributes a bit to a memory operation (R23, R171). -/
def addContrib (p tt : Nat) (v : BitVec 2) (lat : BitVec 16) (s : State) : State :=
  let r : Contrib :=
    { pav := BitVec.ofNat 7 p, desc := BitVec.ofNat 6 tt, role := BitVec.ofNat 2 (tt / 2 ^ 14),
      idx := BitVec.ofNat 8 (tt / 64), val := v, lat := lat }
  { s with fab := { s.fab with contribs := s.fab.contribs ++ [r] } }

/-- What an uncorrectable word still counts for (R114, R172): a SEND's lane and a memory contribution are present with
0, or X in FOURSTATE. -/
def absentEffect (p w : Nat) (s : State) : State :=
  let v := if fourState s then vX else v0
  let op := opOf w
  let s1 := iff (op == 4 && decide (1 ≤ stageOf s p)) (addSend p (ttOf w) v) s
  iff ((op == 6 || op == 7) && decide (2 ≤ stageOf s p)) (addContrib p (ttOf w) v 0) s1

/-- A BP whose word is uncorrectable (R43): no side effect; its slot is kept, or becomes X in FOURSTATE. -/
def badWord (p c b : Nat) (e : Ecc) (inj : Bool) (s : State) : State :=
  let st := s.cox.stroke
  let w := intended s p c b st
  let s1 := iff (fourState s) (writeSlot p c b vX) s
  let s2 := schedBad p c b st e inj (absentEffect p w s1)
  { s2 with fab := { s2.fab with bad := bpIndex p c b :: s2.fab.bad } }

/-- One BP executes: its word is read and checked, then `eff` is performed for the word, or R43 applies. -/
def bpStep (p c b : Nat) (eff : Nat → State → State) (s : State) : State :=
  let st := s.cox.stroke
  let e := readSched s p c b st
  let inj := injected s p c b st
  let s1 := iff inj (setFlag ⟨pavA p + 0x214, 31, 1⟩ false) (markRetired (bpIndex p c b) s)
  match e.cls with
  | .clean => eff e.data s1
  | .fixed => schedCorrected p c b st e inj (eff e.data s1)
  | .bad => badWord p c b e inj s1

/-- The word that BP p.c.b reads is of class `op`, or is uncorrectable. -/
def wordIs (s : State) (p c b op : Nat) : Bool :=
  let e := readSched s p c b s.cox.stroke
  e.cls == .bad || opOf e.data == op || (op == 0 && decide (10 < opOf e.data))

/-- A BP operation of class `op` with effect `eff`. -/
def execBp (op : Nat) (p : Pav) (c : Crew) (b : Bp) (eff : Nat → State → State) (s : State) : Res :=
  whenever (bpReady s p.toNat c.toNat b.toNat && wordIs s p.toNat c.toNat b.toNat op) s
    (bpStep p.toNat c.toNat b.toNat eff s)

/-- EVAL (R30, R35, R39). -/
def evalEffect (p c b w : Nat) (s : State) : State :=
  writeSlot p c b (evalTable (valsOf s) (BitVec.ofNat 16 (ttOf w)) (operands s p c b w)) s

/-- EVAL_HOLD (R31, R35, R36). -/
def holdEffect (p c b w : Nat) (s : State) : State :=
  let ins := operands s p c b w
  let f := evalTable (valsOf s) (BitVec.ofNat 8 (ttOf w)) (ins.take 3)
  let old := slot s p c b s.cox.stroke
  let v := holdValue (valsOf s) f (ins.getD 3 0) old
  iff (v != old) (writeSlot p c b v) s

/-- The check of a quad member's word in this stroke, bad if it has been read as bad in this stroke (R59). -/
def memberWord (s : State) (p c b : Nat) : Ecc :=
  let e := readSched s p c b s.cox.stroke
  if s.fab.bad.contains (bpIndex p c b) then { e with cls := .bad } else e

/-- The value a quad leader's WIDE writes: function form (R55, R57), select form (R56, R57), or none when a member's
word is uncorrectable (R59). Any other combination of ops is refused at load (R54), and the leader then writes its own
f. -/
def wideValue (s : State) (p c b w : Nat) : Option (BitVec 2) :=
  let m := fun k => memberWord s p c (b + k)
  let ins := operands s p c b w
  let tt := fun k => ttOf (m k).data
  let before1 := operandBefore s p c (b + 1) s.cox.stroke
  let wide := [1, 2, 3].map fun k => opOf (m k).data == 3
  if [1, 2, 3].any fun k => (m k).cls == .bad then none
  else if wide.all id then
    let t := ttOf w + tt 1 * 2 ^ 16 + tt 2 * 2 ^ 32 + tt 3 * 2 ^ 48
    some (evalTable (valsOf s) (BitVec.ofNat 64 t)
      (ins ++ [before1 (opaOf (m 1).data), before1 (opbOf (m 1).data)]))
  else if wide.any id then some (evalTable (valsOf s) (BitVec.ofNat 16 (ttOf w)) ins)
  else some (evalSelect (valsOf s) (BitVec.ofNat 16 (ttOf w)) ins (lane s p c s.cox.stroke))

/-- WIDE (R53 to R59): a leader combines its quad, a member writes its own f. -/
def wideEffect (p c b w : Nat) (s : State) : State :=
  if b % 4 = 0 then
    match wideValue s p c b w with
    | some v => writeSlot p c b v s
    | none => iff (fourState s) (writeSlot p c b vX) s
  else evalEffect p c b w s

/-- SEND (R32, R37, R114). -/
def sendEffect (p c b w : Nat) (s : State) : State :=
  let v := opA s p c b w
  iff (decide (1 ≤ stageOf s p)) (addSend p (ttOf w) v) (writeSlot p c b v s)

/-- DRIVE (R32, R60, R67): an enabled driver only once crew drives are enabled. -/
def driveEffect (p c b w : Nat) (s : State) : State :=
  let v := opA s p c b w
  let d : Drive :=
    { crew := p * 64 + c, wire := BitVec.ofNat 2 (ttOf w), bp := BitVec.ofNat 4 b, val := v, en := opB s p c b w }
  let s1 := writeSlot p c b v s
  iff (decide (2 ≤ stageOf s p)) (fun x => { x with fab := { x.fab with drives := x.fab.drives ++ [d] } }) s1

/-- MEMRD and MEMWR (R32, R171). -/
def memEffect (lat : BitVec 16) (p c b w : Nat) (s : State) : State :=
  let v := opA s p c b w
  iff (decide (2 ≤ stageOf s p)) (addContrib p (ttOf w) v lat) (writeSlot p c b v s)

/-- What a PINOUT does to its pin (R37, R39): drive, release, hold (`none` inside), or nothing. -/
inductive PinAct where
  | drive (l : Bool) | release | hold | nothing
  deriving DecidableEq, Repr

/-- The action of PINOUT's value and enable in each mode (R23, R37, R39). -/
def pinAct (s : State) (a en : BitVec 2) : PinAct :=
  match s.cox.mode with
  | .fourstate =>
    if a = vZ then .release
    else if en = v0 then .release
    else if a = vX then .hold
    else .drive (a == v1)
  | .fleet => if s.cox.fleetPins then (if en.getLsbD 0 then .drive (a.getLsbD 0) else .release) else .nothing
  | .service => .nothing
  | _ => if en.getLsbD 0 then .drive (a.getLsbD 0) else .release

/-- Performs a pin action PIN_LAT strokes later (R40); a pin of a bank not in ON (R497), a shorted pin (R501) and an
invalid output entry take no PINOUT; an X is marked and counted (R503). DESIGN CHOICE (notes/assumptions/82.md): an X at
a pin that stands released leaves it released, and counts. -/
def pinEffect (p entry : Nat) (act : PinAct) (s : State) : State :=
  let w := pinOut s p entry
  let pin := w % 512
  let b := bankOfPin pin
  if !w.testBit 31 || podState s b != .on || (reg s (0x200100 + 4 * b)).getLsbD (pin % 32) then s
  else
    let due := fun (l : Option Bool) (x : State) =>
      { x with pins := { x.pins with due := x.pins.due ++
          [{ pin := BitVec.ofNat 9 pin, act := l, g := gOf x + Config.pinLat }] } }
    match act with
    | .nothing => s
    | .release => due none s
    | .drive l => due (some l) s
    | .hold => count 0x200210 (setReg (0x200180 + 4 * b) (putBit (reg s (0x200180 + 4 * b)) (pin % 32) true) s)

/-- PINOUT (R32, R37, R378). -/
def pinoutEffect (p c b w : Nat) (s : State) : State :=
  let v := opA s p c b w
  let act := pinAct s v (opB s p c b w)
  iff (decide (1 ≤ stageOf s p)) (pinEffect p (ttOf w % 64) act) (writeSlot p c b v s)

/-- A log port assembles messages (R445, R458). -/
def logOn (s : State) (port : Nat) : Bool := (reg s (0x70040 + 4 * (port / 32))).getLsbD (port % 32)

/-- LOG (R32, R37, R444, R445). -/
def logEffect (p c b w : Nat) (s : State) : State :=
  let v := opA s p c b w
  let en := opB s p c b w
  let port := ttOf w % 256
  let r : LogRec :=
    { bp := bpIndex p c b, port := BitVec.ofNat 8 port, val := v,
      en := if fourState s then (if en = v0 then 0 else 1) else en, last := (ttOf w).testBit 15 }
  let s1 := writeSlot p c b v s
  iff (decide (1 ≤ stageOf s p) && logOn s port) (fun x => { x with fab := { x.fab with logs := x.fab.logs ++ [r] } }) s1

/-- A TRAPCHK hit of instance `k` (R33). DESIGN CHOICE (notes/assumptions/92.md): of several hits of a pavilion in one stroke
the first is that of the BP whose command comes first, instance 0 before instance 1. -/
def trapHit (p c b k : Nat) (s : State) : State :=
  let s1 := count (pavA p + 0x218) s
  let s2 := oncePerCourse 1 p (logEvent evTrapchkHit (locBp p c b 0) (k * 2 ^ 15)) s1
  iff (flag s fTrapHalt) (raiseHalt hcTrap) s2

/-- TRAPCHK (R33, R35, R39, R378). -/
def trapEffect (p c b w : Nat) (s : State) : State :=
  let f := evalTable (valsOf s) (BitVec.ofNat 16 (ttOf w)) (operands s p c b w)
  let s1 := writeSlot p c b f s
  if decide (2 ≤ stageOf s p) then
    match valsOf s with
    | .four => iff (f != v0) (trapHit p c b 0) s1
    | .one => iff (f.getLsbD 0) (trapHit p c b 0) s1
    | .pair => iff (f.getLsbD 1) (trapHit p c b 1) (iff (f.getLsbD 0) (trapHit p c b 0) s1)
  else s1

/-! The meanings. -/

/-- NOP (R23); a word whose op code is reserved, which only a miscorrected word can hold, is executed as one
(DESIGN CHOICE, notes/assumptions/83.md). -/
def execNop (p : Pav) (c : Crew) (b : Bp) (s : State) : Res := execBp 0 p c b (fun _ x => x) s
/-- EVAL (R30). -/
def execEval (p : Pav) (c : Crew) (b : Bp) (s : State) : Res :=
  execBp 1 p c b (evalEffect p.toNat c.toNat b.toNat) s
/-- EVAL_HOLD (R31). -/
def execEvalHold (p : Pav) (c : Crew) (b : Bp) (s : State) : Res :=
  execBp 2 p c b (holdEffect p.toNat c.toNat b.toNat) s
/-- WIDE (R53). -/
def execWide (p : Pav) (c : Crew) (b : Bp) (s : State) : Res := execBp 3 p c b (wideEffect p.toNat c.toNat b.toNat) s
/-- SEND (R114). -/
def execSend (p : Pav) (c : Crew) (b : Bp) (s : State) : Res := execBp 4 p c b (sendEffect p.toNat c.toNat b.toNat) s
/-- DRIVE (R60). -/
def execDrive (p : Pav) (c : Crew) (b : Bp) (s : State) : Res :=
  execBp 5 p c b (driveEffect p.toNat c.toNat b.toNat) s
/-- MEMRD (R171); `lat` is the latency that the deep-memory controller would commit (R181). -/
def execMemrd (p : Pav) (c : Crew) (b : Bp) (lat : BitVec 16) (s : State) : Res :=
  execBp 6 p c b (memEffect lat p.toNat c.toNat b.toNat) s
/-- MEMWR (R171). -/
def execMemwr (p : Pav) (c : Crew) (b : Bp) (s : State) : Res :=
  execBp 7 p c b (memEffect 0 p.toNat c.toNat b.toNat) s
/-- PINOUT (R23, R37). -/
def execPinout (p : Pav) (c : Crew) (b : Bp) (s : State) : Res :=
  execBp 8 p c b (pinoutEffect p.toNat c.toNat b.toNat) s
/-- LOG (R444). -/
def execLog (p : Pav) (c : Crew) (b : Bp) (s : State) : Res := execBp 9 p c b (logEffect p.toNat c.toNat b.toNat) s
/-- TRAPCHK (R33). -/
def execTrapchk (p : Pav) (c : Crew) (b : Bp) (s : State) : Res :=
  execBp 10 p c b (trapEffect p.toNat c.toNat b.toNat) s

end Sys2Proof.Machine
end

