-- ==== Sys2Proof/Machine/Memory.lean ====
section
/-! DEFINITION. Design memory (R167 to R202): packing, forming the memory operations of a stroke from their
contributions, delivery, correction, poison and the scrubbers. -/

namespace Sys2Proof.Machine

/-! Stores and packing. -/

/-- Key of a pavilion codeword of bank memory. -/
def bankKey (p i : Nat) : Nat := p * 65536 + i
/-- Key of a codeword of a deep-memory stack. -/
def deepKey (st i : Nat) : Nat := st * 2 ^ 29 + i

/-- A bank codeword. -/
def bankCw (s : State) (k : Nat) : BitVec 72 := look 0 s.bank k
/-- A deep codeword. -/
def deepCw (s : State) (k : Nat) : BitVec 288 := look 0 s.deep k

/-- Cancels pending correction write-backs to a codeword (R188, R192). -/
def cancelBack (deep : Bool) (k : Nat) (s : State) : State :=
  { s with fab := { s.fab with backs := s.fab.backs.filter fun w => !(w.deep == deep && w.key == k) } }

/-- Writes a bank codeword. -/
def setBankCw (k : Nat) (v : BitVec 72) (s : State) : State := { s with bank := upd 0 s.bank k v }
/-- Writes a deep codeword. -/
def setDeepCw (k : Nat) (v : BitVec 288) (s : State) : State := { s with deep := upd 0 s.deep k v }

/-- Writes data to a bank codeword with new check bits; pending write-backs to it are cancelled. -/
def writeBank (k : Nat) (d : BitVec 64) (s : State) : State := cancelBack false k (setBankCw k (encode72 d) s)
/-- A write that no schedule issues: while a stroke is in progress, what the codeword held at its start is kept for the
reads scheduled in it (R173, R177). -/
def writeFree (k : Nat) (d : BitVec 64) (s : State) : State :=
  let keep := fun (x : State) =>
    { x with fab := { x.fab with bankPast := ins x.fab.bankPast k ((find x.fab.bankPast k).getD (bankCw x k)) } }
  writeBank k d (iff (running s) keep s)
/-- A bank codeword as it stood at the start of the stroke. -/
def bankBefore (s : State) (k : Nat) : BitVec 72 := (find s.fab.bankPast k).getD (bankCw s k)
/-- Writes data to a deep codeword with new check bits. -/
def writeDeep (k : Nat) (d : BitVec 256) (s : State) : State := cancelBack true k (setDeepCw k (encodeDeep d) s)

/-- Spreads `n` one-bit values into bit `i` of `n` two-bit values (R174). -/
def spread (n i x : Nat) : Nat :=
  ((List.range n).foldl (fun (acc : Nat × Nat) _ => (acc.1 / 4 + acc.2 % 2 * 4 ^ (n - 1) * 2 ^ i, acc.2 / 2)) (0, x)).1

/-- The data of one instance's codeword as two-bit values of the source (R167, R174). -/
def unpack (k : Vals) (bitsW inst x : Nat) : Nat :=
  match k with
  | .one => spread bitsW 0 x
  | .pair => spread (bitsW / 2) inst (x % 2 ^ (bitsW / 2))
  | .four => x % 2 ^ bitsW

/-- `n` two-bit values, each X. -/
def allX (n : Nat) : Nat := (4 ^ n - 1) / 3 * 2

/-- Merges a read under an X enable: each value stays where it equals the value held, and is X elsewhere (R186). -/
def mergeX (n held new : Nat) : Nat :=
  (List.range n).foldl (fun a i =>
    let v := if held / 4 ^ i % 4 = new / 4 ^ i % 4 then new / 4 ^ i % 4 else 2
    a + v * 4 ^ i) 0

/-! Errors found by reads. -/

/-- Counts a bank read's error, records it in BANK_ERR_LAST (R194) and logs the first correction (R188). `src`: 0 and
1 ports, 2 scrubber, 3 Keeper, host or capture. -/
def recordBank (p i src : Nat) (e : Ecc) (ue : Bool) (s : State) : State :=
  let a := pavA p + 0x618
  let v : Word := BitVec.ofNat 32 (2 ^ 31 + ue.toNat * 2 ^ 30 + src * 2 ^ 28 + e.synd * 2 ^ 20 + i)
  let old := reg s a
  if !old.getLsbD 31 || (ue && !old.getLsbD 30) then setReg a v s else s

/-- A correctable bank read (R188): counted, logged for the first, recorded, and a write-back is queued. -/
def bankCorrected (p i src : Nat) (raw : BitVec 72) (e : Ecc) (s : State) : State :=
  let a := pavA p + 0x600
  let first := ctr s a == 0
  let s1 := recordBank p i src e false (count a s)
  let s2 := iff first (logEvent evMemCe (locPav p 0) 0) s1
  let w : WriteBack :=
    { deep := false, key := bankKey p i, old := raw.setWidth 288, new := BitVec.ofNat 288 e.word }
  { s2 with fab := { s2.fab with backs := s2.fab.backs ++ [w] } }

/-- An uncorrectable bank read (R189): poisoned where it still stands, counted, recorded, and logged for the first of
its source in the pavilion in this course; the scheduled ports share one mark. -/
def bankPoison (p i src inst : Nat) (raw : BitVec 72) (e : Ecc) (s : State) : State :=
  let k := bankKey p i
  let s1 := iff (bankCw s k == raw) (setBankCw k (BitVec.ofNat 72 (poison72 e.data))) s
  let s2 := recordBank p i src e true (count (pavA p + 0x608) s1)
  oncePerCourse (if src < 2 then 3 else 10 + src) p (logEvent evUePoison (locPav p 0) (src + inst * 2 ^ 15)) s2

/-- A read of a bank codeword by the scrubber, the host or the Keeper: its check, and the state after R188 or R189. -/
def bankRead (p i src : Nat) (s : State) : Ecc × State :=
  let raw := bankCw s (bankKey p i)
  let e := check72 raw
  match e.cls with
  | .clean => (e, s)
  | .fixed => (e, bankCorrected p i src raw e s)
  | .bad => (e, bankPoison p i src 0 raw e s)

/-- Data of a deep codeword from its checks, corrected. -/
def deepData (es : List Ecc) : Nat := (es.zipIdx).foldl (fun a (e, j) => a + e.data * 2 ^ (64 * j)) 0

/-- Lowest sub-word that is not clean, uncorrectable ones before correctable ones when the codeword is
uncorrectable, with its syndrome (R199). -/
def deepFault (es : List Ecc) : Nat × Nat :=
  let c := deepClass es
  match es.findIdx? (·.cls == c) with
  | some j => (j, (es.getD j ⟨.clean, 0, 0, 0⟩).synd)
  | none => (0, 0)

/-- Records a deep-memory error in DMEM.ERR_LAST and ERR_ADDR (R199). `src`: 0 scheduled, 1 scrubber, 2 host. -/
def recordDeep (k src port : Nat) (es : List Ecc) (ue : Bool) (s : State) : State :=
  let (j, sy) := deepFault es
  let v : Word := BitVec.ofNat 32 (2 ^ 31 + ue.toNat * 2 ^ 30 + src * 2 ^ 28 + k / 2 ^ 29 % 4 * 2 ^ 26 + j * 2 ^ 24 +
    sy * 2 ^ 16 + (if src = 0 then port * 2 ^ 12 else 0))
  let old := reg s 0xC0030
  if !old.getLsbD 31 || (ue && !old.getLsbD 30) then
    setReg 0xC0034 (BitVec.ofNat 32 (k % 2 ^ 29)) (setReg 0xC0030 v s)
  else s

/-- The pavilion that a deep event of a stack or port names in its location: the one given for a scheduled read; for
an access with no pavilion, the first of the stack's die. -/
def stackPav (st : Nat) : Nat := (pavsOfDie st).headD 0

/-- A correctable deep read (R188). -/
def deepCorrected (k src port pav : Nat) (raw : BitVec 288) (es : List Ecc) (s : State) : State :=
  let first := ctr s 0xC0010 == 0
  let s1 := recordDeep k src port es false (count 0xC0010 s)
  let s2 := iff first (logEvent evMemCe (locPav pav 0) 1) s1
  let w : WriteBack := { deep := true, key := k, old := raw, new := joinDeep (es.map (·.word)) }
  { s2 with fab := { s2.fab with backs := s2.fab.backs ++ [w] } }

/-- An uncorrectable deep read (R189): where the codeword still stands it is rewritten as read, with check bits c[1:0]
of every uncorrectable sub-word inverted. DESIGN CHOICE (notes/assumptions/82.md): a correctable sub-word beside it is no
faulty one, and stays as read. -/
def deepPoison (k src port pav inst : Nat) (raw : BitVec 288) (es : List Ecc) (s : State) : State :=
  let new := joinDeep (es.zipIdx.map fun (e, j) => if e.cls == .bad then poison72 e.data else subword raw j)
  let s1 := iff (deepCw s k == raw) (setDeepCw k new) s
  let s2 := recordDeep k src port es true (count 0xC0018 s1)
  let unit := if src = 0 then port else k / 2 ^ 29
  oncePerCourse (20 + src) unit (logEvent evUePoison (locPav pav 0) (4 + src + inst * 2 ^ 15)) s2

/-- A read of a deep codeword by the scrubber, the host or the Keeper, with the flips `glitch` that its first reading
meets; an uncorrectable reading is taken again once (R189). -/
def deepRead (k src : Nat) (glitch : BitVec 288) (s : State) : List Ecc × State :=
  let raw := deepCw s k
  let pav := stackPav (k / 2 ^ 29)
  let es := checkDeep (raw ^^^ glitch)
  match deepClass es with
  | .clean => (es, s)
  | .fixed => (es, deepCorrected k src 0 pav raw es s)
  | .bad =>
    let es2 := checkDeep raw
    match deepClass es2 with
    | .clean => (es2, count 0xC0028 s)
    | .fixed => (es2, deepCorrected k src 0 pav raw es2 (count 0xC0028 s))
    | .bad => (es2, deepPoison k src 0 pav 0 raw es2 s)

/-! Forming the operations of a stroke. -/

/-- The contributions of one pavilion that name one descriptor. -/
def opGroup (s : State) (p d : Nat) : List Contrib :=
  s.fab.contribs.filter fun c => c.pav.toNat == p && c.desc.toNat == d

/-- The (pavilion, descriptor) pairs that have contributions, in rising order, without repeats. -/
def opNames (s : State) : List (Nat × Nat) :=
  let ks := sortBy id (s.fab.contribs.map fun c => c.pav.toNat * 64 + c.desc.toNat)
  (ks.foldl (fun acc k => if acc.head? == some k then acc else k :: acc) []).reverse.map fun k => (k / 64, k % 64)

/-- Offset of instance `k` (R171). -/
def offsetOf (cs : List Contrib) (k : Nat) : Nat :=
  cs.foldl (fun a c => if c.role = 0 then a + (c.val.getLsbD k).toNat * 2 ^ c.idx.toNat else a) 0

/-- An address bit is X or Z (R186). -/
def addrVague (cs : List Contrib) : Bool := cs.any fun c => c.role == 0 && vague c.val

/-- The enable: 1 without an enable contribution (R171). -/
def enableOf (cs : List Contrib) : BitVec 2 :=
  match cs.find? fun c => c.role == 2 with
  | some c => c.val
  | none => 3

/-- The packed write data of instance `k` (R167). -/
def dataOf (kind : Vals) (cs : List Contrib) (k : Nat) : Nat :=
  cs.foldl (fun a c =>
    if c.role = 1 then
      match kind with
      | .four => a ||| c.val.toNat * 4 ^ c.idx.toNat
      | _ => a ||| (c.val.getLsbD k).toNat * 2 ^ c.idx.toNat
    else a) 0

/-- What the address of an instance names: a codeword key, or nothing that exists (R158, R168, R191). -/
def target (s : State) (p : Nat) (deep : Bool) (entry : BitVec 64) (index : Nat) : Option Nat :=
  let size := bits entry 0 22 * (if deep then 256 else 1)
  let base := bits entry 22 22
  if index ≥ size then none
  else if deep then some (deepKey (terraceOf p / 4) (256 * base + index))
  else if bankState s p ((base + index) / 1024 % 64) = 0 then some (bankKey p ((base + index) % 65536)) else none

/-- An operation outside its allocation (R158): counted, recorded, logged once per pavilion and course, and a halt
under alloc_halt. -/
def outOfAlloc (p d desc inst : Nat) (s : State) : State :=
  let alloc := desc / 2 ^ 51 % 512
  let v : Word := BitVec.ofNat 32 (2 ^ 31 + desc / 2 ^ 62 % 2 * 2 ^ 30 + desc / 2 ^ 60 % 4 * 2 ^ 28 + d * 2 ^ 22 +
    inst * 2 ^ 21 + alloc * 2 ^ 10 + s.cox.stroke)
  let s1 := recordFirst (pavA p + 0x708) v (count (pavA p + 0x700) s)
  let s2 := oncePerCourse 2 p (logEvent evOutOfAllocation (locPav p d) (alloc + inst * 2 ^ 15)) s1
  iff (flag s fAllocHalt) (raiseHalt hcOther) s2

/-- A write dropped for an X address (R186). -/
def xAddress (p d : Nat) (s : State) : State :=
  oncePerCourse 4 p (logEvent evMemXAddress (locPav p d) 0) (count (pavA p + 0x610) s)

/-- The instances of an operation and their index within the allocation (R168). -/
def instIndex (s : State) (cs : List Contrib) : List (Nat × Nat) :=
  if fleet s then [(0, 2 * offsetOf cs 0), (1, 2 * offsetOf cs 1 + 1)] else [(0, offsetOf cs 0)]

/-- The write of one instance. -/
def performWrite (p d desc : Nat) (cs : List Contrib) (inst idx : Nat) (s : State) : State :=
  let deep := desc / 2 ^ 60 % 4 == 2
  let en := enableOf cs
  let kind := valsOf s
  let go := if kind == .four then en != v0 else en.getLsbD inst
  if !go then s
  else if kind == .four && addrVague cs then xAddress p d s
  else
    match target s p deep (alloc s (desc / 2 ^ 51 % 512)) idx with
    | none => outOfAlloc p d desc inst s
    | some k =>
      let n := if deep then 128 else 32
      let x := if kind == .four && vague en && cs.any (fun c => c.role == 2) then allX n else dataOf kind cs inst
      if deep then writeDeep k (BitVec.ofNat 256 x) s else writeBank k (BitVec.ofNat 64 x) s

/-- The request for Easy of a deep read whose committed tick lies after its due stroke (R83, R181, R184). -/
def dmemAsk (terr : Nat) (tick : Nat) (s : State) : State :=
  if s.cox.mode == .tethered || tick ≤ wall s + Config.dmemSlack then s
  else
    let r : EasyReq :=
      { origin := BitVec.ofNat 4 (position s), cause := 1, unit := terr, p := gOf s + Config.dmemSlack,
        kind := .tick tick }
    { s with cox := { s.cox with raised := s.cox.raised ++ [r] } }

/-- The outcome of one instance of a read: whether it delivers, and the codeword read (R158, R186). -/
def readInst (s : State) (p d desc : Nat) (cs : List Contrib) (inst idx : Nat) (x : State) :
    Bool × Option Nat × State :=
  let deep := desc / 2 ^ 60 % 4 == 2
  let en := enableOf cs
  let four := valsOf s == .four
  let go := if four then en != v0 else en.getLsbD inst
  if !go then (false, none, x)
  else if four && addrVague cs then (true, none, x)
  else
    match target s p deep (alloc s (desc / 2 ^ 51 % 512)) idx with
    | none => (true, none, outOfAlloc p d desc inst x)
    | some k => (true, some k, x)

/-- The read of one operation (R173, R174): the codewords as they stand at issue, due BANK_LAT or DMEM_SLACK later. -/
def performRead (p d desc : Nat) (cs : List Contrib) (s : State) : State :=
  let port := desc / 2 ^ 60 % 4
  let ix := instIndex s cs
  let (g0, k0, s1) := readInst s p d desc cs 0 (ix.headD (0, 0)).2 s
  let (g1, k1, s2) := if fleet s then readInst s p d desc cs 1 ((ix.getD 1 (1, 0)).2) s1 else (false, none, s1)
  if !g0 && !g1 then s2
  else
    let inst : BitVec 2 := BitVec.ofNat 2 (g0.toNat + 2 * g1.toNat)
    let merge := fourState s && vague (enableOf cs) && cs.any (fun c => c.role == 2)
    if port < 2 then
      let r : BankRead :=
        { pav := BitVec.ofNat 7 p, port := BitVec.ofNat 1 port, due := gOf s + Config.bankLat, cw0 := k0, cw1 := k1,
          raw0 := (k0.map (bankBefore s)).getD 0, raw1 := (k1.map (bankBefore s)).getD 0, inst := inst, merge := merge }
      { s2 with fab := { s2.fab with bankRds := s2.fab.bankRds ++ [r] } }
    else
      let lat := cs.foldl (fun m c => max m c.lat.toNat) 0
      let issued := k0.isSome || k1.isSome
      let t := terraceOf p
      let r : DeepRead :=
        { terr := BitVec.ofNat 4 t, pav := BitVec.ofNat 7 p, due := gOf s + Config.dmemSlack, tick := wall s + lat,
          cw0 := k0, cw1 := k1, raw0 := (k0.map (deepCw s)).getD 0, raw1 := (k1.map (deepCw s)).getD 0, inst := inst,
          merge := merge, stage := if issued then .issued else .arrived,
          data := if fourState s then BitVec.ofNat 512 (allX 256) else 0 }
      let s3 := { s2 with fab := { s2.fab with deepRds := s2.fab.deepRds ++ [r] } }
      if issued then
        let f : Fld := ⟨0xC0040 + 4 * t, 0, 16⟩
        dmemAsk t (wall s + lat) (setFld f (max (fld s3 f) (min lat 0xFFFF)) s3)
      else s3

/-- The codeword of a descriptor is uncorrectable. -/
def descBroken (s : State) (p d : Nat) : Bool :=
  (check72 (look 0 s.cfg (cfgKey (frameKey 5 p 0 0 15) d))).cls == .bad

/-- The contributions of an operation as the memory takes them: with an uncorrectable descriptor each counts as one of an
uncorrectable schedule word does, 0, or X in FOURSTATE (R43, R159, R172; DEDUCED, notes/assumptions/84.md). -/
def contribsOf (s : State) (p d : Nat) : List Contrib :=
  let cs := opGroup s p d
  if descBroken s p d then cs.map fun c => { c with val := if fourState s then vX else v0 } else cs

/-- An operation whose descriptor is uncorrectable: counted, and its frame recovered, as R43 has it (R159). -/
def descError (s : State) (name : Nat × Nat) : State :=
  let p := name.1
  iff (descBroken s p name.2)
    (fun x => careError p 0 0 2 (frameKey 5 p 0 0 15) (count (pavA p + 0x208) x)) s

/-- One operation of the stroke, a read or a write by its descriptor. -/
def performOp (write : Bool) (port : Nat) (s : State) (name : Nat × Nat) : State :=
  let p := name.1
  let d := name.2
  let desc := descriptor s p d
  let cs := contribsOf s p d
  if descOk desc && (desc.testBit 62 == write) && desc / 2 ^ 60 % 4 == port then
    if write then (instIndex s cs).foldl (fun x i => performWrite p d desc cs i.1 i.2 x) s
    else performRead p d desc cs s
  else s

/-- All memory operations of the stroke (R151, R173): reads before writes, port 0 before port 1, and deep writes in
the order of their terraces. DESIGN CHOICE (notes/assumptions/82.md): this is also the order in which the first
operation outside its allocation is found (R158, R166). -/
def memoryOps (s : State) : State :=
  let names := opNames s
  let byTerr := sortBy (fun a => terraceOf a.1) names
  let s0 := names.foldl descError s
  let s1 := [0, 1, 2].foldl (fun x port => names.foldl (performOp false port) x) s0
  let s2 := [0, 1].foldl (fun x port => names.foldl (performOp true port) x) s1
  let s3 := byTerr.foldl (performOp true 2) s2
  { s3 with fab := { s3.fab with contribs := [] } }

/-! Delivery. -/

/-- A design read of an uncorrectable codeword halts in the two-state modes unless ue_continue (R189). -/
def poisonHalt (s : State) : State :=
  iff (!fourState s && !flag s fDmemUeCont) (raiseHalt hcPoison) s

/-- The check of one instance of a bank read, with the values it delivers. -/
def bankInst (r : BankRead) (k : Option Nat) (raw : BitVec 72) (inst : Nat) (s : State) : Nat × State :=
  match k with
  | none => ((blank s 64).toNat, s)
  | some key =>
    let e := check72 raw
    let p := r.pav.toNat
    let i := key % 65536
    let vals := unpack (valsOf s) 64 inst e.data
    match e.cls with
    | .clean => (vals, s)
    | .fixed => (vals, bankCorrected p i r.port.toNat raw e s)
    | .bad => (if fourState s then allX 64 else vals, poisonHalt (bankPoison p i r.port.toNat inst raw e s))

/-- Puts the instances' values into a source of `n` values (R174, R186). -/
def mixSource (s : State) (n : Nat) (inst : BitVec 2) (merge : Bool) (held a b : Nat) : Nat :=
  match valsOf s with
  | .pair =>
    let low := (4 ^ n - 1) / 3
    (if inst.getLsbD 0 then a &&& low else held &&& low) ||| (if inst.getLsbD 1 then b &&& (low * 2) else held &&& (low * 2))
  | _ => if merge then mergeX n held a else a

/-- A bank read's result enters its port's read-data source (R174, R175). -/
def deliverBank (r : BankRead) (s : State) : State :=
  let s0 := { s with fab := { s.fab with bankRds := s.fab.bankRds.erase r } }
  let (a, s1) := if r.inst.getLsbD 0 then bankInst r r.cw0 r.raw0 0 s0 else (0, s0)
  let (b, s2) := if r.inst.getLsbD 1 && fleet s then bankInst r r.cw1 r.raw1 1 s1 else (0, s1)
  let key := r.pav.toNat * 2 + r.port.toNat
  let held := (look (blank s 64) s.fab.bankSrc key).toNat
  let v := BitVec.ofNat 128 (mixSource s 64 r.inst r.merge held a b)
  { s2 with fab := { s2.fab with bankSrc := ins s2.fab.bankSrc key v } }

/-- The bank read of a port whose due stroke is the one in progress. -/
def dueBank (s : State) (p port : Nat) : Option BankRead :=
  s.fab.bankRds.find? fun r => r.pav.toNat == p && r.port.toNat == port && r.due == gOf s

/-- BANK_READ_DELIVER (R175): at the start of stroke s + 3, before any BP executes. -/
def execBankReadDeliver (p : Pav) (port : BitVec 1) (s : State) : Res :=
  match running s && s.fab.retired.isEmpty, dueBank s p.toNat port.toNat with
  | true, some r => .next (deliverBank r s)
  | _, _ => .next s

/-- The check of one instance of a deep read on arrival, with the values it will deliver (R189). -/
def deepInst (r : DeepRead) (k : Option Nat) (raw glitch : BitVec 288) (inst : Nat) (s : State) : Nat × State :=
  match k with
  | none => ((blank s 256).toNat, s)
  | some key =>
    let t := r.terr.toNat
    let p := r.pav.toNat
    let es := checkDeep (raw ^^^ glitch)
    let vals := fun es => unpack (valsOf s) 256 inst (deepData es)
    match deepClass es with
    | .clean => (vals es, s)
    | .fixed => (vals es, deepCorrected key 0 t p raw es s)
    | .bad =>
      let es2 := checkDeep raw
      match deepClass es2 with
      | .clean => (vals es2, count 0xC0028 s)
      | .fixed => (vals es2, deepCorrected key 0 t p raw es2 (count 0xC0028 s))
      | .bad => (if fourState s then allX 256 else unpack (valsOf s) 256 inst (bits raw 0 256), poisonHalt (deepPoison key 0 t p inst raw es2 s))

/-- Replaces a deep read in the list. -/
def setDeepRead (old : DeepRead) (new : Option DeepRead) (s : State) : State :=
  { s with fab := { s.fab with deepRds :=
      match new with
      | some n => s.fab.deepRds.map fun x => if x = old then n else x
      | none => s.fab.deepRds.erase old } }

/-- A deep read returns from its stack into the port's return buffer, or is discarded if its due stroke has passed
(R86, R89, R185, R189). -/
def arriveDeep (r : DeepRead) (glitch : BitVec 288) (s : State) : State :=
  if r.stage = .missed then setDeepRead r none s
  else
    let (a, s1) := deepInst r r.cw0 r.raw0 (if r.cw0.isSome then glitch else 0) 0 s
    let (b, s2) := if fleet s then deepInst r r.cw1 r.raw1 (if r.cw0.isSome then 0 else glitch) 1 s1 else (0, s1)
    let low := (4 ^ 256 - 1) / 3
    let d := if fleet s then (a &&& low) ||| (b &&& (low * 2)) else a
    setDeepRead r (some { r with stage := .arrived, data := BitVec.ofNat 512 d }) s2

/-- DMEM_RESULT_ARRIVE (R86): the oldest read of the terrace's port that has not returned. `glitch` holds the flips
that its first reading meets. -/
def execDmemResultArrive (t : BitVec 4) (glitch : BitVec 288) (s : State) : Res :=
  match s.fab.deepRds.find? fun r => r.terr == t && r.stage != .arrived with
  | some r => .next (arriveDeep r glitch s)
  | none => .next s

/-- A deep result that is not present at its due stroke (R89, R185). -/
def missDeep (r : DeepRead) (s : State) : State :=
  let t := r.terr.toNat
  let p := r.pav.toNat
  let s1 := setDeepRead r (some { r with stage := .missed }) s
  if s.cox.mode == .tethered then
    let s2 := { s1 with fab := { s1.fab with deepSrc := ins s1.fab.deepSrc p 0 } }
    let s3 := oncePerCourse 5 t (logEvent evLate (locUnit t 0) p) (count 0xC0020 s2)
    iff (flag s fDmemLateHalt) (raiseHalt hcOther) s3
  else raiseHalt hcEasyMiss (logEvent evEasyMiss (locPav p 0) t s1)

/-- A deep result moves from the return buffer into the pavilion's deep read-data source (R174). -/
def deliverDeep (r : DeepRead) (s : State) : State :=
  let p := r.pav.toNat
  let held := (look (blank s 256) s.fab.deepSrc p).toNat
  let v := BitVec.ofNat 512 (mixSource s 256 r.inst r.merge held r.data.toNat r.data.toNat)
  setDeepRead r none { s with fab := { s.fab with deepSrc := ins s.fab.deepSrc p v } }

/-- The deep read of a terrace's port whose due stroke is the one in progress. -/
def dueDeep (s : State) (t : BitVec 4) : Option DeepRead :=
  s.fab.deepRds.find? fun r => r.terr == t && r.due == gOf s && r.stage != .missed

/-- DMEM_RESULT_DELIVER (R174): at the start of the due stroke, before any BP executes. -/
def execDmemResultDeliver (t : BitVec 4) (s : State) : Res :=
  match running s && s.fab.retired.isEmpty, dueDeep s t with
  | true, some r => .next (if r.stage = .arrived then deliverDeep r s else missDeep r s)
  | _, _ => .next s

/-! Scrubbers (R190). -/

/-- The pavilion's bank memory is walked: enabled, local port LIVE or DEAD. -/
def walked (s : State) (p : Nat) : Bool :=
  enabled s p && (portState s p == .live || portState s p == .dead)

/-- The first codeword at or after position `n` (pavilion × 65,536 + index) that the bank scrubber walks. -/
def nextBankItem (s : State) (n : Nat) : Option Nat :=
  let p0 := n / 65536
  let b0 := n % 65536 / 1024
  if p0 < 128 ∧ walked s p0 ∧ bankState s p0 b0 = 0 then some n
  else
    let cand := (List.range (128 - min p0 128)).flatMap fun dp =>
      let p := p0 + dp
      if walked s p then
        ((List.range 64).filter fun b => bankState s p b == 0 && (decide (p0 < p) || decide (b0 < b))).map fun b =>
          p * 65536 + b * 1024
      else []
    cand.head?

/-- Adds a completed pass to a half of SCB.MEM_PASSES (R202). -/
def memPass (lo : Nat) (s : State) : State :=
  let f : Fld := ⟨0x60110, lo, 16⟩
  setFld f (stick 0xFFFF (fld s f) 1) s

/-! Bank memory as packets and the host write it (R179, R302). -/

/-- The index of a codeword past the end of the pavilion's memory, or in a bank that is not on, answers with a code. -/
def bankRefuses (s : State) (p i : Nat) : Option Nat :=
  if 65536 ≤ i then some ccOutOfAlloc
  else if bankState s p (i / 1024) != 0 then some ccWakeTimeout
  else none

/-- Writes codewords from `i` up; the code of the first that cannot be written stops it. The count is of those
written. -/
def writeCws (p : Nat) : List (BitVec 64) → Nat → State → Nat × Option Nat × State
  | [], _, s => (0, none, s)
  | w :: ws, i, s =>
    match bankRefuses s p i with
    | some c => (0, some c, s)
    | none =>
      let (n, c, s1) := writeCws p ws (i + 1) (writeFree (bankKey p i) w s)
      (n + 1, c, s1)

end Sys2Proof.Machine
end

