-- ==== Sys2Proof/Machine/Trigger.lean ====
section
/-! DEFINITION. Triggers, capture and measurement (R412 to R437). -/

namespace Sys2Proof.Machine

def fTrgHit : Fld := ⟨0x80008, 0, 16⟩
def fArmErr : Fld := ⟨0x80004, 23, 2⟩
def fRecValid : Fld := ⟨0x80020, 31, 1⟩
def fRecGap : Fld := ⟨0x80020, 28, 1⟩
def fDensTail : Fld := ⟨0x80040, 0, 16⟩
def fDensHead : Fld := ⟨0x8003C, 0, 16⟩

/-! Taps (R412). -/

/-- Pavilions with a type 6 frame in the image, rising. -/
def probePavs (s : State) : List Nat :=
  match image s with
  | some i => (i.frames.filter fun f => bits f.addr 28 4 == 6).map fun f => bits f.addr 21 7
  | none => []

/-- 64-bit word `w` of a pavilion's type 6 frame. -/
def probeWord (s : State) (p w : Nat) : Nat := cfgData s (cfgKey (frameKey 6 p 0 0 0) w)

/-- Tap `t` of a pavilion. -/
def tapOf (s : State) (p t : Nat) : Nat := probeWord s p (8 + t / 2) / 2 ^ (32 * (t % 2)) % 2 ^ 32
/-- The tap is valid. -/
def tapValid (s : State) (p t : Nat) : Bool := (tapOf s p t).testBit 31
/-- The pavilion has a valid tap. -/
def hasTaps (s : State) (p : Nat) : Bool := (List.range 64).any (tapValid s p)
/-- The sample stroke S (R412). -/
def sampleStroke (s : State) : Nat :=
  match probePavs s with
  | p :: _ => probeWord s p 0 % 1024
  | [] => 0

/-- The value that a tap samples (R414). -/
def tapValue (s : State) (p t : Nat) : BitVec 2 :=
  let x := tapOf s p t
  if x.testBit 31 then slot s p (x / 2 ^ 20 % 64) (x / 2 ^ 16 % 16) (x % 1024) else 0

/-- The sample of a pavilion in the form of the mode (R414). -/
def sampleOf (s : State) (p : Nat) : BitVec 128 :=
  (List.range 64).foldl (fun a t =>
    if twoBit s then a ||| BitVec.ofNat 128 ((tapValue s p t).toNat * 4 ^ t)
    else putBit a t ((tapValue s p t).getLsbD 0)) 0

/-- A tap of a sample as one instance sees it; none for X or Z (R415, R426); what has no valid tap
samples 0 (R414). -/
def tapIn (s : State) (m : Sparse (BitVec 128)) (p t inst : Nat) : Option Bool :=
  match find m p with
  | none => some false
  | some v =>
    if fleet s then some (v.getLsbD (2 * t + inst))
    else if fourState s then (if v.getLsbD (2 * t + 1) then none else some (v.getLsbD (2 * t)))
    else some (v.getLsbD t)

/-! Capture rings (R421). -/

/-- Codewords of a sample. -/
def sampleWords (s : State) : Nat := if twoBit s then 2 else 1

/-- Banks of a pavilion's capture ring. -/
def capBanks (s : State) (p : Nat) : List Nat := (List.range 64).filter fun b => (probeWord s p 1).testBit b

/-- Samples that a pavilion's ring can hold. -/
def capSize (s : State) (p : Nat) : Nat := 1024 * (capBanks s p).length / sampleWords s

/-- TRG.STATUS.max_depth (R421, R429). -/
def maxDepth (s : State) : Nat :=
  match (probePavs s).filter (hasTaps s) with
  | [] => 0
  | p :: ps => min 0x1FFFF (ps.foldl (fun m q => min m (capSize s q)) (capSize s p))

/-- Bank-memory key of codeword `j` of a sample at a ring position. -/
def capKey (s : State) (p pos j : Nat) : Option Nat :=
  let x := pos * sampleWords s + j
  ((capBanks s p)[x / 1024]?).map fun b => bankKey p (b * 1024 + x % 1024)

/-! Arming and firing (R416 to R420). -/

/-- A broken capture setting, as arm_err (R417). -/
def armErr (s : State) : Nat :=
  let depth := bits (reg s 0x80014) 0 17
  let pre := bits (reg s 0x80010) 16 16
  let post := bits (reg s 0x80010) 0 16
  if depth > maxDepth s then 1 else if depth < pre + post + 6 then 2 else if s.ldr.stage = 0 then 3 else 0

/-- ARM with value bit 0 = 1 is received (R417, R420). -/
def armReceived (a : Nat) (s : State) : State :=
  let e := armErr s
  if e ≠ 0 then logEvent evCaptureCfgErr locNone e (setFld fArmErr e s)
  else
    let st := match s.trg.st with
      | .armed => TrgState.armed
      | .fired => .fired
      | _ => .arming
    let s1 := setFld fArmErr 0 s
    { s1 with trg := { s1.trg with st := st, armAt := some a, win := reg s 0x80010, depth := bits (reg s 0x80014) 0 17 } }

/-- ARM with value bit 0 = 0 is received: capture returns to IDLE (R417, R420). -/
def disarmReceived (s : State) : State :=
  { s with trg := { s.trg with st := .idle, armAt := none, waiting := false, raised := [], sent := none, fire := none,
                               accepted := false, haltAt := none, writes := [] } }

/-- ARM takes effect in the course that starts (R417): sequencer in state 0, hits and ring cleared, ARMED. -/
def armTakesEffect (s : State) : State :=
  match s.trg.armAt with
  | none => s
  | some a =>
    if course s < a then s
    else
      let s1 := setReg 0x80020 0 (setFld fTrgHit 0 s)
      { s1 with trg := { s1.trg with st := .armed, seq := 0, stopped := false, armAt := none, taken := 0, met := 0,
                                     waiting := false, writes := [], raised := [], sent := none, fire := none,
                                     accepted := false, preAtFire := 0, haltAt := none, frozen := false } }

/-- A FIRE of this package goes toward the master (R418); the sequencer stops. At the master itself it reaches the
controller with the command FIRE. -/
def raiseFire (hits c : Nat) (forced haltAfter : Bool) (s : State) : State :=
  let m : CoxMsg :=
    { coxMsg s with stroke := BitVec.ofNat 10 (sampleStroke s), course := BitVec.ofNat 64 c,
                    value := BitVec.ofNat 64 (hits + forced.toNat * 2 ^ 16 + haltAfter.toNat * 2 ^ 17) }
  if isMaster s then { s with trg := { s.trg with raised := s.trg.raised ++ [m], stopped := true } }
  else emit (.cox 7 m) { s with trg := { s.trg with stopped := true } }

/-- The sample of course `c` has been written to the rings, or given up. -/
def sampleWritten (s : State) (c : Nat) : Bool :=
  decide (0 < s.trg.taken) && (decide (c < s.trg.course) || (c == s.trg.course && s.trg.writes.isEmpty))

/-- The record is complete once the sample of course *c* + post has been written (R420). -/
def tryDone (s : State) : State :=
  match s.trg.st, s.trg.fire with
  | .fired, some m =>
    let post := bits s.trg.win 0 16
    let pre := min (bits s.trg.win 16 16) s.trg.preAtFire
    let n := pre + post + 1
    if sampleWritten s (m.course.toNat + post) then
      let s1 := setReg 0x8002C (BitVec.ofNat 32 (pre * 2 ^ 16 + n % 2 ^ 16)) (setWide 0x80024 m.course
        (setFlag fRecValid true s))
      logEvent evCaptureDone locNone n { s1 with trg := { s1.trg with st := .done, frozen := true } }
    else s
  | _, _ => s

/-- The package acts on the master's FIRE (R418, R420). -/
def fireReceived (m : CoxMsg) (s : State) : State :=
  if s.trg.st == .armed then
    let c := m.course.toNat
    let before := if c ≤ s.trg.course then s.trg.taken - (s.trg.course - c + 1) else s.trg.taken
    let v := m.value.toNat
    let rec_ : Word := BitVec.ofNat 32 ((v / 2 ^ 16 % 2) * 2 ^ 30 + (v / 2 ^ 17 % 2) * 2 ^ 29 +
      (bits (reg s 0x80020) 28 1) * 2 ^ 28 + m.origin.toNat * 2 ^ 24 + v % 2 ^ 16)
    let s1 := setReg 0x80020 rec_ s
    let s2 := { s1 with trg := { s1.trg with st := .fired, fire := some m, stopped := true, preAtFire := before } }
    tryDone (logEvent evTriggerFired locNone (m.origin.toNat + v / 2 ^ 16 % 2 * 16) s2)
  else s

/-- The master sends the FIRE that it has accepted on. One with halt_after raises its halt in this stroke, or at the
decision stroke of the record's last sample if that comes later (R418). -/
def sendFire (m : CoxMsg) (s : State) : State :=
  let s1 := iff (onBoard s) (emit (.cox 7 m)) s
  let g := (m.course.toNat + bits s.trg.win 0 16) * s.cox.length + m.stroke.toNat + 8
  if !m.value.getLsbD 17 then s1
  else if g ≤ gOf s then raiseHalt hcOther s1
  else { s1 with trg := { s1.trg with haltAt := some g } }

/-- FIREs that arrive in one stroke are ordered by lower course and then by lower origin (R418). -/
def fireBefore (a b : CoxMsg) : Bool := decide (a.course < b.course ∨ (a.course = b.course ∧ a.origin < b.origin))

/-- A FIRE reaches the master: the first after arming is accepted, of those of one stroke the first in their order; any
other is ignored and counted (R418). It goes on at the end of the stroke, and where no stroke is in progress at once. -/
def fireAtMaster (m : CoxMsg) (s : State) : State :=
  let s0 := { s with trg := { s.trg with raised := s.trg.raised.erase m } }
  let ignored := count 0x80058 s0
  if s.trg.st != .armed then ignored
  else if !s.trg.accepted then
    if running s then { s0 with trg := { s0.trg with accepted := true, sent := some (m, gOf s) } }
    else fireReceived m (sendFire m { s0 with trg := { s0.trg with accepted := true } })
  else match s.trg.sent with
    | some (o, g) =>
      if g = gOf s ∧ running s ∧ fireBefore m o then { ignored with trg := { ignored.trg with sent := some (m, g) } }
      else ignored
    | none => ignored

/-- The end of a stroke: the master sends on the FIRE that it accepted in it, and acts itself on the one that it sent D
strokes ago (R418). -/
def fireTick (s : State) : State :=
  match s.trg.sent with
  | none => s
  | some (m, g) =>
    let s1 := iff (g == gOf s) (sendFire m) s
    iff (decide (g + fld s fReachDown ≤ gOf s))
      (fun x => fireReceived m { x with trg := { x.trg with sent := none } }) s1

/-! Conditions (R415, R416). -/

/-- The 64-bit MASK or VALUE of a condition. -/
def condWide (s : State) (a : Nat) : BitVec 64 := (reg s (a + 4) ++ reg s a : BitVec 64)

/-- Condition `c` is met in the sample just taken. -/
def condMet (s : State) (c : Nat) : Bool :=
  let a := condA c
  let cfg := reg s a
  let arg := reg s (a + 4)
  let inst := bits cfg 25 1
  let pav := bits arg 16 7
  let mask := condWide s (a + 8)
  let value := condWide s (a + 16)
  match bits cfg 28 3 with
  | 0 => (ones mask).all fun t => tapIn s s.trg.cur pav t inst == some (value.getLsbD t)
  | 1 =>
    let t := bits arg 0 6
    let e := bits cfg 26 2
    s.trg.havePrev && decide (1 < s.trg.taken) &&
      (match tapIn s s.trg.prev pav t inst, tapIn s s.trg.cur pav t inst with
       | some false, some true => e == 1 || e == 3
       | some true, some false => e == 2 || e == 3
       | _, _ => false)
  | 2 => course s == value.toNat
  | 3 =>
    let port := bits arg 0 12
    let s0 := sampleStroke s
    let hi := course s * s.cox.length + s0
    s.trg.landings.any fun (p, i, g) =>
      p.toNat == port && (!fleet s || i.toNat == inst) && decide (hi ≤ g + s.cox.length ∧ g < hi)
  | _ => false

/-- A condition is in use and active in the sequencer's state (R416). -/
def condActive (s : State) (c : Nat) : Bool :=
  let cfg := reg s (condA c)
  s.trg.st == .armed && !s.trg.stopped && cfg.getLsbD 31 && (bits cfg 16 8).testBit s.trg.seq

/-- Evaluates every active condition on the sample: TRG.HIT, HITS, and the set that the decision will see. -/
def evalConds (s : State) : State :=
  let met := (List.range 16).filter fun c => condActive s c && condMet s c
  let m := met.foldl (fun a c => a + 2 ^ c) 0
  let s1 := setReg 0x80008 (reg s 0x80008 ||| BitVec.ofNat 32 m) s
  let s2 := met.foldl (fun x c => count (condA c + 0x18) x) s1
  { s2 with trg := { s2.trg with met := BitVec.ofNat 16 m, waiting := s.trg.st == .armed || s.trg.st == .fired } }

/-- The action of condition `c` (R416). -/
def condAction (c : Nat) (s : State) : State :=
  let cfg := reg s (condA c)
  let s1 := { s with trg := { s.trg with seq := bits cfg 13 3 } }
  match bits cfg 11 2 with
  | 1 => raiseFire s.trg.met.toNat s.trg.course false false s1
  | 2 => raiseFire s.trg.met.toNat s.trg.course false true s1
  | 3 => raiseHalt hcOther (logEvent evTriggerHalt locNone c s1)
  | _ => s1

/-- Absolute stroke of the decision on the last sample (R416). -/
def decisionStroke (s : State) : Nat := s.trg.course * s.cox.length + sampleStroke s + 8

/-- The decision at stroke S + 8: the sequencer's action, and the halt of a FIRE_HALT whose record is complete. -/
def decide8 (s : State) : State :=
  let s1 := { s with trg := { s.trg with waiting := false } }
  let s2 := if s.trg.st == .armed && !s.trg.stopped then
      match (List.range 16).find? fun c => s.trg.met.getLsbD c with
      | some c => condAction c s1
      | none => s1
    else s1
  match s2.trg.haltAt with
  | some g => if g ≤ gOf s2 then raiseHalt hcOther { s2 with trg := { s2.trg with haltAt := none } } else s2
  | none => s2

/-! Toggle density (R424, R425). -/

/-- Key of a density count: pavilion, instance, tap, and 0 for toggles or 1 for X. -/
def densKey (p inst t kind : Nat) : Nat := ((p * 2 + inst) * 64 + t) * 2 + kind

/-- The word of one tap in a density entry. -/
def densTap (s : State) (p inst t : Nat) : Nat :=
  let q := fun kind => 256 * look 0 s.trg.dens (densKey p inst t kind) / s.trg.densN
  q 0 + (if fourState s then q 1 * 2 ^ 16 else 0)

/-- A density entry (R425). -/
def densEntry (s : State) (p inst : Nat) (cut : Bool) : List (BitVec 64) :=
  let flags := inst + (fourState s).toNat * 2 + cut.toNat * 4
  [BitVec.ofNat 64 s.trg.densFirst, BitVec.ofNat 64 (p + s.trg.densK * 256 + flags * 65536),
   BitVec.ofNat 64 s.trg.densN, 0, 0, 0, 0, 0] ++
    (List.range 32).map fun i => BitVec.ofNat 64 (densTap s p inst (2 * i) + densTap s p inst (2 * i + 1) * 2 ^ 32)

/-- Writes one density entry, or discards it on a full ring (R425). -/
def densWrite (p inst : Nat) (cut : Bool) (s : State) : State :=
  let lg := bits (reg s 0x80030) 0 5
  if lg < 8 ∨ 16 < lg then s
  else
    let n := 2 ^ lg
    let tail := fld s fDensTail % n
    if (tail + 1) % n = fld s fDensHead % n then
      let first := ctr s 0x80048 == 0
      iff first (logEvent evDensOverflow locNone 0) (count 0x80048 s)
    else
      let base := ringBase s 0x80034
      setFld fDensTail ((tail + 1) % n)
        (emit (.hostWrite (base + BitVec.ofNat 64 (320 * tail)) (densEntry s p inst cut)) s)

/-- A density window ends: its entries are written in pavilion order, instance 0 first (R424, R425). -/
def densEnd (cut : Bool) (s : State) : State :=
  let s1 := if s.trg.densOn && decide (0 < s.trg.densN) then
      (sortBy id ((probePavs s).filter (hasTaps s))).foldl (fun x p =>
        (List.range (instances s)).foldl (fun y i => densWrite p i cut y) x) s
    else s
  { s1 with trg := { s1.trg with dens := [], densN := 0, densOn := false } }

/-- The last course of the window in progress has been sampled. -/
def densFull (s : State) : Bool := s.trg.densOn && decide (s.trg.densFirst + 2 ^ s.trg.densK ≤ s.trg.course + 1)

/-- Adds one to a density count. -/
def densAdd (k : Nat) (d : Sparse Nat) : Sparse Nat := upd 0 d k (look 0 d k + 1)

/-- Counts of one tap in the sample just taken. -/
def densTally (s : State) (d : Sparse Nat) (pit : Nat × Nat × Nat) : Sparse Nat :=
  let (p, i, t) := pit
  if !tapValid s p t then d
  else match (if s.trg.havePrev then tapIn s s.trg.prev p t i else none), tapIn s s.trg.cur p t i with
    | some a, some b => if a != b then densAdd (densKey p i t 0) d else d
    | _, none => densAdd (densKey p i t 1) d
    | none, some _ => d

/-- Density takes the sample of the course: a window opens at a multiple of 2^k. -/
def densSample (s : State) : State :=
  let cfg := reg s 0x80030
  if !cfg.getLsbD 31 then s
  else
    let s0 := iff (densFull { s with trg := { s.trg with course := s.trg.course - 1 } }) (densEnd false) s
    let k := min 24 (bits cfg 16 5)
    let s1 := if !s0.trg.densOn && course s0 % 2 ^ k == 0 then
        { s0 with trg := { s0.trg with densOn := true, densFirst := course s0, densK := k, densN := 0, dens := [] } }
      else s0
    if s1.trg.densOn then
      let its := (probePavs s1).flatMap fun p => (List.range (instances s1)).flatMap fun i =>
        (List.range 64).map fun t => (p, i, t)
      { s1 with trg := { s1.trg with densN := s1.trg.densN + 1, dens := its.foldl (densTally s1) s1.trg.dens } }
    else s1

/-! Measurement units (R426). -/

/-- A unit's working values as it is enabled. -/
def measNew : Meas := { prev := none, run := 0, n0 := 0, n1 := 0, rise := none, any := false }

/-- Stores the length of a completed run. -/
def measRun (u : Nat) (m : Meas) (s : State) : State :=
  match m.prev with
  | some true => setReg (measA u + 8) (BitVec.ofNat 32 (min m.run 0xFFFFFFFF)) s
  | some false => setReg (measA u + 12) (BitVec.ofNat 32 (min m.run 0xFFFFFFFF)) s
  | none => s

/-- An edge of a unit's tap. -/
def measEdge (u : Nat) (up : Bool) (m : Meas) (s : State) : State :=
  let c := BitVec.ofNat 64 (course s)
  let s1 := setWide (measA u + 0x28) c (iff (!m.any) (setWide (measA u + 0x20) c) (count (measA u + 0x18) s))
  match up, m.rise with
  | true, some r => setReg (measA u + 4) (BitVec.ofNat 32 (min (course s - r) 0xFFFFFFFF)) s1
  | _, _ => s1

/-- One unit takes a sample. -/
def measSample (s : State) (u : Nat) : State :=
  let cfg := reg s (measA u)
  if !cfg.getLsbD 31 || (cfg.getLsbD 30 && s.trg.frozen) then s
  else
    let m := look measNew s.trg.meas u
    let v := tapIn s s.trg.cur (bits cfg 16 7) (bits cfg 0 6) (bits cfg 8 1)
    let put_ := fun (x : Meas) (t : State) => { t with trg := { t.trg with meas := upd measNew t.trg.meas u x } }
    match v with
    | none => put_ { m with prev := none, run := 0 } (measRun u m s)
    | some b =>
      let n0 := m.n0 + (!b).toNat
      let n1 := m.n1 + b.toNat
      let s1 := setReg (measA u + 16) (BitVec.ofNat 32 (min 0xFFFF (65536 * n1 / (n0 + n1)))) s
      if m.prev == some b then put_ { m with run := m.run + 1, n0 := n0, n1 := n1 } s1
      else
        let s2 := measRun u m s1
        if m.prev == some (!b) then
          put_ { prev := some b, run := 1, n0 := n0, n1 := n1, rise := if b then some (course s) else m.rise, any := true }
            (measEdge u b m s2)
        else put_ { m with prev := some b, run := 1, n0 := n0, n1 := n1 } s2

/-! Samples. -/

/-- A capture write is dropped (R422). -/
def dropWrite (s : State) (w : CapWrite) : State :=
  let s1 := setFlag fRecGap true (count 0x80050 s)
  { s1 with trg := { s1.trg with writes := s1.trg.writes.erase w } }

/-- The sample goes toward the capture rings (R421): a write still waiting is dropped (R422). -/
def captureSample (s : State) : State :=
  if s.trg.st == .armed || s.trg.st == .fired then
    let s1 := s.trg.writes.foldl dropWrite s
    let d := s.trg.depth
    let pos := if d = 0 then 0 else s1.trg.taken % d
    let ws := ((probePavs s1).filter (hasTaps s1)).map fun p =>
      { pav := BitVec.ofNat 7 p, pos := pos, w := sampleWords s1, j := 0, val := look 0 s1.trg.cur p : CapWrite }
    { s1 with trg := { s1.trg with writes := ws, taken := s1.trg.taken + 1 } }
  else s

/-- The probe units sample their taps, and everything that watches a sample does (R414). -/
def probeSample (s : State) : State :=
  let samples := (probePavs s).map fun p => (p, sampleOf s p)
  let s1 := { s with trg := { s.trg with prev := s.trg.cur, havePrev := !s.trg.cur.isEmpty, cur := samples,
                                         course := course s },
                     fab := { s.fab with marks := (8, 0) :: s.fab.marks } }
  let s2 := evalConds (captureSample s1)
  let s3 := densSample s2
  let s4 := (List.range 32).foldl measSample s3
  let lo := course s * s.cox.length + sampleStroke s
  tryDone { s4 with trg := { s4.trg with landings := s4.trg.landings.filter fun x => decide (lo ≤ x.2.2) } }

/-- PROBE_SAMPLE (R414): once per course at the start of stroke S, from the first release stage on. -/
def execProbeSample (s : State) : Res :=
  whenever (running s && decide (1 ≤ s.ldr.stage) && s.cox.mode != .service && s.fab.retired.isEmpty &&
      s.cox.stroke == sampleStroke s && !s.fab.marks.contains (8, 0)) s
    (probeSample s)

/-- SEQUENCER_DECISION (R416): at stroke S + 8 after a sample. -/
def execSequencerDecision (s : State) : Res :=
  whenever (running s && s.trg.waiting && gOf s == decisionStroke s) s (decide8 s)

/-! Commands. -/

/-- The course that an ARM names (R417). -/
def armCourse (s : State) : Nat :=
  let l := s.cox.length
  let st := if inCourse s then s.cox.stroke else 0
  course s + 1 + (if l = 0 then 0 else (st + fld s fReachDown + l - 1) / l)

/-- The master sends an ARM message and acts on it. -/
def sendArm (on : Bool) (s : State) : State :=
  let a := armCourse s
  let m : CoxMsg := { coxMsg s with course := BitVec.ofNat 64 a, value := if on then 1 else 0 }
  let s1 := iff (onBoard s) (emit (.cox 6 m)) s
  if on then armReceived a s1 else disarmReceived s1

/-- ARM (R417): only the course master acts on TRG.CTRL. -/
def execArm (s : State) : Res := whenever (hostUp s && isMaster s) s (sendArm true s)

/-- DISARM (R417). -/
def execDisarm (s : State) : Res := whenever (hostUp s && isMaster s) s (sendArm false s)

/-- The course of the next sample. -/
def nextSample (s : State) : Nat :=
  if inCourse s && (s.fab.marks.contains (8, 0) || decide (sampleStroke s < s.cox.stroke)) then course s + 1 else course s

/-- FORCE (R417): the master raises a forced FIRE for the next sample it takes, only while ARMED. -/
def execForce (s : State) : Res :=
  whenever (hostUp s && isMaster s && s.trg.st == .armed) s (raiseFire 0 (nextSample s) true false s)

/-- ARM_MESSAGE (R418): an ARM on the cox line from the master. -/
def execArmMessage (m : CoxMsg) (s : State) : Res :=
  whenever (m.origin.toNat != position s || !isMaster s) s
    (if m.value.getLsbD 0 then armReceived m.course.toNat s else disarmReceived s)

/-- FIRE (R418): at the master a FIRE of its own or of another package arrives; elsewhere the master's FIRE does. -/
def execFire (m : CoxMsg) (s : State) : Res :=
  if isMaster s then
    whenever (m.origin.toNat != position s || s.trg.raised.contains m) s (fireAtMaster m s)
  else .next (fireReceived m s)

/-- The forced FIRE for the sample taken last has been raised (R419). -/
def timeoutRaised (s : State) : Bool :=
  s.trg.raised.any fun m => m.value.getLsbD 16 && m.course.toNat == s.trg.course

/-- TRIGGER_TIMEOUT (R419): a forced FIRE at stroke S + 8 of the last of TIMEOUT samples, at the master. -/
def execTriggerTimeout (s : State) : Res :=
  whenever (running s && isMaster s && s.trg.st == .armed && !s.trg.accepted && !timeoutRaised s &&
      reg s 0x8000C != 0 && s.trg.taken == (reg s 0x8000C).toNat && gOf s == decisionStroke s) s
    (raiseFire s.trg.met.toNat s.trg.course true false s)

/-- DENSITY_WINDOW_END (R424): the window's last course has been sampled. -/
def execDensityWindowEnd (s : State) : Res := whenever (densFull s) s (densEnd false s)

/-- MEAS_ENABLE (R426, R437): a write of TRG.MEAS[u].CFG; enabling clears the results. -/
def writeMeas (u : Nat) (v : Word) (s : State) : State :=
  let s1 := setReg (measA u) (v &&& rwMask (measA u)) s
  if v.getLsbD 31 then
    let s2 := [4, 8, 12, 16].foldl (fun x o => setReg (measA u + o) 0 x) s1
    let s3 := setWide (measA u + 0x20) 0 (setWide (measA u + 0x28) 0 s2)
    { s3 with ctrs := del s3.ctrs (measA u + 0x18),
              snaps := [0x1C, 0x24, 0x2C].foldl (fun x o => del x (measA u + o)) s3.snaps,
              trg := { s3.trg with meas := del s3.trg.meas u } }
  else s1

/-- MEAS_ENABLE (R426). -/
def execMeasEnable (u : BitVec 5) (v : Word) (s : State) : Res := whenever (hostUp s) s (writeMeas u.toNat v s)

/-- A write of TRG.DENS_CFG (R424, R434): disabling cuts the window short; enabling sets both indices to 0. -/
def writeDens (v : Word) (s : State) : State :=
  let was := (reg s 0x80030).getLsbD 31
  let s0 := iff (was && !v.getLsbD 31) (densEnd true) s
  let s1 := setReg 0x80030 (v &&& rwMask 0x80030) s0
  iff (!was && v.getLsbD 31) (fun x => setFld fDensHead 0 (setFld fDensTail 0 x)) s1

/-- DENS_ENABLE (R424). -/
def execDensEnable (v : Word) (s : State) : Res := whenever (hostUp s) s (writeDens v s)

/-- Capture goes to IDLE and the record is given up, when pass B of a LOAD_FULL begins or the mode becomes SERVICE; an
open density window is cut short (R420, R424). -/
def triggerStop (s : State) : State :=
  let s1 := densEnd true s
  setFlag fRecValid false
    { s1 with trg := { s1.trg with st := .idle, armAt := none, waiting := false, raised := [], sent := none, fire := none,
                                   accepted := false, haltAt := none, writes := [], cur := [], prev := [], havePrev := false } }

/-- 64-bit word `i` of the record window of BAR4 (R423). -/
def recordWord (s : State) (i : Nat) : BitVec 64 :=
  let p := bits (reg s 0x80018) 0 7
  let w := sampleWords s
  let pre := bits (reg s 0x8002C) 16 16
  let n := bits (reg s 0x8002C) 0 16
  let d := s.trg.depth
  if s.trg.st == .done && hasTaps s p && decide (i / w < n) && decide (0 < d) then
    match capKey s p ((s.trg.preAtFire - pre + i / w) % d) (i % w) with
    | some k => BitVec.ofNat 64 (check72 (bankCw s k)).data
    | none => 0
  else 0

end Sys2Proof.Machine
end

