-- ==== Sys2Proof/Machine/Complete.lean ====
section
/-! DEFINITION. Channels and their completions (R285 to R295, R300 to R303), messages in the matching store and the
credits they hold (R330, R331), and how operations in flight end. -/

namespace Sys2Proof.Machine

/-! Channels. -/

/-- A channel's own state. -/
def chan (s : State) (c : Nat) : ChanSt := look ChanSt.off s.hif.chans c

/-- Sets a channel's own state. -/
def setChan (c : Nat) (x : ChanSt) (s : State) : State :=
  { s with hif := { s.hif with chans := upd ChanSt.off s.hif.chans c x } }

/-- HIF.CH_OWN of a channel (R314). -/
def ownOf (s : State) (c : Nat) : Word := look 0 s.hif.owner c
/-- The channel is assigned to a function. -/
def assigned (s : State) (c : Nat) : Bool := (ownOf s c).getLsbD 31
/-- The function that owns a channel. -/
def fnOf (s : State) (c : Nat) : Nat := bits (ownOf s c) 26 5
/-- Service class: 0 TIMED, 1 BULK, 2 BACKGROUND, 3 MANAGEMENT (R314). -/
def classOf (s : State) (c : Nat) : Nat := bits (ownOf s c) 24 2
/-- Page of a channel in its VF's BAR2. -/
def pageOf (s : State) (c : Nat) : Nat := bits (ownOf s c) 8 8
/-- Channels that have been assigned at some time. -/
def knownChans (s : State) : List Nat := s.hif.owner.map (·.1)

/-- A register of a channel page. -/
def chnReg (s : State) (c off : Nat) : Word := reg s (chnA c + off)
/-- Entries of the submission and of the completion ring (R321). -/
def sqSize (s : State) (c : Nat) : Nat := 2 ^ bits (chnReg s c 0x20) 24 5
def cqSize (s : State) (c : Nat) : Nat := 2 ^ bits (chnReg s c 0x20) 16 5
/-- Submission tail and completion head as the host wrote them, mod the ring (R286). -/
def sqTail (s : State) (c : Nat) : Nat := bits (chnReg s c 0x0) 0 16 % sqSize s c
def cqHead (s : State) (c : Nat) : Nat := bits (chnReg s c 0x4) 0 16 % cqSize s c
/-- MSI-X vector of a channel. -/
def chnVector (s : State) (c : Nat) : BitVec 11 := (chnReg s c 0x20).extractLsb' 0 11

/-- A final completion entry with no side effect. -/
def entryOf (tag : BitVec 16) (status detail : Nat) (sqHead : BitVec 16) (waitUs : BitVec 32) (irq : Bool) : Completion :=
  { tag := tag, status := BitVec.ofNat 8 status, final := true, abortF := false, detail := BitVec.ofNat 32 detail,
    course := 0, hostBytes := 0, devWords := 0, sqHead := sqHead, waitUs := waitUs, irq := irq, restarts := false }

/-- Counter of a status (R318). -/
def statusCounter (status : Nat) : Option Nat :=
  if status = ccRefusedBudget then some 0xA0040
  else if status = ccShed then some 0xA0048
  else if status = ccAborted then some 0xA0050
  else if status = ccAbortTooLate then some 0xA0058
  else if status = ccBadEntry then some 0xA0060
  else none

/-- Commits a completion of a channel: it waits, in order, to be written to the ring (R291). A channel in ERROR
writes no further completion (R303). -/
def complete (c : Nat) (e : Completion) (s : State) : State :=
  let x := chan s c
  if x.st == .error || x.st == .disabled then s
  else
    let s1 := setChan c { x with held := x.held ++ [e] } s
    match statusCounter e.status.toNat with
    | some a => count a s1
    | none => s1

/-- Tags in flight on a channel (R287, R292): messages, writes held during Easy, and operations whose final completion
is not yet written. -/
def tagsOf (s : State) (c : Nat) : List (BitVec 16) :=
  ((s.dsp.msgs.filter fun m => m.chan.toNat == c && m.replay == none).map (·.tag)) ++
    ((s.hif.parked.filter fun w => w.chan.toNat == c).map (·.done.tag)) ++
    (((chan s c).held.filter fun e => e.final && !e.abortF).map (·.tag))

/-- Tags in flight of all channels whose class satisfies `p` (R293). -/
def tagCount (s : State) (p : Nat → Bool) : Nat :=
  (s.hif.chans.map fun x => if p (classOf s x.1) then (tagsOf s x.1).length else 0).sum

/-- HIF.TAGS.in_use (R317). -/
def tagsInUse (s : State) : Nat := tagCount s fun _ => true

/-- A tag is free to a class (R293). -/
def tagFree (s : State) (cls : Nat) : Bool :=
  if cls = 1 ∨ cls = 2 then decide (tagCount s (fun k => k == 1 || k == 2) < 15360) && decide (tagsInUse s < 16384)
  else decide (tagsInUse s < 16384)

/-- Entries that the completion ring of a channel can still take: it holds size − 1 at most (R291). -/
def ringSpace (s : State) (c : Nat) : Nat :=
  let n := cqSize s c
  n - 1 - ((chan s c).cqTail.toNat + n - cqHead s c) % n

/-- 64 completions of the channel wait for space in the completion ring (R294). -/
def bpCq (s : State) (c : Nat) : Bool := decide (64 + ringSpace s c ≤ (chan s c).held.length)
/-- No tag is free to the channel (R294). -/
def bpTags (s : State) (c : Nat) : Bool := (chan s c).st == .active && !tagFree s (classOf s c)

/-- Updates HIF.TAGS.high (R317). -/
def noteTags (s : State) : State :=
  let f : Fld := ⟨0xA0010, 16, 15⟩
  setFld f (max (fld s f) (min (tagsInUse s) 0x7FFF)) s

/-! Messages (R331). -/

/-- Key of a port and instance. -/
def piKey (port inst : Nat) : Nat := port * 2 + inst

/-- A port's entry in the table of the image (R325). -/
def portEntry (s : State) (p : Nat) : BitVec 64 :=
  match image s with
  | some i => look 0 i.ports p
  | none => 0

def peValid (e : BitVec 64) : Bool := e.getLsbD 63
def pePav (e : BitVec 64) : Nat := bits e 56 7
def peVreg (e : BitVec 64) : Nat := bits e 50 6
def peDreg (e : BitVec 64) : Nat := bits e 44 6
def peDcount (e : BitVec 64) : Nat := bits e 39 5
def peStroke (e : BitVec 64) : Nat := bits e 29 10
def peTake (e : BitVec 64) : Nat := bits e 19 10
def peCrew (e : BitVec 64) : Nat := bits e 13 6
def peBp (e : BitVec 64) : Nat := bits e 9 4
def pePaced (e : BitVec 64) : Bool := e.getLsbD 8

/-- Bytes that a port holds (R327). -/
def portBytes (s : State) (e : BitVec 64) : Nat := (peDcount e + 1) * (if twoBit s then 4 else 8) / 8

/-- Free credits at the NI (R330). -/
def niCredits (s : State) (k : Nat) : Nat := look 0 s.dsp.credits k
/-- Sets the free credits at the NI. -/
def setCredits (k n : Nat) (s : State) : State := { s with dsp := { s.dsp with credits := upd 0 s.dsp.credits k n } }
/-- Credits that the matching store holds and no message has claimed (R331). -/
def unclaimed (s : State) (k : Nat) : Nat := look 0 s.dsp.unclaimed k
/-- Sets the unclaimed credits. -/
def setUnclaimed (k n : Nat) (s : State) : State := { s with dsp := { s.dsp with unclaimed := upd 0 s.dsp.unclaimed k n } }

/-- Key of a message's port and instance. -/
def msgKey (m : Msg) : Nat := piKey m.port.toNat m.inst.toNat

/-- The message with an order number. -/
def msgOf (s : State) (o : Nat) : Option Msg := s.dsp.msgs.find? fun m => m.order == o

/-- Registers of a pavilion that a port writes in every course (R327, R329): its valid register and its data
registers. -/
def portHolds (e : BitVec 64) (r : Nat) : Bool :=
  r == peVreg e || (decide (peDreg e ≤ r) && decide (r ≤ peDreg e + peDcount e))

/-- A port of the pavilion writes receive register `r` in cycle st.0 (R328, R329). -/
def portWrites (s : State) (p r st : Nat) : Bool :=
  decide (2 ≤ stageOf s p) && (match image s with
    | some i => i.ports.any fun e => peValid e.2 && pePav e.2 == p && peStroke e.2 == st && portHolds e.2 r
    | none => false)

/-- Replaces a message. -/
def setMsg (m : Msg) (s : State) : State :=
  { s with dsp := { s.dsp with msgs := s.dsp.msgs.map fun x => if x.order = m.order then m else x } }

/-- Removes an order number from a sparse table of lists. -/
def dropOrder (o : Nat) (t : Sparse (List Nat)) : Sparse (List Nat) :=
  (t.map fun (k, l) => (k, l.filter (· != o))).filter fun e => !e.2.isEmpty

/-- Removes a message from the matching store, the ready lists and staging, and from its engine unless the engine has
sent it and waits for the answer (R332). -/
def removeMsg (o : Nat) (s : State) : State :=
  let sent := (msgOf s o).any fun m => decide (2 ≤ m.stage.toNat)
  { s with dsp := { s.dsp with msgs := s.dsp.msgs.filter (·.order != o), readyT := s.dsp.readyT.filter (· != o),
                               readyB := s.dsp.readyB.filter (· != o), readyG := s.dsp.readyG.filter (· != o),
                               engines := if sent then s.dsp.engines else dropOrder o s.dsp.engines, staged := dropOrder o s.dsp.staged } }

/-- A claimed credit goes back to its port's free credits, at the NI too once the message was staged (R331). -/
def returnCredit (m : Msg) (s : State) : State :=
  let k := msgKey m
  let s1 := iff m.claimed (fun x => setUnclaimed k (unclaimed x k + 1) x) s
  iff (m.stage == 3 && m.replay.isNone) (fun x => setCredits k (min 15 (niCredits x k + 1)) x) s1

/-- Key of a tag of a channel. -/
def tagKey (c : Nat) (tag : BitVec 16) : Nat := c * 65536 + tag.toNat

/-- What is still to come of a message. -/
def restOfMsg (m : Msg) : Rest := { port := m.port, inst := m.inst, frags := m.frags, seen := m.got.map (·.1) }

/-- The fragments of an ended message that have not been fetched are discarded when they come: one operation has one
final completion (R292, R331). -/
def dropRest (c : Nat) (tag : BitVec 16) (r : Rest) (s : State) : State :=
  { s with dsp := { s.dsp with
                      dropped := if r.frags.toNat < r.seen.length then del s.dsp.dropped (tagKey c tag)
                                 else ins s.dsp.dropped (tagKey c tag) r } }

/-- A channel that stops has no fragment left to discard. -/
def forgetRests (c : Nat) (s : State) : State :=
  { s with dsp := { s.dsp with dropped := s.dsp.dropped.filter fun e => e.1 / 65536 != c } }

/-- The answer to an abort that found nothing to stop (R300). -/
def tooLate (c : Nat) (tag : BitVec 16) (s : State) : State :=
  let e : Completion := { entryOf tag ccAbortTooLate 1 (chan s c).sqHead 0 false with abortF := true }
  complete c e s

/-- Ends a message with a final completion, discards its fragments still to come, and answers the aborts that came too late
for it (R339). -/
def endMsg (m : Msg) (status detail : Nat) (course devWords : Nat) (s : State) : State :=
  let e : Completion :=
    { entryOf m.tag status detail m.sqHead m.waitUs m.irq with
      course := BitVec.ofNat 64 course, devWords := BitVec.ofNat 32 devWords }
  let s1 := removeMsg m.order s
  if m.replay.isSome then s1
  else (List.range m.late).foldl (fun x _ => tooLate m.chan.toNat m.tag x)
    (complete m.chan.toNat e (dropRest m.chan.toNat m.tag (restOfMsg m) s1))

/-- Ends a message of which a further fragment fails, with no effect (R290). -/
def breakMsg (detail : Nat) (s : State) (m : Msg) : State :=
  let e : Completion := { entryOf m.tag ccBadEntry detail m.sqHead m.waitUs m.irq with restarts := true }
  complete m.chan.toNat e (removeMsg m.order (returnCredit m s))

/-- Ends a message that has not landed, with no effect, and returns its credit. -/
def cancelMsg (status detail : Nat) (s : State) (m : Msg) : State :=
  endMsg m status detail 0 0 (returnCredit m s)

/-- A write held during Easy ends with a code, a detail and a count of codewords written. -/
def endHeld (w : HeldWrite) (status detail devWords : Nat) (s : State) : State :=
  complete w.chan.toNat
    { w.done with status := BitVec.ofNat 8 status, detail := BitVec.ofNat 32 detail,
                  devWords := BitVec.ofNat 32 devWords }
    { s with hif := { s.hif with parked := s.hif.parked.erase w } }

/-! The record ring (R337). -/

/-- The record ring is in use (R337, R347). -/
def recOn (s : State) : Bool :=
  let v := reg s 0x90038
  v.getLsbD 31 && decide (10 ≤ bits v 0 5 ∧ bits v 0 5 ≤ 20)
/-- Entries of the record ring. -/
def recSize (s : State) : Nat := 2 ^ bits (reg s 0x90038) 0 5
/-- The record ring is full (R337). -/
def recFull (s : State) : Bool :=
  recOn s && (bits (reg s 0x90040) 0 20 + 1) % recSize s == bits (reg s 0x9003C) 0 20 % recSize s
/-- The record ring is full with stall = 1: nothing more is staged (R337). -/
def recStalled (s : State) : Bool := (reg s 0x90038).getLsbD 30 && recFull s

/-- An entry goes to the record ring. -/
def putRecord (ws : List (BitVec 64)) (s : State) : State :=
  let t := bits (reg s 0x90040) 0 20 % recSize s
  let base : BitVec 64 := (reg s 0x90034 ++ (reg s 0x90030 &&& 0xFFFFF000) : BitVec 64)
  setReg 0x90040 (BitVec.ofNat 32 ((t + 1) % recSize s)) (emit (.hostWrite (base + BitVec.ofNat 64 (64 * t)) ws) s)

/-- An entry is discarded, counted and, the first after the counter was cleared, logged (R337). -/
def loseRecord (s : State) : State :=
  let first := ctr s 0x90080 == 0
  iff first (logEvent evRecOverflow locNone 0) (count 0x90080 s)

/-- Entries go to the ring in the order of their landings, and of their ports within a stroke; those of stroke `g` wait for
its end. On a full ring they wait with stall = 1 (DEDUCED, notes/assumptions/92.md) and are discarded with stall = 0. -/
def drainRecords (g : Nat) : Sparse (List (BitVec 64)) → State → State
  | [], s => { s with dsp := { s.dsp with recHeld := [] } }
  | (k, ws) :: r, s =>
    if k / 8192 = g ∨ recStalled s then { s with dsp := { s.dsp with recHeld := (k, ws) :: r } }
    else if !recOn s then drainRecords g r s
    else if recFull s then drainRecords g r (loseRecord s)
    else drainRecords g r (putRecord ws s)

/-- The record entries held are written, but for those of stroke `g`. -/
def writeRecords (g : Nat) (s : State) : State := drainRecords g s.dsp.recHeld s

/-- Data-plane operations in flight end `NOT_RUNNING` (R295, R303): detail 2 for an admitted message that was not
delivered, 1 for every other. -/
def stopDataPlane (s : State) : State :=
  let s1 := s.dsp.msgs.foldl (fun x m => cancelMsg ccNotRunning (if m.promise.isSome then 2 else 1) x m) s
  (s1.hif.parked.filter fun w => classOf s w.chan.toNat != 3).foldl (fun x w => endHeld w ccNotRunning 1 0 x) s1

/-- Messages and credits of a port are discarded with `DEAD_TARGET` (R339). -/
def killPort (port : Nat) (s : State) : State :=
  let s1 := (s.dsp.msgs.filter fun m => m.port.toNat == port).foldl (fun x m => endMsg m ccDeadTarget 0 0 0 x) s
  [0, 1].foldl (fun x i => setUnclaimed (piKey port i) 0 (setCredits (piKey port i) 0 x)) s1

/-- A channel ends its undelivered messages and its held writes without a completion (R303). -/
def dropMessages (c : Nat) (s : State) : State :=
  forgetRests c ((s.dsp.msgs.filter fun m => m.chan.toNat == c && m.replay.isNone).foldl
    (fun x m => removeMsg m.order (returnCredit m x))
    { s with hif := { s.hif with parked := s.hif.parked.filter fun w => w.chan.toNat != c } })

/-- A channel goes to ERROR with a cause (R303, R322). -/
def chanError (c err : Nat) (s : State) : State :=
  let s1 := dropMessages c s
  setChan c { chan s1 c with st := .error, err := BitVec.ofNat 4 err, held := [], bpD := false } s1

/-- A channel is DISABLED at once. -/
def chanOff (c : Nat) (s : State) : State :=
  let s1 := dropMessages c s
  setChan c { chan s1 c with st := .disabled, err := 0, held := [], bpD := false } s1

/-- A draining channel with nothing in flight is DISABLED (R303). -/
def drained (c : Nat) (s : State) : State :=
  let x := chan s c
  iff (x.st == .draining && x.held.isEmpty && (tagsOf s c).isEmpty)
    (fun y => forgetRests c (setChan c { x with st := .disabled } y)) s

/-- Budget writes take effect (R285). -/
def applyBudgets (s : State) : State :=
  { s with hif := { s.hif with budget := s.hif.budNext.foldl (fun m e => upd 0 m e.1.toNat e.2) s.hif.budget,
                               budNext := [] } }

end Sys2Proof.Machine
end

