-- ==== Sys2Proof/Machine/Stroke.lean ====
section
/-! DEFINITION. What a stroke does as it retires and as the next one starts: crew wires resolve (R60 to R68), memory
operations are formed (R151), log ports append (R444), landings show (R27), target pins change and are sampled (R40,
R501, R553). -/

namespace Sys2Proof.Machine

/-! Crew wires. -/

/-- A contention on a wire in one instance (R65): drivers as a mask, winner, and whether their values differ. -/
structure Clash where
  inst   : Nat
  mask   : Nat
  winner : Nat
  differ : Bool
  deriving DecidableEq, Repr

/-- The enabled drivers of instance `k`: bp and bit, lowest bp first (R62). -/
def driversOf (ds : List Drive) (k : Nat) : List (Nat × Bool) :=
  sortBy (·.1) ((ds.filter fun d => d.en.getLsbD k).map fun d => (d.bp.toNat, d.val.getLsbD k))

/-- The contention of a list of drivers, if two or more meet (R65). -/
def clashOf (inst : Nat) (ds : List (Nat × Bool)) : Option Clash :=
  match ds with
  | (b, v) :: _ :: _ =>
    some { inst := inst, mask := ds.foldl (fun a d => a ||| 2 ^ d.1) 0, winner := b, differ := ds.any fun d => d.2 != v }
  | _ => none

/-- The definite and the possible drivers of a FOURSTATE wire (R64). -/
def definite (ds : List Drive) : List Drive := ds.filter fun d => d.en == v1 && d.val != vZ
def possible (ds : List Drive) : List Drive := ds.filter fun d => vague d.en && d.val != vZ

/-- The value of a FOURSTATE wire (the table of R64). -/
def wireFour (ds : List Drive) : BitVec 2 :=
  match definite ds with
  | [] => if (possible ds).isEmpty then vZ else vX
  | d :: rest =>
    if !vague d.val && rest.all (·.val == d.val) && (possible ds).all (·.val == d.val) then d.val else vX

/-- Resolution of one wire of crew `pc` (pavilion × 64 + crew): its value if some driver is enabled, its keeper, and
the contentions (R62 to R65). -/
def resolveWire (s : State) (pc w : Nat) (ds : List Drive) : Option (BitVec 2) × Option (BitVec 2) × List Clash :=
  let p := pc / 64
  let c := pc % 64
  match valsOf s with
  | .four =>
    let ms := (definite ds).map fun d => (d.bp.toNat, d.val == v1)
    let cl := (clashOf 0 (sortBy (·.1) ms)).map fun x =>
      { x with winner := 0, differ := (definite ds).any fun d => some d.val != (definite ds).head?.map (·.val) }
    (some (wireFour ds), none, cl.toList)
  | .one =>
    let d0 := driversOf ds 0
    match d0 with
    | [] => (none, none, [])
    | (_, v) :: _ =>
      let x := if v then v1 else v0
      (some x, some x, (clashOf 0 d0).toList)
  | .pair =>
    let d0 := driversOf ds 0
    let d1 := driversOf ds 1
    if d0.isEmpty && d1.isEmpty then (none, none, [])
    else
      let u := undriven s p c w
      let k := keeper s p c w
      let pick := fun (d : List (Nat × Bool)) (other : Bool) => match d with
        | (_, v) :: _ => v
        | [] => other
      (some (BitVec.ofBool (pick d1 (u.getLsbD 1)) ++ BitVec.ofBool (pick d0 (u.getLsbD 0))),
       some (BitVec.ofBool (pick d1 (k.getLsbD 1)) ++ BitVec.ofBool (pick d0 (k.getLsbD 0))),
       (clashOf 0 d0).toList ++ (clashOf 1 d1).toList)

/-- Records a contention (R65, R68, R72, R73); the event's location names the winner (R552). -/
def contention (pc w : Nat) (s : State) (x : Clash) : State :=
  let p := pc / 64
  let c := pc % 64
  let a := pavA p + 0x308
  let v : Word := BitVec.ofNat 32 (2 ^ 31 + (fourState s).toNat * 2 ^ 30 + x.inst * 2 ^ 29 + x.differ.toNat * 2 ^ 28 +
    x.winner * 2 ^ 24 + c * 2 ^ 18 + w * 2 ^ 16 + s.cox.stroke)
  let s1 := count (pavA p + 0x300) s
  let s2 := if (reg s1 a).getLsbD 31 then s1 else setReg (a + 4) (BitVec.ofNat 32 x.mask) (setReg a v s1)
  iff (!fourState s)
    (oncePerCourse 6 p (logEvent evCrewContention (locBp p c x.winner w) (x.differ.toNat + x.inst * 2 ^ 15))) s2

/-- Resolves one wire that some DRIVE of the stroke names. -/
def resolveOne (before : State) (acc : State) (k : Nat) : State :=
  let ds := before.fab.drives.filter fun d => d.crew * 4 + d.wire.toNat == k
  let (v, kp, cl) := resolveWire before (k / 4) (k % 4) ds
  let s1 := cl.foldl (contention (k / 4) (k % 4)) acc
  let s2 := match v with
    | some x => { s1 with fab := { s1.fab with wires := ins s1.fab.wires k x } }
    | none => s1
  match kp with
  | some x => { s2 with fab := { s2.fab with keepers := ins s2.fab.keepers k x } }
  | none => s2

/-- Removes repeats from a sorted list. -/
def dedup : List Nat → List Nat
  | [] => []
  | [a] => [a]
  | a :: b :: r => if a = b then dedup (b :: r) else a :: dedup (b :: r)

/-- Every crew wire resolves (R60): a wire that no enabled driver drives reads as undriven. -/
def resolveWires (s : State) : State :=
  let keys := dedup (sortBy id (s.fab.drives.map fun d => d.crew * 4 + d.wire.toNat))
  let s0 := { s with fab := { s.fab with wires := [] } }
  let s1 := keys.foldl (resolveOne s) s0
  { s1 with fab := { s1.fab with drives := [] } }

/-! Log ports (R444, R445). -/

/-- Ends the message of a port and instance: it waits for its commit. -/
def endMessage (port : BitVec 8) (inst : Nat) (cont : Bool) (s : State) : State :=
  let k := port.toNat * 2 + inst
  let vs := look [] s.trc.asm k
  if vs.isEmpty then s
  else
    let m : LogMsg :=
      { port := port, inst := BitVec.ofNat 1 inst, course := course s, stroke := s.cox.stroke, vals := vs, cont := cont,
        two := fourState s }
    { s with trc := { s.trc with asm := del s.trc.asm k, ended := s.trc.ended ++ [m] } }

/-- One LOG appends to one instance's message (R444). -/
def appendInst (r : LogRec) (inst : Nat) (s : State) : State :=
  let k := r.port.toNat * 2 + inst
  let v := if fourState s then r.val else (BitVec.ofBool (r.val.getLsbD inst)).setWidth 2
  let s1 := if r.en.getLsbD inst then
      { s with trc := { s.trc with asm := ins s.trc.asm k (look [] s.trc.asm k ++ [v]) } }
    else s
  if r.last then endMessage r.port inst false s1
  else iff (decide (2048 ≤ (look [] s1.trc.asm k).length)) (endMessage r.port inst true) s1

/-- One LOG appends in every instance of the mode. -/
def appendLog (s : State) (r : LogRec) : State :=
  iff (fleet s) (appendInst r 1) (appendInst r 0 s)

/-- The LOGs of the stroke append in increasing global BP index (R32). -/
def appendLogs (s : State) : State :=
  let s1 := (sortBy (·.bp) s.fab.logs).foldl appendLog s
  { s1 with fab := { s1.fab with logs := [] } }

/-! Landings. -/

/-- Applies one write to a receive register. -/
def landOne (s : State) (w : RxWrite) : State :=
  let old := rxReg s (w.key / 64) (w.key % 64)
  { s with fab := { s.fab with rx := ins s.fab.rx w.key ((old &&& ~~~w.mask) ||| (w.val &&& w.mask)) } }

/-- The landings of the stroke show from the next stroke on; those of the second network cycle overwrite those of the
first (R115, R123). -/
def applyLandings (s : State) : State :=
  let ws := s.fab.rxNext.filter (fun w => !w.half) ++ s.fab.rxNext.filter (fun w => w.half)
  let s1 := ws.foldl landOne s
  { s1 with fab := { s1.fab with rxNext := [] } }

/-- A stroke retires: everything staged in it takes effect, and the next stroke's SENDs start afresh. -/
def retireStroke (s : State) : State :=
  let s1 := applyLandings (appendLogs (memoryOps (resolveWires s)))
  { s1 with net := { s1.net with skid := [] },
            fab := { s1.fab with retired := [], bad := [], past := [], bankPast := [], grants := [],
                                 sends := s1.fab.sends.filter fun x => decide (gOf s ≤ x.g) } }

/-! Target pins. -/

/-- Pin `i` of the 512. -/
def pinBit (i : Nat) : BitVec 512 := BitVec.ofNat 512 (2 ^ i)

/-- Pins of the banks in ON. -/
def onPins (s : State) : BitVec 512 :=
  (List.range 16).foldl (fun m b => if podState s b == .on then m ||| maskAt 512 (32 * b) 32 else m) 0

/-- Bank `b` is latched (R475). -/
def padLatched (s : State) (b : Nat) : Bool := (reg s 0x20010).getLsbD b

/-- Pins of the latched banks. -/
def latchedPins (s : State) : BitVec 512 :=
  (List.range 16).foldl (fun m b => if padLatched s b then m ||| maskAt 512 (32 * b) 32 else m) 0

/-- EXTEST, HIGHZ or CLAMP is the JTAG instruction (R505, R508). -/
def jtagControls (s : State) : Bool := s.jtag.ir == 3 || s.jtag.ir == 4 || s.jtag.ir == 5

/-- Cell `k` of every target pin in the boundary register: 0 input, 1 output, 2 output enable (R509). -/
def pinCells (v : BitVec 1899) (k : Nat) : BitVec 512 :=
  (List.range 512).foldl (fun m i => if v.getLsbD (3 * i + k) then m ||| pinBit i else m) 0

/-- The pins whose pads the boundary register controls: those of the banks in ON that are not latched (R505). -/
def jtagPins (s : State) : BitVec 512 := if jtagControls s then onPins s &&& ~~~latchedPins s else 0

/-- The pins that the package drives: as the design has them, or as the boundary register has them (R505). -/
def driveOn (s : State) : BitVec 512 :=
  if jtagControls s then
    (s.pins.drvOn &&& ~~~jtagPins s) ||| ((if s.jtag.ir == 4 then 0 else pinCells s.jtag.boundary 2) &&& jtagPins s)
  else s.pins.drvOn

/-- The levels that the package drives. -/
def driveLevel (s : State) : BitVec 512 :=
  if jtagControls s then (s.pins.drv &&& ~~~jtagPins s) ||| (pinCells s.jtag.boundary 1 &&& jtagPins s) else s.pins.drv

/-- One pin change takes effect (R40), unless its bank has left ON (R497) or is latched (R475), its pin is shorted
(R501), the outputs are frozen (R215), the boundary register controls its pad (R505) or the mode holds the target pins at
high impedance (R203). -/
def applyPin (s : State) (d : PinDue) : State :=
  let pin := d.pin.toNat
  let b := bankOfPin pin
  if s.cox.mode == .service || (s.cox.mode == .fleet && !s.cox.fleetPins) || s.pins.frozen || podState s b != .on || padLatched s b || jtagControls s ||
      (reg s (0x200100 + 4 * b)).getLsbD (pin % 32) then s
  else
    let m := pinBit pin
    match d.act with
    | none => { s with pins := { s.pins with drvOn := s.pins.drvOn &&& ~~~m } }
    | some l =>
      { s with pins := { s.pins with drvOn := s.pins.drvOn ||| m,
                                     drv := if l then s.pins.drv ||| m else s.pins.drv &&& ~~~m } }

/-- The pin changes due at absolute stroke `g`. -/
def applyPins (g : Nat) (s : State) : State :=
  let now := s.pins.due.filter fun d => decide (d.g ≤ g)
  let s1 := now.foldl applyPin s
  { s1 with pins := { s1.pins with due := s.pins.due.filter fun d => decide (g < d.g) } }

/-- The banks in ON. -/
def onBankBits (s : State) : BitVec 16 :=
  (List.range 16).foldl (fun m b => if podState s b == .on then m ||| BitVec.ofNat 16 (2 ^ b) else m) 0

/-- The levels of the lands as a sample takes them: what drives them, else the pull of a pin in ON, else floating; a
land driven to opposite levels is not specified (R497, R501). A latched bank reads the level latched (R475). -/
def takeSample (s : State) : PinSample :=
  let x := s.pins
  let held := latchedPins s
  let on := onPins s
  let dOn := driveOn s
  let d := driveLevel s
  let fight := dOn &&& x.landOn &&& (d ^^^ x.land)
  let any := dOn ||| x.landOn
  let pulled := (x.up ||| x.dn) &&& on &&& ~~~any
  let lev := (d &&& dOn) ||| (x.land &&& x.landOn &&& ~~~dOn) ||| (x.up &&& pulled)
  { lev := (lev &&& ~~~held) ||| (x.padIn &&& held), float := (fight ||| (~~~any &&& ~~~pulled)) &&& ~~~held, n := s.free,
    on := onBankBits s }

/-- A course stroke starts: its pin changes take effect and the pins are sampled (R40, R553). -/
def startStroke (s : State) : State :=
  let s1 := applyPins (gOf s) s
  let x := takeSample s1
  draw { s1 with pins := { s1.pins with s0 := x, s1 := s1.pins.s0, s2 := s1.pins.s1, taken := min 3 (s1.pins.taken + 1) } }

/-- The stroke clock runs at the rate of grade -08 (R228). -/
def slowRate (s : State) : Bool := s.fuses.grade == 0x08 || fld s fBoardRate == 0x08

/-- TRC.TIME advances by one stroke-clock tick: 10 ns × 16 / (grade × level / 10 GHz units), kept exactly as a
fraction in units of 1/28,828,800 (R93, R439; notes/assumptions/12.md). -/
def traceTime (s : State) : State :=
  let grade := if slowRate s then 8 else 10
  let level := max 1 (fld s fThrLevel)
  let f := s.trc.frac + 28828800 * 16 / (grade * level)
  let s1 := setWide 0x70008 (BitVec.ofNat 64 (trcTime s + f / 28828800)) s
  { s1 with trc := { s1.trc with frac := f % 28828800 } }

/-- A stroke-clock tick passes. -/
def clockTick (s : State) : State :=
  traceTime { s with cox := { s.cox with ticks := s.cox.ticks + 1, strokes := s.cox.strokes <<< 1 } }

end Sys2Proof.Machine
end

