-- ==== Sys2Proof/Machine/Network.lean ====
section
/-! DEFINITION. The pavilion network (R105 to R131, R236 to R238): the torus, routes, VN0 flits and their run-time
checks, and the packets of VN1 to VN3. A network cycle has the number 2 × absolute stroke + half. -/

namespace Sys2Proof.Machine

/-! Topology. -/

/-- The neighbour of a router through port 1 N, 2 E, 3 S or 4 W (R105). -/
def neighbour (p k : Nat) : Nat :=
  let c := colOf p
  let r := rowOf p
  match k with
  | 1 => (r + 7) % 8 * 16 + c
  | 2 => r * 16 + (c + 1) % 16
  | 3 => (r + 1) % 8 * 16 + c
  | _ => r * 16 + (c + 15) % 16

/-- The input port of the neighbour that a link enters. -/
def farInput (k : Nat) : Nat :=
  match k with
  | 1 => 3 | 2 => 4 | 3 => 1 | _ => 2

/-- Network cycles of the link from a router through port `k`: two across a die seam (R105). -/
def linkCost (p k : Nat) : Nat :=
  let c := colOf p
  let r := rowOf p
  match k with
  | 1 => if r = 4 ∨ r = 0 then 2 else 1
  | 2 => if c = 7 ∨ c = 15 then 2 else 1
  | 3 => if r = 3 ∨ r = 7 then 2 else 1
  | _ => if c = 8 ∨ c = 0 then 2 else 1

/-! Routes (R111). -/

/-- Leg `i` of three: direction and count. -/
def leg (legs : BitVec 18) (i : Nat) : Nat × Nat := (bits legs (12 - 6 * i + 4) 2, bits legs (12 - 6 * i) 4)

/-- The first leg that still has a count. -/
def firstLeg (legs : BitVec 18) : Option Nat := [0, 1, 2].find? fun i => (leg legs i).2 != 0

/-- The output named by a route: the direction of its first leg, or L or G (R111). -/
def nextOf (legs : BitVec 18) (endG : Bool) : Nat :=
  match firstLeg legs with
  | some i => (leg legs i).1 + 1
  | none => if endG then 5 else 0

/-- The legs after one link (R111). -/
def stepLegs (legs : BitVec 18) : BitVec 18 :=
  match firstLeg legs with
  | some i => put legs (12 - 6 * i) 4 ((leg legs i).2 - 1)
  | none => legs

/-- The last router of a route and its cost in network cycles, within `n` links (R105, R111). -/
def routeWalk : Nat → Nat → BitVec 18 → Nat × Nat
  | 0, p, _ => (p, 0)
  | n + 1, p, legs =>
    match firstLeg legs with
    | none => (p, 0)
    | some i =>
      let k := (leg legs i).1 + 1
      let (q, c) := routeWalk n (neighbour p k) (stepLegs legs)
      (q, c + linkCost p k)

/-- The last router of a route. -/
def routeEnd (p : Nat) (legs : BitVec 18) : Nat := (routeWalk 46 p legs).1
/-- The cost of a route. -/
def routeCost (p : Nat) (legs : BitVec 18) : Nat := (routeWalk 46 p legs).2

/-! VN0 flits (R112). -/

/-- A flit's fields. -/
def flitPayload (f : BitVec 64) : BitVec 8 := f.extractLsb' 56 8
def flitTag (f : BitVec 64) : Nat := bits f 45 11
def flitRreg (f : BitVec 64) : Nat := bits f 39 6
def flitNext (f : BitVec 64) : Nat := bits f 36 3
def flitLegs (f : BitVec 64) : BitVec 18 := f.extractLsb' 18 18
def flitEnd (f : BitVec 64) : Bool := f.getLsbD 17
def flitEport (f : BitVec 64) : Nat := bits f 14 3
def flitFgate (f : BitVec 64) : Nat := bits f 11 3

/-- The tag of a network cycle: stroke mod L, and half (R112). -/
def cycleTag (s : State) (c : Nat) : Nat := c % (2 * s.cox.length)

/-- A flit from its fields. -/
def mkFlit (payload tag rreg : Nat) (legs : BitVec 18) (endG : Bool) (eport fgate : Nat) : BitVec 64 :=
  BitVec.ofNat 64 (payload * 2 ^ 56 + tag % 2048 * 2 ^ 45 + rreg * 2 ^ 39 + nextOf legs endG * 2 ^ 36 +
    legs.toNat * 2 ^ 18 + endG.toNat * 2 ^ 17 + eport * 2 ^ 14 + fgate * 2 ^ 11)

/-- The route entry's stroke is below L, it is valid, and its launch cycle lies in the stroke in progress (R113). DESIGN
CHOICE (notes/assumptions/82.md): an entry of stroke L − 1, half 0 launches in stroke 0 of the first course too, with all
lanes 0, though no SEND stroke came before. -/
def launchNow (s : State) (e : BitVec 64) : Bool :=
  let st := bits e 53 10
  let l := s.cox.length
  e.getLsbD 63 && decide (st < l) && (if e.getLsbD 52 then st == s.cox.stroke else (st + 1) % l == s.cox.stroke)

/-- The lanes of an entry's flit: each SEND of its stroke that names it, 0 elsewhere (R112, R114). -/
def lanesOf (s : State) (p e g : Nat) : Nat :=
  (s.fab.sends.filter fun x => x.pav.toNat == p && x.entry.toNat == e && x.g == g).foldl (fun a x =>
    if twoBit s then a ||| (x.val.toNat * 4 ^ (x.lane.toNat % 4)) else a ||| ((x.val.getLsbD 0).toNat * 2 ^ x.lane.toNat)) 0

/-- The NI launches the flit of an entry (R114 to R116). -/
def launch (p e : Nat) (s : State) : State :=
  let r := sroute s p e
  let half := r.getLsbD 52
  let g := gOf s
  let cyc := 2 * g + half.toNat
  let legs := r.extractLsb' 28 18
  let endG := r.getLsbD 27
  let tag := cycleTag s (cyc + routeCost p legs + if endG then 2 * Config.linkSlack else 0)
  let payload := lanesOf s p e (if half then g else g - 1)
  let f : Flit :=
    { bits := mkFlit payload tag (bits r 46 6) legs endG (bits r 24 3) (bits r 21 3), at_ := BitVec.ofNat 7 p,
      inp := 0, due := cyc }
  count (pavA p + 0x510)
    { s with net := { s.net with flits := s.net.flits ++ [f] },
             fab := { s.fab with marks := (7, p * 1024 + e) :: s.fab.marks } }

/-- VN0_LAUNCH (R114): once per course, from the first release stage on. -/
def execVn0Launch (p : Pav) (e : BitVec 10) (s : State) : Res :=
  whenever (running s && enabled s p.toNat && decide (1 ≤ stageOf s p.toNat) &&
      launchNow s (sroute s p.toNat e.toNat) && !s.fab.marks.contains (7, p.toNat * 1024 + e.toNat)) s
    (launch p.toNat e.toNat s)

/-! Run-time checks (R120 to R122). -/

/-- Records a network fault in NET_LAST if it is free (R133); `tag` goes to NET_LAST_TAG. -/
def recordNet (p kind output winner loser cyc : Nat) (tag : Option Nat) (s : State) : State :=
  let a := pavA p + 0x504
  if (reg s a).getLsbD 31 then s
  else
    let v : Word := BitVec.ofNat 32 (2 ^ 31 + kind * 2 ^ 28 + output * 2 ^ 25 + winner * 2 ^ 22 + loser * 2 ^ 19 + cycleTag s cyc)
    let s1 := setReg a v s
    match tag with
    | some t => setReg (a + 4) (BitVec.ofNat 32 t) s1
    | none => s1

/-- A slot collision (R120): counted, recorded, logged once per pavilion and course, and a halt under
collision_halt. -/
def collision (p kind output winner loser cyc : Nat) (s : State) : State :=
  let detail := kind * 2 ^ 9 + output * 2 ^ 6 + winner * 2 ^ 3 + loser
  let s1 := recordNet p kind output winner loser cyc none (count (pavA p + 0x528) s)
  let s2 := oncePerCourse 30 p (logEvent evSlotCollision (locPav p output) detail) s1
  iff (flag s fCollHalt) (raiseHalt hcOther) s2

/-- A CRC mismatch on a received VN0 flit (R122); NET_LAST's fields hold the input port (DESIGN CHOICE,
notes/assumptions/82.md). -/
def flitCheck (p inp cyc : Nat) (s : State) : State :=
  let s1 := recordNet p 3 inp inp inp cyc none (count (pavA p + 0x538) s)
  raiseHalt hcOther (logEvent evFlitCheck (locPav p inp) inp s1)

/-- The cycle in which a flit is handled: its own, or the first of the stroke in progress if that has come later. -/
def cycleOf (s : State) (f : Flit) : Nat := max f.due (2 * gOf s)

/-- The 64 flit bits and 8 check bits that a link delivers, with the error bits `err` of the transfer on them (R107): the
flit that the receiver accepts, or none where its CRC-8 does not match. -/
def received (b : BitVec 64) (err : BitVec 72) : Option (BitVec 64) :=
  let r := b ^^^ err.extractLsb' 8 64
  if crc8 64 r.toNat = crc8 64 b.toNat ^^^ err.extractLsb' 0 8 then some r else none

/-- The flit that stands at a router's input now and whose next port satisfies `want`. Flits move in the order of their
cycles, so one has no effect before every flit of an earlier cycle has moved (R120). -/
def flitAt (s : State) (p inp : Nat) (want : Nat → Bool) : Option Flit :=
  s.net.flits.find? fun f =>
    f.at_.toNat == p && f.inp.toNat == inp && decide (f.due / 2 ≤ gOf s) && want (flitNext f.bits) &&
      s.net.flits.all fun x => decide (f.due ≤ x.due)

/-- The member with the lowest number, the first of those in a tie. -/
def lowestBy {α : Type} (num : α → Nat) (xs : List α) : Option α :=
  xs.foldl (fun a x => match a with
    | some y => if num x < num y then some x else a
    | none => some x) none

/-- Flits that want the same output of the same router in the same cycle (R120). -/
def rivals (s : State) (f : Flit) : List Flit :=
  s.net.flits.filter fun x => x.at_ == f.at_ && x.inp != f.inp && x.due == f.due && flitNext x.bits == flitNext f.bits

/-- At the gateways, flits that win their own router's G output and want the same Daxair port in
the same cycle (R120). -/
def portRivals (s : State) (f : Flit) : List Flit :=
  if flitNext f.bits = 5 then
    s.net.flits.filter fun x => x.at_ != f.at_ && x.due == f.due && flitNext x.bits == 5 &&
      flitEport x.bits == flitEport f.bits && (rivals s x).all fun y => decide (x.inp < y.inp)
  else []

/-- Removes a flit. -/
def dropFlit (f : Flit) (s : State) : State := { s with net := { s.net with flits := s.net.flits.erase f } }

/-- A flit took output `k` of router `r` in cycle `cyc` that is not reserved: a granted packet waits in the output's skid
register meanwhile (R109, R120). -/
def skid (r k cyc : Nat) (s : State) : State :=
  { s with net := { s.net with skid := (r * 6 + k, cycleTag s cyc) :: s.net.skid } }

/-- Decides the collisions of a flit (R120): none if it survives, else the state with it dropped and reported; the
losers it beats are dropped and reported, and an output it takes unreserved is reported. -/
def contest (f : Flit) (s : State) : Bool × State :=
  let p := f.at_.toNat
  let k := flitNext f.bits
  let cyc := cycleOf s f
  let gw := (gatewayOf p).getD 0
  match lowestBy (fun x => x.inp.toNat) ((rivals s f).filter fun x => decide (x.inp < f.inp)) with
  | some w => (false, collision p 0 k w.inp.toNat f.inp.toNat cyc (dropFlit f s))
  | none =>
    match lowestBy (fun x => (gatewayOf x.at_.toNat).getD 8)
        ((portRivals s f).filter fun x => decide ((gatewayOf x.at_.toNat).getD 8 < gw)) with
    | some w => (false, collision p 4 5 ((gatewayOf w.at_.toNat).getD 0) gw cyc (dropFlit f s))
    | none =>
      let s1 := (rivals s f).foldl (fun x l => collision p 0 k f.inp.toNat l.inp.toNat cyc (dropFlit l x)) s
      let s2 := (portRivals s f).foldl (fun x l =>
        collision l.at_.toNat 4 5 gw ((gatewayOf l.at_.toNat).getD 0) cyc (dropFlit l x)) s1
      let s3 := iff (!reserved s p (cycleTag s cyc) k) (fun x => skid p k cyc (collision p 1 k f.inp.toNat f.inp.toNat cyc x)) s2
      (true, s3)

/-- Port `n` carries board traffic: it is ACTIVE and stands in COX.BOARD_PORTS.active, which leaves out the ports that the
shape does not expect and the miswired ones (R229, R242). -/
def boardPort (s : State) (n : Nat) : Bool :=
  (look LnkPort.off s.lnk n).st == .active && (fld s fPortsActive).testBit n

/-- A surviving flit leaves its router by its next port (R111): over a link, or through the gateway to its Daxair
port, where it is dropped if the port is lost (R239) and else waits for the next frame (R254). -/
def forward (f : Flit) (s : State) : State :=
  let p := f.at_.toNat
  let k := flitNext f.bits
  let s1 := count (pavA p + 0x560 + 8 * k) (dropFlit f s)
  if k = 5 then
    let n := flitEport f.bits
    let x := look LnkPort.off s1.lnk n
    if boardPort s n then { s1 with lnk := upd LnkPort.off s1.lnk n { x with vnQ := x.vnQ ++ [f.bits] } } else s1
  else
    let legs := stepLegs (flitLegs f.bits)
    let b := put (put f.bits 18 18 legs.toNat) 36 3 (nextOf legs (flitEnd f.bits))
    let n : Flit :=
      { bits := b, at_ := BitVec.ofNat 7 (neighbour p k), inp := BitVec.ofNat 3 (farInput k),
        due := cycleOf s f + linkCost p k }
    { s1 with net := { s1.net with flits := s1.net.flits ++ [n] } }

/-- A router switches a flit, or drops it for a collision or a port that does not exist. -/
def switchFlit (f : Flit) (s : State) : State :=
  let p := f.at_.toNat
  let k := flitNext f.bits
  if 5 < k ∨ (k = 5 ∧ gatewayOf p = none) then dropFlit f s
  else
    let (ok, s1) := contest f s
    if ok then forward f s1 else s1

/-- A flit that a transfer with error bits `err` brings: dropped for a CRC mismatch (R122), handled by `act`, or, where the
errors turned it into another flit with the right CRC, that flit in its place. -/
def takeFlit (act : Flit → State → State) (f : Flit) (err : BitVec 72) (s : State) : State :=
  match received f.bits err with
  | none => flitCheck f.at_.toNat f.inp.toNat (cycleOf s f) (dropFlit f s)
  | some b =>
    if b = f.bits then act f s
    else
      let s1 := dropFlit f s
      { s1 with net := { s1.net with flits := s1.net.flits ++ [{ f with bits := b }] } }

/-- FLIT_SWITCH (R111); `err` holds the error bits of the transfer (R107). -/
def execFlitSwitch (p : Pav) (inp : RPort) (err : BitVec 72) (s : State) : Res :=
  forUnit (decide (inp.toNat < 6))
    (match running s, flitAt s p.toNat inp.toNat (· != 0) with
     | true, some f => .next (takeFlit switchFlit f err s)
     | _, _ => .next s)

/-- A tag mismatch at landing (R121). DESIGN CHOICE (notes/assumptions/82.md): NET_LAST's winner and loser hold the input
port for kinds 2 and 3, which the spec leaves open. -/
def skew (p inp cyc tag : Nat) (s : State) : State :=
  let s1 := recordNet p 2 0 inp inp cyc (some tag) (count (pavA p + 0x530) s)
  let s2 := oncePerCourse 31 p (logEvent evSchedSkew (locPav p 0) tag) s1
  iff (flag s fSkewHalt) (raiseHalt hcOther) s2

/-- A flit at its local port: dropped unless LIVE (R127), checked against its tag (R121), dropped where a message port
writes its register in that cycle (R329), landed (R115). -/
def land (f : Flit) (s : State) : State :=
  let p := f.at_.toNat
  let cyc := cycleOf s f
  let s0 := dropFlit f s
  let s1 := count (pavA p + 0x560) s0
  if portState s p != .live then count (pavA p + 0x520) s1
  else if flitTag f.bits != cycleTag s cyc then skew p f.inp.toNat cyc (flitTag f.bits) s1
  else if cyc % 2 == 0 && portWrites s p (flitRreg f.bits) s.cox.stroke then collision p 0 0 0 f.inp.toNat cyc s0
  else
    let w : RxWrite :=
      { key := p * 64 + flitRreg f.bits, mask := 0xFF, val := flitPayload f.bits, half := cyc % 2 == 1 }
    count (pavA p + 0x518) { s1 with fab := { s1.fab with rxNext := s1.fab.rxNext ++ [w] } }

/-- The local port takes an arriving flit, or drops it for a collision at output L. -/
def landFlit (f : Flit) (s : State) : State :=
  let (ok, s1) := contest f s
  if ok then land f s1 else s1

/-- VN0_LAND (R115); `err` as for FLIT_SWITCH. -/
def execVn0Land (p : Pav) (inp : RPort) (err : BitVec 72) (s : State) : Res :=
  forUnit (decide (inp.toNat < 6))
    (match running s, flitAt s p.toNat inp.toNat (· == 0) with
     | true, some f => .next (takeFlit landFlit f err s)
     | _, _ => .next s)

/-- Course strokes that have retired since a flit that arrives now on port `n` left the far port: those of the last Δ
ticks (R92, R230). -/
def strokesOnLink (s : State) (n : Nat) : Nat :=
  popcount (s.cox.strokes &&& maskAt 64 0 (min 64 (fld s ⟨lnkA n + 0x80, 0, 8⟩)))

/-- The tag cycle of a flit that arrives now on port `n` (R92, R116): of the cycles that carry its tag, the one nearest to
LINK_SLACK strokes after it left the far port, which may have passed. -/
def dueCycle (s : State) (n : Nat) (f : BitVec 64) : Nat :=
  let l2 := 2 * s.cox.length
  let aim := 2 * (gOf s + Config.linkSlack - strokesOnLink s n)
  let up := (flitTag f + l2 - aim % l2) % l2
  if l2 = 0 then aim else if 2 * up ≤ l2 ∨ aim + up < l2 then aim + up else aim + up - l2

/-- The mark of a gateway's tag cycle: a flit has entered there in the course, or its absence is logged. -/
def cycleMark (gp tag : Nat) : Nat × Nat := (55, gp * 2048 + tag)

/-- A flit is absent at gateway pavilion `gp` in tag cycle `tag`: a missed deadline of port `n`, logged once for the cycle
(R89). -/
def flitMissed (gp tag n : Nat) (s : State) : State :=
  if s.fab.marks.contains (cycleMark gp tag) then s
  else
    let s1 := { s with fab := { s.fab with marks := cycleMark gp tag :: s.fab.marks } }
    raiseHalt hcEasyMiss (logEvent evEasyMiss (locPav gp 0) n s1)

/-- Puts a flit received on a Daxair port into the port's receive buffer until its tag cycle (R116). One that comes after
that cycle is a missed deadline and is discarded (R89). -/
def holdFlit (n : Nat) (f : BitVec 64) (s : State) : State :=
  let due := dueCycle s n f
  if due / 2 < gOf s then flitMissed (gatewayPav (flitFgate f)) (flitTag f) n s
  else { s with net := { s.net with held := s.net.held ++ [{ port := BitVec.ofNat 3 n, bits := f, due := due }] } }

/-- A held flit enters at its gateway by the ingress entry of its tag cycle (R116). -/
def enterGateway (h : HeldFlit) (s : State) : State :=
  let p := gatewayPav (flitFgate h.bits)
  let e := ingress s p (flitTag h.bits)
  if !e.getLsbD 31 then count (pavA p + 0x520) s
  else
    let legs := e.extractLsb' 13 18
    let b := mkFlit (flitPayload h.bits).toNat (cycleTag s (h.due + routeCost p legs)) (flitRreg h.bits) legs false 0 0
    let f : Flit := { bits := b, at_ := BitVec.ofNat 7 p, inp := 5, due := h.due }
    { s with net := { s.net with flits := s.net.flits ++ [f] },
             fab := { s.fab with marks := cycleMark p (flitTag h.bits) :: s.fab.marks } }

/-- Hands a held flit over: a flit whose due stroke has passed is a missed deadline (R89); of two for one gateway
input in one cycle the lower-numbered port's wins (R120), and NET_LAST holds the two Daxair ports where R133 names
gateways (DESIGN CHOICE, notes/assumptions/82.md). -/
def handOff (h : HeldFlit) (s : State) : State :=
  let gp := gatewayPav (flitFgate h.bits)
  let rest := fun (x : State) (d : HeldFlit) => { x with net := { x.net with held := x.net.held.erase d } }
  let same := s.net.held.filter fun x => x.port != h.port && x.due == h.due && flitFgate x.bits == flitFgate h.bits
  let s1 := rest s h
  if h.due / 2 < gOf s then flitMissed gp (flitTag h.bits) h.port.toNat s1
  else match lowestBy (fun x => x.port.toNat) (same.filter fun x => decide (x.port < h.port)) with
    | some w => collision gp 4 5 w.port.toNat h.port.toNat h.due s1
    | none =>
      let s2 := same.foldl (fun x l => collision gp 4 5 h.port.toNat l.port.toNat h.due (rest x l)) s1
      enterGateway h s2

/-- The gateway pavilion and tag of a flit that an ingress table has for the stroke in progress and that neither waits in a
receive buffer nor has entered (R89, R116). No flit is due while none can have crossed a link since the first stroke. -/
def ingressDue (s : State) : Option (Nat × Nat) :=
  if gOf s < Config.linkSlack then none
  else ((List.range 8).map gatewayPav).findSome? fun p =>
    ([2 * s.cox.stroke, 2 * s.cox.stroke + 1].find? fun t =>
      (ingress s p t).getLsbD 31 && !s.fab.marks.contains (cycleMark p t) &&
        s.net.held.all fun h => flitTag h.bits != t || gatewayPav (flitFgate h.bits) != p).map fun t => (p, t)

/-- INGRESS_HANDOFF at an expected port that holds no flit of the stroke: a flit that an ingress table has for the stroke and
that has not come, over a lost port or in a discarded frame, is a missed deadline (R89, R239, R257). DESIGN CHOICE
(notes/assumptions/92.md): an ingress entry names no port, so the event names the port of the command. -/
def missFlit (n : Nat) (s : State) : State :=
  match ingressDue s with
  | some (p, t) => if (fld s fPortsExpected).testBit n then flitMissed p t n s else s
  | none => s

/-- INGRESS_HANDOFF (R116): the flit whose tag cycle has come, or its absence (R89). -/
def execIngressHandoff (n : DPort) (s : State) : Res :=
  match running s, s.net.held.find? fun h => h.port == n && decide (h.due / 2 ≤ gOf s) with
  | true, some h => .next (handOff h s)
  | true, none => .next (missFlit n.toNat s)
  | false, _ => .next s

/-! Packets (R124, R125). -/

/-- Fields of a head flit (R125). -/
def pkOpcode (h : BitVec 64) : Nat := bits h 60 4
def pkDstPos (h : BitVec 64) : Nat := bits h 56 4
def pkDstIo (h : BitVec 64) : Bool := h.getLsbD 55
def pkDstPav (h : BitVec 64) : Nat := bits h 48 7
def pkSrcPos (h : BitVec 64) : Nat := bits h 44 4
def pkSrcIo (h : BitVec 64) : Bool := h.getLsbD 43
def pkSrcPav (h : BitVec 64) : Nat := bits h 36 7
def pkTag (h : BitVec 64) : Nat := bits h 26 10
def pkLen (h : BitVec 64) : Nat := bits h 23 3
def pkAddr (h : BitVec 64) : Nat := bits h 7 16
def pkCount (h : BitVec 64) : Nat := bits h 4 3

/-- A head flit from its fields. -/
def mkHead (op dstPos : Nat) (dstIo : Bool) (dstPav srcPos : Nat) (srcIo : Bool) (srcPav tag len addr cnt : Nat) :
    BitVec 64 :=
  BitVec.ofNat 64 (op * 2 ^ 60 + dstPos * 2 ^ 56 + dstIo.toNat * 2 ^ 55 + dstPav * 2 ^ 48 + srcPos * 2 ^ 44 +
    srcIo.toNat * 2 ^ 43 + srcPav * 2 ^ 36 + tag % 1024 * 2 ^ 26 + len * 2 ^ 23 + addr % 65536 * 2 ^ 7 + cnt * 2 ^ 4)

/-- The virtual network of an opcode (R108, R125). -/
def vnOf (op : Nat) : Nat := if op < 8 then 1 else if op < 0xC then 2 else 3

/-- The index of the dynamic route entry for a packet (R124). -/
def drouteIndex (s : State) (h : BitVec 64) : Nat :=
  if pkDstPos h = position s ∧ !pkDstIo h then pkDstPav h
  else 128 + 8 * pkDstPos h + (if pkDstIo h then 0 else rowOf (pkDstPav h))

/-- Flits of a packet. -/
def pkSize (p : Packet) : Nat := 1 + p.data.length

/-- Key of a router input buffer. -/
def bufKey (r inp vn : Nat) : Nat := (r * 6 + inp) * 4 + vn

/-- The packets waiting in a buffer. -/
def buf (s : State) (k : Nat) : List Packet := look [] s.net.bufs k

/-- Sets a buffer. -/
def setBuf (k : Nat) (ps : List Packet) (s : State) : State := { s with net := { s.net with bufs := upd [] s.net.bufs k ps } }

/-- Room of a buffer in flits: 8 for VN1 and VN2, 4 for VN3 (R108). An empty buffer takes any packet: the flits of a CFG_WR
with four data flits, one more than a VN3 buffer holds, pass through it as they come (R125). -/
def hasRoom (s : State) (k vn size : Nat) : Bool :=
  let used := (buf s k).foldl (fun a p => a + pkSize p) 0
  used == 0 || decide (used + size ≤ if vn = 3 then 4 else 8)

/-- A packet as the NI of pavilion `p`, or its gateway for the I/O die, injects it: the route of its dynamic entry, or
none where the entry is not valid (R124, R137). -/
def routed (s : State) (p : Nat) (h : BitVec 64) (data : List (BitVec 64)) : Option Packet :=
  let e := droute s p (drouteIndex s h)
  if e.getLsbD 31 then
    let legs := e.extractLsb' 13 18
    some
      { head := h, data := data, vn := BitVec.ofNat 2 (vnOf (pkOpcode h)), legs := legs, endG := e.getLsbD 12,
        nextPort := BitVec.ofNat 3 (nextOf legs (e.getLsbD 12)), bad := false, held := 0, cls := false }
  else none

/-- The loader's own packets, which a RECONF router accepts (R127). -/
def loaderPacket (pk : Packet) : Bool :=
  pkSrcIo pk.head && (pkOpcode pk.head == 0xC || pkOpcode pk.head == 0xD)

/-- A RECONF router holds this packet upstream (R128). -/
def heldBy (s : State) (r : Nat) (pk : Packet) : Bool :=
  portState s r == .reconf && (pk.vn == 1 || (pk.vn == 3 && !loaderPacket pk))

/-- The packets that wait at an NI (input 0) or at the I/O die (input 5) for a router's input buffer (R108, R110). -/
def waiting (s : State) (k : Nat) : List Packet := look [] s.net.waitQ k

/-- Sets the packets that wait for a buffer. -/
def setWaiting (k : Nat) (ps : List Packet) (s : State) : State :=
  { s with net := { s.net with waitQ := upd [] s.net.waitQ k ps } }

/-- The packet is a request of the NI of router `r`, which holds a place for its answer from its issue on (R108, R110). -/
def ownRequest (inp : Nat) (p : Packet) : Bool := inp == 0 && p.vn == 3

/-- The buffer at an input takes the packet now: it has room, a RECONF router takes none of the I/O die's but the
loader's (R110, R128), and the NI issues a request of its own only with a place for the answer, of which it has the eight
flits of R108. -/
def inputTakes (s : State) (r inp : Nat) (p : Packet) : Bool :=
  hasRoom s (bufKey r inp p.vn.toNat) p.vn.toNat (pkSize p) && !(inp == 5 && heldBy s r p) &&
    !(ownRequest inp p && decide (8 ≤ look 0 s.net.owed r))

/-- The NI of pavilion `r` owes itself `n` more answers' places. -/
def setOwed (r n : Nat) (s : State) : State := { s with net := { s.net with owed := upd 0 s.net.owed r n } }

/-- A packet enters the buffer at an input. -/
def enter (r inp : Nat) (p : Packet) (s : State) : State :=
  let k := bufKey r inp p.vn.toNat
  iff (ownRequest inp p) (fun x => setOwed r (look 0 x.net.owed r + 1) x) (setBuf k (buf s k ++ [p]) s)

/-- A packet goes to a router input, or waits before it. -/
def enqueuePacket (r inp : Nat) (p : Packet) (s : State) : State :=
  let k := bufKey r inp p.vn.toNat
  if (waiting s k).isEmpty && inputTakes s r inp p then enter r inp p s
  else setWaiting k (waiting s k ++ [p]) s

/-- The first packet that waits before an input enters it, if the input takes it now. -/
def refill (r inp vn : Nat) (s : State) : State :=
  let k := bufKey r inp vn
  match waiting s k with
  | p :: ps => if inputTakes s r inp p then enter r inp p (setWaiting k ps s) else s
  | [] => s

/-- The packets that wait at the NI and at the I/O die move up. -/
def refillAll (r : Nat) (s : State) : State :=
  [0, 5].foldl (fun x i => [1, 2, 3].foldl (fun y vn => refill r i vn y) x) s

/-- Appends to the packets a local port has delivered. -/
def toInbox (r : Nat) (p : Packet) (s : State) : State :=
  { s with net := { s.net with inbox := upd [] s.net.inbox r (look [] s.net.inbox r ++ [p]) } }

/-- Appends to the packets the I/O die has taken. -/
def toIo (p : Packet) (s : State) : State := { s with net := { s.net with ioIn := s.net.ioIn ++ [p] } }

/-- The head of a response to a packet from pavilion `p` of this package (R125). -/
def replyHead (s : State) (p op len addr : Nat) (h : BitVec 64) : BitVec 64 :=
  mkHead op (pkSrcPos h) (pkSrcIo h) (pkSrcPav h) (position s) false p (pkTag h) len addr 0

/-- Puts a packet, where there is one, into a queue of a router. -/
def queued (p port : Nat) (x : Option Packet) (s : State) : State :=
  match x with
  | some r => enqueuePacket p port r s
  | none => s

/-- Pavilion `p` answers a packet; an answer that finds no dynamic route is lost with it. -/
def reply (p op addr : Nat) (data : List (BitVec 64)) (h : BitVec 64) (s : State) : State :=
  queued p 0 (routed s p (replyHead s p op data.length addr h) data) s

/-- RESP_STATUS with a completion code (R125). -/
def replyStatus (p code : Nat) (h : BitVec 64) (s : State) : State := reply p 0xA code [] h s

/-- The I/O die answers a packet: the answer is taken at once by this package's I/O die when the source is there, or sent
from gateway 0. DESIGN CHOICE (notes/assumptions/92.md): no rule says through which gateway the I/O die issues its own
answers. -/
def ioAnswer (op code : Nat) (h : BitVec 64) (s : State) : State :=
  let r := mkHead op (pkSrcPos h) (pkSrcIo h) (pkSrcPav h) (position s) true 0 (pkTag h) 0 code 0
  let pk : Packet :=
    { head := r, data := [], vn := 2, legs := 0, endG := false, nextPort := 0, bad := false, held := 0, cls := false }
  if pkSrcPos h = position s ∧ pkSrcIo h then toIo pk s
  else queued 0 5 (routed s 0 r []) s

/-- RESP_STATUS from the I/O die. -/
def ioStatus (code : Nat) (h : BitVec 64) (s : State) : State := ioAnswer 0xA code h s

/-- A VN3 MGMT packet from the NI of pavilion `p` to this package's I/O die (R125, R330, R333). DESIGN CHOICE
(notes/assumptions/86.md): its one data flit holds the port in bits [11:0], the instance in bit 12, and 1 in bit 13 for a
credit, 0 for a landing. One that finds no valid dynamic entry is answered `DEAD_TARGET` at the NI (R137). -/
def sendNotice (p port inst : Nat) (credit : Bool) (s : State) : State :=
  let h := mkHead 0xE (position s) true 0 (position s) false p 0 1 0 0
  match routed s p h [BitVec.ofNat 64 (port + inst * 2 ^ 12 + credit.toNat * 2 ^ 13)] with
  | some x => enqueuePacket p 0 x s
  | none => toInbox p
      { head := replyHead s p 0xA 0 ccDeadTarget h, data := [], vn := 2, legs := 0, endG := false, nextPort := 0, bad := false,
        held := 0, cls := false } (setOwed p (look 0 s.net.owed p + 1) s)

/-- A notice of a port that `f` names. -/
def noticeOf (s : State) (f : Nat → Bool) (pk : Packet) : Bool :=
  pkOpcode pk.head == 0xE && pkSrcPos pk.head == position s && !pkSrcIo pk.head && f (bits (pk.data.headD 0) 0 12)

/-- The credits of ports that are gone are void wherever their notices stand: each travels on and is answered, and brings
no credit (R125). -/
def dropNotices (f : Nat → Bool) (s : State) : State :=
  let keep := fun (ps : List Packet) => ps.map fun pk =>
    if noticeOf s f pk then { pk with data := pk.data.map fun d => putBit d 13 false } else pk
  let each := fun (t : Sparse (List Packet)) => t.map fun e => (e.1, keep e.2)
  { s with net := { s.net with bufs := each s.net.bufs, waitQ := each s.net.waitQ, inbox := each s.net.inbox,
                               latch := each s.net.latch, ioIn := keep s.net.ioIn } }

/-! The board (R225 to R227, R237). -/

/-- Columns and rows of the board from a header's positions (R225, R226). -/
def shapeOf (count : Nat) (positions : BitVec 16) : Nat × Nat :=
  if count ≤ 1 then (1, 1) else (popcount (positions.extractLsb' 0 4), popcount (positions &&& 0x1111))

/-- Columns and rows of this package's board. -/
def shape (s : State) : Nat × Nat :=
  match header s with
  | some h => shapeOf h.packageCount.toNat h.positions
  | none => (1, 1)

/-- Steps forward and back from `a` to `b` round a ring of `n`: true if forward is the shorter way or a tie. -/
def forwardWay (n a b : Nat) : Bool := decide ((b + n - a) % n ≤ (a + n - b) % n)

/-- The direction toward a position: 0 E, 1 W, 2 S, 3 N, or none at the position itself (R233, R237). -/
def directionTo (s : State) (pos : Nat) : Option Nat :=
  let (c, r) := shape s
  let me := position s
  if me % 4 ≠ pos % 4 then some (if forwardWay c (me % 4) (pos % 4) then 0 else 1)
  else if me / 4 ≠ pos / 4 then some (if forwardWay r (me / 4) (pos / 4) then 2 else 3)
  else none

/-- The Daxair port that a packet takes toward a position (R237). -/
def portTo (s : State) (pos tag : Nat) : Option Nat := (directionTo s pos).map fun d => 2 * d + tag % 2

/-- The class of a packet on the link it takes: 1 once it crosses the wraparound link of its ring, 0 again when it
turns from the row to the column (R237). -/
def classOn (s : State) (pk : Packet) (d : Nat) : Bool :=
  let (c, r) := shape s
  let me := position s
  let wrap := match d with
    | 0 => me % 4 + 1 == c
    | 1 => me % 4 == 0
    | 2 => me / 4 + 1 == r
    | _ => me / 4 == 0
  let turned := decide (2 ≤ d) && decide (pkSrcPos pk.head / 4 = me / 4)
  wrap || (pk.cls && !turned)

/-- A packet waits for a data frame of port `n` (R256). -/
def transmit (n : Nat) (pk : Packet) (s : State) : State :=
  let x := look LnkPort.off s.lnk n
  { s with lnk := upd LnkPort.off s.lnk n { x with txQ := x.txQ ++ [pk] } }

/-- A packet lost on a port: a VN1 or VN3 packet is answered `DEAD_TARGET`, a VN2 packet completes its requester's tag
with `INTERNAL` (R239). -/
def losePkt (s : State) (pk : Packet) : State :=
  let h := pk.head
  if vnOf (pkOpcode h) = 2 then
    emit (.tagDone (pkDstIo h) (BitVec.ofNat 7 (pkDstPav h)) (BitVec.ofNat 10 (pkTag h)) 0xFF []) s
  else ioStatus ccDeadTarget h s

/-- A response marked bad as it leaves on a Daxair link, whose slots carry no mark (R253): RESP_STATUS `INTERNAL` with its tag,
which completes the requester's tag as R122 has it. -/
def badReply (pk : Packet) : Packet :=
  let h := pk.head
  { pk with head := mkHead 0xA (pkDstPos h) (pkDstIo h) (pkDstPav h) (pkSrcPos h) (pkSrcIo h) (pkSrcPav h) (pkTag h) 0
              ccInternal 0, data := [], bad := false }

/-- A packet sent toward another package (R237); without a port, it is lost (R239). A request marked bad is answered
`INTERNAL` here. DESIGN CHOICE (notes/assumptions/92.md): R122 has its destination discard it and that destination's router
answer, and a slot of a Daxair frame has no place for the mark. -/
def sendFar (pk : Packet) (s : State) : State :=
  match directionTo s (pkDstPos pk.head) with
  | some d =>
    let n := 2 * d + pkTag pk.head % 2
    if pk.bad && pk.vn != 2 then ioStatus ccInternal pk.head s
    else if boardPort s n then transmit n { (if pk.bad then badReply pk else pk) with cls := classOn s pk d } s
    else losePkt s pk
  | none => losePkt s pk

/-- A packet at the I/O die: consumed here, injected at its gateway, or sent on toward its package (R124, R237,
R238); one marked bad is answered `INTERNAL` (R122), and a request that the I/O die does not serve `DEAD_TARGET`
(notes/assumptions/55.md). -/
def atIo (pk : Packet) (s : State) : State :=
  let h := pk.head
  if pkDstPos h ≠ position s then sendFar pk s
  else if pkDstIo h then
    if pk.vn != 2 && pk.bad then ioStatus ccInternal h s
    else if pk.vn == 2 || pkOpcode h == 0xE then toIo pk s
    else ioStatus ccDeadTarget h s
  else
    let p := pkDstPav h
    let g := gatewayPav (2 * dieOf p + rowOf p % 2)
    match routed s g h pk.data with
    | some x => enqueuePacket g 5 { x with bad := pk.bad } s
    | none => if vnOf (pkOpcode h) = 2 then s else ioStatus ccDeadTarget h s

/-! Hops (R109, R127, R128). -/

/-- Cycle `c` of output `k` of router `r` carries a packet flit: it is neither reserved nor taken by an unreserved VN0 flit
(R109, R117, R120, R128). -/
def flitFree (s : State) (r k vn c : Nat) : Bool :=
  let n := cycleTag s c
  !reserved s r n k && !s.net.skid.contains (r * 6 + k, n) && !(portState s r == .reconf && vn == 2 && (mapByte s.shadow r n).testBit k)

/-- The reservation maps count and packets take cycles of the stroke in progress (R109). -/
def paced (s : State) : Bool := running s && s.ldr.stage != 0

/-- The first cycle of the stroke in progress in which output `k` of router `r` is free for a packet: one flit goes in each
cycle, so the output is taken until the packet granted last has left (R109). -/
def freeCycle (s : State) (r k vn : Nat) : Option Nat :=
  if !paced s then some (2 * gOf s)
  else [2 * gOf s, 2 * gOf s + 1].find? fun c => decide (look 0 s.net.outFrom (r * 6 + k) ≤ c) && flitFree s r k vn c

/-- Output `k` of router `r` is free for a packet in some cycle of the stroke in progress. -/
def cycleFree (s : State) (r k vn : Nat) : Bool := (freeCycle s r k vn).isSome

/-- The cycle after the ones that `n` flits take at an output from cycle `c` on, within `fuel` cycles (R109). -/
def afterFlits (s : State) (r k vn : Nat) : (fuel n c : Nat) → Nat
  | _, 0, c => c
  | 0, _, c => c
  | fuel + 1, n + 1, c =>
    if flitFree s r k vn c then afterFlits s r k vn fuel n (c + 1) else afterFlits s r k vn fuel (n + 1) (c + 1)

/-- The output is taken while the flits of a packet granted in cycle `c` leave. -/
def takeOutput (r k vn n c : Nat) (s : State) : State :=
  if paced s then
    { s with net := { s.net with outFrom := upd 0 s.net.outFrom (r * 6 + k) (afterFlits s r k vn 4096 n c) } }
  else s

/-- What stands in the way of the packet at the head of a buffer: nothing, a RECONF hold, or no room. -/
inductive HopWait where
  | go | reconf | room
  deriving DecidableEq, Repr

/-- Whether the head packet of router `r` can leave by output `k` (R109, R110, R127, R128, R130). -/
def hopWait (s : State) (r k : Nat) (pk : Packet) : HopWait :=
  let vn := pk.vn.toNat
  if k = 0 then
    if heldBy s r pk then .reconf
    else if portState s r == .down && vn != 2 && decide (32 ≤ (look [] s.net.latch (dieOf r)).length) then .room
    else .go
  else if k = 5 then .go
  else
    let q := neighbour r k
    if heldBy s q pk then .reconf
    else if hasRoom s (bufKey q (farInput k) vn) vn (pkSize pk) then .go else .room

/-- The next input, in round-robin order, whose head packet can leave by output `k` on a virtual network (R109). -/
def nextInput (s : State) (r k vn : Nat) : Option Nat :=
  let t := look 0 s.net.turn (bufKey r k vn)
  ((List.range 6).map fun i => (t + i) % 6).find? fun i =>
    match buf s (bufKey r i vn) with
    | pk :: _ => pk.nextPort.toNat == k && (hopWait s r k pk == .go)
    | [] => false

/-- The virtual network and input that output `k` serves now: VN2 before VN1 before VN3 (R109). -/
def grantOf (s : State) (r k : Nat) : Option (Nat × Nat) :=
  [2, 1, 3].findSome? fun vn =>
    if cycleFree s r k vn then (nextInput s r k vn).map fun i => (vn, i) else none

/-- A packet delivered at a local port (R127): a request marked bad is answered `INTERNAL` whatever the port's state
(R122), and an NI has nothing to do for a MGMT packet but to acknowledge it (R125). -/
def atLocal (r : Nat) (pk : Packet) (s : State) : State :=
  if pk.bad && (pk.vn == 1 || pk.vn == 3) then replyStatus r ccInternal pk.head s
  else if pk.vn == 3 && pkOpcode pk.head == 0xE && (portState s r == .live || portState s r == .dead) then
    reply r 9 0 [] pk.head s
  else match portState s r, pk.vn.toNat with
  | .live, _ => toInbox r pk s
  | .dead, 1 => replyStatus r ccDeadTarget pk.head s
  | .dead, 3 => toInbox r pk s
  | .reconf, 3 => toInbox r pk s
  | .down, 1 | .down, 3 =>
    let d := dieOf r
    { s with net := { s.net with latch := upd [] s.net.latch d (look [] s.net.latch d ++ [pk]) } }
  | _, _ => s

/-- The flits of a packet whose check fails on a link, by their numbers, with the error bits of each transfer (R107). -/
def failedFlits (errs : List (BitVec 72)) (pk : Packet) : List Nat :=
  (List.range (pkSize pk)).filter fun i => (received ((pk.head :: pk.data).getD i 0) (errs.getD i 0)).isNone

/-- A packet as the far end of a link takes it, with the error bits of each flit's transfer (R107): one flit that fails
its check marks it bad (R122). -/
def overLink (errs : List (BitVec 72)) (pk : Packet) : Packet :=
  match received pk.head (errs.getD 0 0), pk.data.zipIdx.mapM fun d => received d.1 (errs.getD (d.2 + 1) 0) with
  | some h, some ds => { pk with head := h, data := ds }
  | _, _ => { pk with bad := true }

/-- Moves the packet at the head of an input through output `k`. Every CRC mismatch is counted at the router or NI that
receives it (R135) and marks the packet bad (R122); NET_LAST takes the cycle in which the first such flit arrives. -/
def movePacket (r inp k vn : Nat) (pk : Packet) (errs : List (BitVec 72)) (s : State) : State :=
  let key := bufKey r inp vn
  let c := (freeCycle s r k vn).getD (2 * gOf s)
  let s1 := setBuf key ((buf s key).drop 1) (takeOutput r k vn (pkSize pk) c s)
  let s2 := { s1 with net := { s1.net with turn := upd 0 s1.net.turn (bufKey r k vn) ((inp + 1) % 6) } }
  let s3 := countN (pavA r + 0x560 + 8 * k) (pkSize pk) s2
  let legs := stepLegs pk.legs
  let pk' := overLink errs { pk with held := 0 }
  let cost := if k = 0 ∨ k = 5 then 0 else linkCost r k
  let checked := fun (q port : Nat) (x : State) => match failedFlits errs pk with
    | [] => x
    | i :: is =>
      let at_ := if paced s then afterFlits s r k vn 4096 (i + 1) c - 1 else c
      recordNet q 3 port port port (at_ + cost) none (countN (pavA q + 0x538) (is.length + 1) x)
  if k = 0 then atLocal r pk' (checked r 0 s3)
  else if k = 5 then atIo pk' s3
  else
    let q := neighbour r k
    enqueuePacket q (farInput k) { pk' with legs := legs, nextPort := BitVec.ofNat 3 (nextOf legs pk.endG) }
      (checked q (farInput k) s3)

/-- A head packet that a RECONF hold keeps waits one more cycle, up to 4,096 (R128). -/
def waitPacket (r inp vn : Nat) (pk : Packet) (s : State) : State :=
  if pk.held < 4096 then
    let key := bufKey r inp vn
    count (pavA r + 0x540) (setBuf key ({ pk with held := pk.held + 1 } :: (buf s key).drop 1) s)
  else s

/-- Every head packet at output `k` that a RECONF hold keeps waits one more cycle. -/
def waitHeld (r k : Nat) (s : State) : State :=
  [1, 3].foldl (fun x vn => (List.range 6).foldl (fun y i =>
    match buf y (bufKey r i vn) with
    | pk :: _ => iff (pk.nextPort.toNat == k && hopWait y r k pk == .reconf) (waitPacket r i vn pk) y
    | [] => y) x) s

/-- One cycle of output `k`: held packets count it, and the packet granted moves. -/
def hop (r k : Nat) (errs : List (BitVec 72)) (s : State) : State :=
  let s1 := waitHeld r k (refillAll r s)
  match grantOf s1 r k with
  | none => s1
  | some (vn, i) =>
    match buf s1 (bufKey r i vn) with
    | [] => s1
    | pk :: _ => movePacket r i k vn pk errs s1

/-- PACKET_HOP (R109); `errs` holds the error bits of the transfer of each flit (R107). -/
def execPacketHop (p : Pav) (out : RPort) (errs : List (BitVec 72)) (s : State) : Res :=
  forUnit (decide (out.toNat < 6)) (.next (hop p.toNat out.toNat errs s))

/-- The head packet at an output of router `r` whose hold has reached its limit, with its input (R128). -/
def busyPacket (s : State) (r k : Nat) : Option (Nat × Nat × Packet) :=
  [1, 3].findSome? fun vn => (List.range 6).findSome? fun i =>
    match buf s (bufKey r i vn) with
    | pk :: _ => if pk.nextPort.toNat == k && hopWait s r k pk == .reconf && decide (4096 ≤ pk.held)
        then some (vn, i, pk) else none
    | [] => none

/-- ROUTE_BUSY (R128): a packet held for 4,096 cycles is removed and answered. -/
def execRouteBusy (p : Pav) (out : RPort) (s : State) : Res :=
  forUnit (decide (out.toNat < 6))
    (match busyPacket s p.toNat out.toNat with
     | some (vn, i, pk) =>
       let key := bufKey p.toNat i vn
       .next (replyStatus p.toNat ccRouteBusy pk.head
         (count (pavA p.toNat + 0x548) (setBuf key ((buf s key).drop 1) s)))
     | none => .next s)

/-- Every pavilion of a die is back from DOWN: its wake latch can replay (R126, R130). -/
def dieAwake (s : State) (d : Nat) : Bool := fld s (fDomDie d) == 0 && fld s (fDomStore d) == 0 && !s.pwr.dieOff.getLsbD d

/-- A local port goes DOWN; one that was DEAD is noted (R130, R131). -/
def portDowns (p : Nat) (s : State) : State :=
  setPort p .down { s with net := { s.net with wasDead := putBit s.net.wasDead p (portState s p == .dead || (portState s p == .down && s.net.wasDead.getLsbD p)) } }

/-- A pavilion that is DOWN wakes DEAD: it was dead, or its region has died meanwhile (R126, R131). -/
def wakesDead (s : State) (p : Nat) : Bool :=
  s.net.wasDead.getLsbD p || s.pwr.dieDead.getLsbD (dieOf p) ||
    s.ldr.regions.any fun g => g.2.dead && regionOf s p == some g.1

/-- A local port leaves DOWN for LIVE or DEAD (R126, R131). -/
def portUps (p : Nat) (s : State) : State :=
  setPort p (if wakesDead s p then .dead else .live) { s with net := { s.net with wasDead := putBit s.net.wasDead p false } }

/-- The local ports of a die leave DOWN (R126, R131). -/
def portsUp (d : Nat) (s : State) : State :=
  (pavsOfDie d).foldl (fun x p => iff (portState x p == .down) (portUps p) x) s

/-- A router on a route is in RECONF (R128). -/
def reconfOn (s : State) : Nat → Nat → BitVec 18 → Bool
  | 0, p, _ => portState s p == .reconf
  | n + 1, p, legs => portState s p == .reconf || match firstLeg legs with
    | some i => reconfOn s n (neighbour p ((leg legs i).1 + 1)) (stepLegs legs)
    | none => false

/-- A router that a packet of the I/O die to pavilion `p` passes, through the gateway of R238, is in RECONF (R128). -/
def routeReconf (s : State) (p : Nat) : Bool :=
  let g := gatewayPav (2 * dieOf p + rowOf p % 2)
  let e := droute s g p
  portState s p == .reconf || (e.getLsbD 31 && reconfOn s 46 g (e.extractLsb' 13 18))

/-- The wake latch replays its oldest packet, and the die is LIVE once it is empty (R126, R130). -/
def replayLatch (d : Nat) (s : State) : State :=
  match look [] s.net.latch d with
  | [] => portsUp d s
  | pk :: ps =>
    let s1 := { s with net := { s.net with latch := upd [] s.net.latch d ps } }
    let r := pkDstPav pk.head
    let s2 := if wakesDead s r && pk.vn == 1 then replyStatus r ccDeadTarget pk.head s1 else toInbox r pk s1
    iff ps.isEmpty (portsUp d) s2

/-- WAKE_LATCH_REPLAY (R130). -/
def execWakeLatchReplay (die : BitVec 2) (s : State) : Res :=
  whenever (dieAwake s die.toNat) s (replayLatch die.toNat s)

end Sys2Proof.Machine
end

