-- ==== Sys2Proof/Machine/Cycles.lean ====
section
/-! DEFINITION. The bank cycles that the schedule leaves (R175 to R177, R192), and those who take them: correction
write-backs (R188), capture (R422), host writes and the scrubbers (R190). -/

namespace Sys2Proof.Machine

/-! What the schedule accesses in the stroke in progress, by the contributions made so far, and the cycles it leaves
(R175, R176). -/

/-- The codewords, by key, that the operations of a pavilion access in this stroke, each with its port (2 for deep
memory) and whether it writes. -/
def schedAccess (s : State) (p : Nat) : List (Nat × Bool × Nat) :=
  ((opNames s).filter fun x => x.1 == p).flatMap fun x =>
    let desc := descriptor s p x.2
    let port := desc / 2 ^ 60 % 4
    let cs := contribsOf s p x.2
    let en := enableOf cs
    if descOk desc && !(fourState s && addrVague cs) then
      (instIndex s cs).filterMap fun i =>
        if (if fourState s then en != v0 else en.getLsbD i.1) then
          (target s p (port == 2) (alloc s (desc / 2 ^ 51 % 512)) i.2).map fun k => (port, desc.testBit 62, k)
        else none
    else []

/-- Pavilion codewords that the contributions made so far in this stroke write in bank memory. -/
def schedWrites (s : State) (p : Nat) : List Nat :=
  (schedAccess s p).filterMap fun a => if a.1 < 2 && a.2.1 then some (a.2.2 % 65536) else none

/-- A bank codeword that the schedule accesses in this stroke. -/
def schedBank (s : State) (p i : Nat) : Bool :=
  (schedAccess s p).any fun a => decide (a.1 < 2) && a.2.2 % 65536 == i

/-- A deep codeword that the schedule accesses in this stroke. -/
def schedDeep (s : State) (k : Nat) : Bool :=
  (dedup (sortBy id (s.fab.contribs.map (·.pav.toNat)))).any fun p => (schedAccess s p).any fun a => a.1 == 2 && a.2.2 == k

/-- Cycles of a bank's port, two in one stroke (R175), that grants have taken; bank 0's second port stands as bank 8192
(R176). -/
def cyclesGranted (s : State) (p b : Nat) : Nat := (s.fab.grants.filter (· == p * 64 + b)).length

/-- Cycles that scheduled operations, or grants before, have taken in this stroke of the port that serves the schedule. -/
def cyclesTaken (s : State) (p b : Nat) : Nat :=
  ([0, 1].filter fun port => (schedAccess s p).any fun a => a.1 == port && a.2.2 % 65536 / 1024 == b).length +
    cyclesGranted s p b

/-- Free cycles of bank 0's second port (R176); no other bank has one. -/
def secondFree (s : State) (p b : Nat) : Nat := if b = 0 then 2 - cyclesGranted s p 8192 else 0

/-- The bank that a waiting capture write goes to. -/
def captureBank (s : State) (w : CapWrite) : Option Nat := (capKey s w.pav.toNat w.pos w.j).map (· / 1024 % 64)

/-- The bank that a waiting BANK_RD or BANK_WR packet accesses first. -/
def packetBank (pk : Packet) : Option Nat :=
  if pk.vn == 1 && (pkOpcode pk.head == 1 || pkOpcode pk.head == 2) then some (pkAddr pk.head / 1024) else none

/-- The rank of a bank packet (R176): 0 for the Keeper's, 3 for host access. Host accesses of this package come in BANK_RD
and BANK_WR entries, so a packet from its own I/O die is the Keeper's (DEDUCED, notes/assumptions/92.md). -/
def packetRank (s : State) (pk : Packet) : Nat := if pkSrcIo pk.head && pkSrcPos pk.head == position s then 0 else 3

/-- A packet of a rank waits for a bank. -/
def packetWaits (s : State) (p b rank : Nat) : Bool :=
  (look [] s.net.inbox p).any fun pk => packetBank pk == some b && packetRank s pk == rank

/-- Requests of a rank above `rank` that wait for a bank on the port that serves the schedule: 0 the Keeper, 1 a correction
write-back (R176). -/
def outranked (s : State) (p b rank : Nat) : Nat :=
  (packetWaits s p b 0 && decide (0 < rank)).toNat +
    ((s.fab.backs.any fun w => !w.deep && w.key / 1024 == p * 64 + b) && decide (1 < rank)).toNat

/-- Requests of a rank above `rank` that wait for a bank on any port: 2 capture, 3 host access, 4 the scrubber (R176). -/
def outrankedLow (s : State) (p b rank : Nat) : Nat :=
  ((s.trg.writes.any fun w => w.pav.toNat == p && captureBank s w == some b) && decide (2 < rank)).toNat +
    (packetWaits s p b 3 && decide (3 < rank)).toNat

/-- A bank cycle is free to a request of a rank: the schedule, the grants before and the higher ranks leave one (R176).
The Keeper and write-backs use the port that serves the schedule; the others use bank 0's second port too. Where no stroke
is in progress every cycle is free. -/
def bankGrants (s : State) (p b rank : Nat) : Bool :=
  let left := 2 - (cyclesTaken s p b + outranked s p b rank)
  !running s || (if rank < 2 then decide (0 < left) else decide (outrankedLow s p b rank < left + secondFree s p b))

/-- A bank cycle is taken. -/
def takeCycle (p b : Nat) (s : State) : State :=
  iff (running s) (fun x => { x with fab := { x.fab with grants := (p * 64 + b) :: x.fab.grants } }) s

/-- A request of a rank takes a cycle: bank 0's second port first, for capture, host access and the scrubber (R176). -/
def takeFor (p b rank : Nat) (s : State) : State :=
  takeCycle p (if 2 ≤ rank ∧ 0 < secondFree s p b then 8192 else b) s

/-- The oldest corrected codeword is written where the word read still stands (R188). -/
def writeBack (s : State) : State :=
  match s.fab.backs with
  | [] => s
  | w :: ws =>
    let s1 := { s with fab := { s.fab with backs := ws } }
    if w.deep then iff (deepCw s w.key == w.old) (setDeepCw w.key w.new) s1
    else takeCycle (w.key / 65536) (w.key % 65536 / 1024)
      (iff ((bankCw s w.key).setWidth 288 == w.old) (setBankCw w.key (w.new.setWidth 72)) s1)

/-- The oldest write-back finds a cycle of its bank free (R176, R188). -/
def backGranted (s : State) : Bool :=
  match s.fab.backs with
  | w :: _ => w.deep || bankGrants s (w.key / 65536) (w.key % 65536 / 1024) 1
  | [] => false

/-- CORRECTION_WRITE_BACK (R188). -/
def execCorrectionWriteBack (s : State) : Res := whenever (backGranted s) s (writeBack s)

/-! Host writes (R177, R192). -/

/-- The first of `n` codewords from `i` up that a scheduled write of this stroke targets too. -/
def clashAt (s : State) (p n i : Nat) : Option Nat :=
  let ws := schedWrites s p
  (List.range n).find? fun j => ws.contains (i + j)

/-- A host write that meets a scheduled write of its codeword waits for a later free cycle (R192); on bank 0, where
`same` says that the second port took the scheduled write's cycle, it does not wait (R177). -/
def hostWaits (s : State) (p n i : Nat) (same : Bool) : Bool :=
  (clashAt s p n i).any fun j => !(same && decide (i + j < 1024))

/-- A host write of codewords: one dropped in favour of a scheduled write ends it `INTERNAL` (R177, R302). -/
def hostWrite (p : Nat) (ws : List (BitVec 64)) (i : Nat) (s : State) : Nat × Option Nat × State :=
  match clashAt s p ws.length i with
  | none => writeCws p ws i s
  | some j =>
    let (n, c, s1) := writeCws p (ws.take j) i s
    (n, some (c.getD ccInternal), s1)

/-! Scrubbers (R190). -/

/-- The bank scrubber can read a codeword now: the schedule does not access it in this stroke (R192), and a cycle of its
bank is free (R176). -/
def bankScrubMay (s : State) (n : Nat) : Bool :=
  !schedBank s (n / 65536) (n % 65536) && bankGrants s (n / 65536) (n % 65536 / 1024) 4

/-- The scrubber reads a bank codeword. -/
def scrubBank (n : Nat) (s : State) : State :=
  (bankRead (n / 65536) (n % 65536) 2 (takeFor (n / 65536) (n % 65536 / 1024) 4 s)).2

/-- The bank scrubber reads its next codeword and moves on (R190); it waits for a cycle that it may take. -/
def bankScrubStep (s : State) : State :=
  let pos := bits (reg s 0x60108) 0 23
  let start := match nextBankItem s pos with
    | some n => some (n, s)
    | none => (nextBankItem s 0).map fun n => (n, memPass 0 s)
  match start with
  | none => s
  | some (n, s1) =>
    let s2 := scrubBank n s1
    if !bankScrubMay s n then s
    else match nextBankItem s2 (n + 1) with
    | some m => setReg 0x60108 (BitVec.ofNat 32 m) s2
    | none => memPass 0 (setReg 0x60108 (BitVec.ofNat 32 ((nextBankItem s2 0).getD 0)) s2)

/-- The deep scrubber reads its next codeword and moves on (R190); it waits where the schedule accesses that codeword in
this stroke (R192). -/
def deepScrubStep (glitch : BitVec 288) (s : State) : State :=
  let pos := bits (reg s 0x6010C) 0 31
  let s1 := (deepRead pos 1 glitch s).2
  let s2 := setReg 0x6010C (BitVec.ofNat 32 ((pos + 1) % 2 ^ 31)) s1
  if schedDeep s pos then s else iff (pos + 1 == 2 ^ 31) (memPass 16) s2

/-! Capture writes (R422). -/

/-- A codeword of a sample has been written: the next waits, and after the last none. -/
def wordWritten (w : CapWrite) (s : State) : State :=
  let ws := if w.j + 1 < w.w then s.trg.writes.map fun x => if x == w then { w with j := w.j + 1 } else x
    else s.trg.writes.erase w
  { s with trg := { s.trg with writes := ws } }

/-- Writes the next codeword of a sample into the ring. -/
def storeSample (w : CapWrite) (s : State) : State :=
  let s1 := wordWritten w s
  match capKey s w.pav.toNat w.pos w.j with
  | some k => writeFree k (w.val.extractLsb' (64 * w.j) 64) s1
  | none => s1

/-- The oldest sample waiting to be written for a pavilion. -/
def waitingWrite (s : State) (p : Pav) : Option CapWrite := s.trg.writes.find? fun w => w.pav == p

/-- A capture write to bank 0 meets a scheduled write of its codeword (R177). -/
def captureClash (s : State) (w : CapWrite) : Bool :=
  (capKey s w.pav.toNat w.pos w.j).any fun k =>
    decide (k % 65536 < 1024) && (schedWrites s w.pav.toNat).contains (k % 65536)

/-- A capture write finds a cycle of its bank free (R176). -/
def captureGranted (s : State) (w : CapWrite) : Bool :=
  (captureBank s w).all fun b => bankGrants s w.pav.toNat b 2

/-- A capture write takes a cycle for its next codeword (R175): it is written, or the sample is dropped for a scheduled
write (R177, R422). -/
def captureTakes (w : CapWrite) (s : State) : State :=
  if captureClash s w then dropWrite s w
  else storeSample w (match captureBank s w with
    | some b => takeFor w.pav.toNat b 2 s
    | none => s)

/-- The stroke in progress is the last before stroke S (R422). -/
def beforeSample (s : State) : Bool := running s && (s.cox.stroke + 1) % s.cox.length == sampleStroke s

/-- CAPTURE_WRITE (R422): the next codeword of the sample waiting is written where its bank has a free cycle. Where none is
asked for (`granted` false), a write that finds none in the last stroke before the next sample is dropped. Not in Easy
(R86). -/
def execCaptureWrite (p : Pav) (granted : Bool) (s : State) : Res :=
  match s.cox.st == .easy, waitingWrite s p with
  | false, some w =>
    if granted then whenever (captureGranted s w) s (tryDone (captureTakes w s))
    else whenever (beforeSample s && !captureGranted s w) s (tryDone (dropWrite s w))
  | _, _ => .next s

end Sys2Proof.Machine
end

