-- ==== Sys2Proof/Machine/Course.lean ====
section
/-! DEFINITION. The course controller (R76 to R94): starts, course boundaries, Easy, halts, throttling, release stages
(R378), mode changes at a boundary (R207), lock-step (R210) and TETHERED pacing (R212 to R217). -/

namespace Sys2Proof.Machine

/-! Throttling (R93, R103). -/

/-- COX.THROTTLE.floor as it acts. -/
def throttleFloor (s : State) : Nat := min 16 (max 8 (fld s fThrFloor))

/-- A throttle step is taken: the level moves by one and `THROTTLE_STEP` is logged. -/
def throttleStep (up : Bool) (s : State) : State :=
  let n := if up then fld s fThrLevel + 1 else fld s fThrLevel - 1
  logEvent evThrottleStep locNone n
    (setFlag fThrPending false (setFld fThrLevel n
      { s with cox := { s.cox with throttle := none, lastStep := some (trcTime s) } }))

/-- A pending step is taken at once (no course stroke is due). -/
def throttleNow (s : State) : State :=
  match s.cox.throttle with
  | some (up, _) => throttleStep up s
  | none => s

/-! Easy requests (R83 to R88). -/

/-- Easy strokes that a request needs when it is sized at tick `w`; none while an open request has sent no CLEAR. -/
def needOf (w : Nat) : ReqKind → Option Nat
  | .tick t => some (t - w)
  | .len n => some n
  | .opn f => f

/-- E of a stop point when its start would be tick `w` (R87); none while an open request has no figure. -/
def easyFigure (r : StopRec) (w : Nat) : Option Nat :=
  if r.opn && r.figure.isNone then none else some (max (r.tick - w) (max r.len (r.figure.getD 0)))

/-- The STOP in force for a stop point. -/
def stopAt (s : State) (p : Nat) : Option StopRec := s.cox.stops.find? fun r => r.p == p

/-- An Easy takes place at stop point `p`, whose start would be tick `w` (R85, R87, R91). -/
def easyAt (s : State) (p w : Nat) : Bool :=
  s.cox.mode != .tethered &&
  match stopAt s p with
  | some r => easyFigure r w != some 0
  | none => false

/-- The largest need that the requests of a cause for a stop point have at tick `w` (R83, R88); none if an open one has no
figure yet. -/
def needAt (r : StopRec) (w cause : Nat) : Option Nat :=
  match cause with
  | 4 => some r.thermLen
  | 2 => some (max (r.linkTick - w) r.linkLen)
  | 1 => some (r.dmemTick - w)
  | 3 => if r.opn then r.figure else some 0
  | _ => some 0

/-- Cause bits of an Easy, DMEM first (R104): the causes of which a request needs a stroke. -/
def easyCauses (r : StopRec) (w : Nat) : Nat :=
  [1, 2, 3, 4].foldl (fun a c => if needAt r w c = some 0 then a else a + 2 ^ (c - 1)) 0

/-- Enters Easy at the stop point where the controller stands (R85, R86). -/
def enterEasy (s : State) : State :=
  match stopAt s (gOf s) with
  | none => s
  | some r =>
    let bits_ := easyCauses r (wall s)
    let v : Word := BitVec.ofNat 32 (s.cox.stroke * 2 ^ 22 + bits_ * 2 ^ 18 + 1)
    let s1 := setReg 0xB005C (BitVec.ofNat 32 (course s)) (setReg 0xB0058 v (count 0xB0040 s))
    let s2 := { s1 with cox := { s1.cox with st := .easy, easyK := 1, easyLong := false } }
    match s.cox.throttle with
    | some (up, p) => if p = gOf s then throttleStep up s2 else s2
    | none => s2

/-- Tick at which the stop point of the Easy in progress would have started. -/
def easyStart (s : State) : Nat := wall s + 1 - s.cox.easyK

/-- E of the Easy in progress, once it is known. -/
def easyLength (s : State) : Option Nat := (stopAt s (gOf s)).bind fun r => easyFigure r (easyStart s)

/-- The largest need of a cause in the Easy in progress (R88); a throttle step taken in it needed its 32 strokes. -/
def causeNeed (s : State) (cause : Nat) : Nat :=
  match stopAt s (gOf s) with
  | none => 0
  | some r => min ((easyLength s).getD 0) ((needAt r (easyStart s) cause).getD 0)

/-- Charges the Easy strokes: each to the highest-ranked cause that needs it (R88). -/
def chargeEasy (s : State) : State :=
  let order := [(4, 0xB0038), (2, 0xB0028), (1, 0xB0020), (3, 0xB0030)]
  (order.foldl (fun (acc : Nat × State) x =>
    let n := causeNeed s x.1
    (max acc.1 n, countN x.2 (n - acc.1) acc.2)) (0, s)).2

/-- Drops the stops and requests whose stop point has come. -/
def dropStops (s : State) : State :=
  let g := gOf s
  { s with cox := { s.cox with stops := s.cox.stops.filter fun r => decide (g < r.p),
                               reqs := s.cox.reqs.filter fun r => decide (g < r.p),
                               raised := s.cox.raised.filter fun r => decide (g < r.p) } }

/-! Modes at a boundary (R205, R207). -/

/-- Logs `MODE_CHANGE` and sets GLB.MODE_AT. -/
def logMode (old new : Mode) (s : State) : State :=
  logEvent evModeChange locNone (old.code * 16 + new.code) (setFld fModeAt (course s) s)

/-- The mode becomes SERVICE, from whatever cause: pins high impedance, capture stopped, data-plane operations
ended. -/
def serviceEffects (s : State) : State := stopDataPlane (triggerStop (pinsOff s))

/-- Lock-step is in force (R210). -/
def lockStep (s : State) : Bool := s.cox.lockstep || s.cox.lockPre

/-- A mode change takes effect (R207). DESIGN CHOICE (notes/assumptions/92.md): FLEET without fleet_pins releases the
outputs as it takes effect (R203), also where no course starts. -/
def applyMode (m : ModeSet) (s : State) : State :=
  let old := s.cox.mode
  let lockChange := m.lockstep != lockStep s
  let s0 := iff (m.mode == .service && old != .service) (densEnd true) s
  let s1 := { s0 with cox := { s0.cox with
                                 mode := m.mode, lockstep := m.lockstep, fleetPins := m.fleetPins, pend := none,
                                 lockPre := false, tether := none } }
  let s2 := iff lockChange (setFld fGrantBal 0) s1
  let s3 := iff (m.mode == .tethered && old != .tethered) (fun x =>
      setFlag fThrPending false (setFlag fTclkSeen false
        { x with cox := { x.cox with throttle := none, reqs := [], raised := [], stops := [] } })) s2
  let s4 := iff (m.mode == .service && old != .service) serviceEffects s3
  let s5 := iff (old == .service && m.mode != .service) pullsOn s4
  let s6 := iff (m.mode == .fleet && !m.fleetPins) releasePins s5
  iff (m.mode != old || m.lockstep != s.cox.lockstep || m.fleetPins != s.cox.fleetPins) (logMode old m.mode) s6

/-! Release stages (R378, R379). -/

/-- The shadow maps of a pavilion become the maps in force (R126, R128). -/
def adoptShadow (p : Nat) (s : State) : State :=
  let lo := cfgKey (frameKey 3 p 0 0 0) 0
  let own := s.shadow.filter fun e => lo ≤ e.1 && e.1 < lo + 512
  let cleared := s.cfg.filter fun e => !(lo ≤ e.1 && e.1 < lo + 512)
  { s with cfg := own.foldl (fun m e => upd 0 m e.1 e.2) cleared,
           shadow := s.shadow.filter fun e => !(lo ≤ e.1 && e.1 < lo + 512) }

/-- A pavilion's local port passes to LIVE, and a RECONF one adopts its shadow maps, at its stage 1 (R126, R378). -/
def liven (s : State) (p : Nat) : State :=
  match portState s p with
  | .reconf => adoptShadow p (setPort p .live s)
  | .dead => iff (enabled s p) (setPort p .live) s
  | _ => s

/-- The contents of a bank are gone. -/
def emptyBank (p b : Nat) (s : State) : State :=
  let lo := p * 65536 + b * 1024
  { s with bank := s.bank.filter fun e => !(decide (lo ≤ e.1 ∧ e.1 < lo + 1024)) }

/-- Brings a bank to a power state: one that turns on from off holds zero (R191). -/
def turnBank (p b st : Nat) (s : State) : State :=
  setBank p b st (iff (bankState s p b == 2 && st != 2) (emptyBank p b) s)

/-- The bank power map takes effect for a pavilion, at its stage 2 (R191). -/
def applyBankMap (s : State) (p : Nat) : State :=
  (List.range 64).foldl (fun x b => turnBank p b (if usedPav x p then bankMap x p b else 2) x) s

/-- Policies of the header flags (R147). -/
def headerPolicies (s : State) : State :=
  match header s with
  | some h =>
    setFlag fAllocHalt (h.flags.getLsbD 3) (setFlag fSkewHalt (h.flags.getLsbD 2) (setFlag fCollHalt (h.flags.getLsbD 1)
      (setFlag fTrapHalt (h.flags.getLsbD 0) s)))
  | none => s

/-- The mode that stage 1 of the base image brings (R205, R208, R218). -/
def releaseMode (s : State) : ModeSet :=
  match s.cox.startMode with
  | some m => m
  | none =>
    match header s with
    | some h =>
      let m := (modeOf h.startMode.toNat).getD .service
      { mode := m, lockstep := false, fleetPins := m == .fleet && h.flags.getLsbD 4, course := course s }
    | none => { mode := .service, lockstep := false, fleetPins := false, course := course s }

/-- The next stage of the base image takes effect with the course that starts. -/
def baseStage (s : State) : State :=
  if s.ldr.stage < s.ldr.target then
    let n := s.ldr.stage + 1
    let s1 := { s with ldr := { s.ldr with stage := n } }
    match n with
    | 1 =>
      let s2 := headerPolicies (allPavs.foldl liven s1)
      pullsOn (applyMode (releaseMode s2) { s2 with cox := { s2.cox with startMode := none } })
    | 2 => allPavs.foldl applyBankMap s1
    | _ => s1
  else s

/-- Pavilions of a region. -/
def regionPavs (s : State) (r : Nat) : List Nat := allPavs.filter fun p => regionOf s p == some r

/-- The next stage of a region takes effect with the course that starts (R379); a partial's header flags set no policy
(DESIGN CHOICE, notes/assumptions/82.md: R378 says so of a base image alone). -/
def regionStage (s : State) (e : Nat × Region) : State :=
  let (r, g) := e
  if g.stage < g.target then
    let n := g.stage + 1
    let g' := { g with stage := n }
    let s1 := { s with ldr := { s.ldr with regions := ins s.ldr.regions r g' } }
    match n with
    | 1 =>
      let s2 := (regionPavs s1 r).foldl liven s1
      iff (s2.cox.mode != .service) pullsOn
        { s2 with pins := { s2.pins with held := s2.pins.held.filter fun p => !(regionPavs s1 r).contains p },
                  dsp := { s2.dsp with deadPav := s2.dsp.deadPav.filter fun p => !(regionPavs s1 r).contains p } }
    | 2 => (regionPavs s1 r).foldl applyBankMap s1
    | _ => s1
  else s

/-- Release stages of a course that starts. -/
def releaseStages (s : State) : State := s.ldr.regions.foldl regionStage (baseStage s)

/-! Starting a course. -/

/-- The mode that paces the next course, and its lock-step: before stage 1, the one that stage 1 brings. -/
def paceMode (s : State) : ModeSet :=
  if s.ldr.stage = 0 then releaseMode s
  else { mode := s.cox.mode, lockstep := s.cox.lockstep, fleetPins := s.cox.fleetPins, course := course s }

/-- No course runs in TETHERED on a board with a COURSE_STRETCH (R91, R203). -/
def stretchBars (s : State) : Bool := (paceMode s).mode == .tethered && fld s fStretch != 0

/-- The board lets courses run: this package is alone, or the board has formed (R229). -/
def boardReady (s : State) : Bool := s.cox.board == .none || s.cox.board == .formed

/-- The course that starts is the one that a late halt still lets run (R81, R239, R241). -/
def finishing (s : State) : Bool :=
  s.cox.halts.any fun h => decide (h.raised < gOf s ∧ course s < h.before)

/-- The wait condition of R79 is met, TCLK apart: the board has formed or finishes its last course, a grant is held in lock-step (R210), and no
bank that the image names is latched (R475); before the first release deep memory has been written (R182). -/
def clearToStart (s : State) : Bool :=
  (boardReady s || finishing s) && (s.ldr.stage != 0 || flag s fDmemInit) && !((paceMode s).lockstep && fld s fGrantBal == 0) && !padsHold s &&
    !stretchBars s

/-- A port's own state. -/
def lnkPort (s : State) (n : Nat) : LnkPort := look LnkPort.off s.lnk n
/-- Sets a port's own state. -/
def setLnk (n : Nat) (x : LnkPort) (s : State) : State := { s with lnk := upd LnkPort.off s.lnk n x }

/-- The board's shape expects port `n` (COX.BOARD_PORTS). -/
def portExpected (s : State) (n : Nat) : Bool := (fld s fPortsExpected).testBit n

/-- Expected ports that are not ACTIVE (R229). -/
def missingPorts (s : State) : Nat := (fld s fPortsExpected) &&& (255 - fld s fPortsActive)

/-- LNK[n].BOARD shows the far end that EXCHANGE named (R247). -/
def showFar (n : Nat) (s : State) : State :=
  let far := reg s (lnkA n + 8)
  setFld ⟨lnkA n + 0x80, 24, 4⟩ (bits far 8 4) (setFld ⟨lnkA n + 0x80, 21, 3⟩ (bits far 5 3) s)

/-- The board enters MEASURING: each expected port has 1,024 latency markers to send (R229, R230). -/
def toMeasuring (s : State) : State :=
  (List.range 8).foldl (fun x n =>
      iff (portExpected x n) (fun y => showFar n (setLnk n { lnkPort y n with markers := 1024 } y)) x)
    { s with cox := { s.cox with board := .measuring } }

/-- Every expected port is ACTIVE: the board measures (R229). -/
def tryMeasure (s : State) : State :=
  if (s.cox.board == .forming || s.cox.board == .incomplete) && missingPorts s == 0 then toMeasuring s else s

/-- `f` of the strokes of recentring that each Daxair port is still short of (R91, R213, R267). -/
def recentre (f : Nat → Nat) (s : State) : State :=
  { s with lnk := s.lnk.map fun e => (e.1, { e.2 with drift := f e.2.drift }) }

/-- Stroke 0 of a course begins: release stages, an arm, the end of a freeze, pin changes and samples (R77, R215,
R378, R417). -/
def enterCourse (s : State) : State :=
  let s1 := releaseStages s
  let s2 := armTakesEffect s1
  let s3 := iff (s2.pins.frozen && decide (s2.pins.thaw ≤ course s2))
    (fun x => { x with pins := { x.pins with frozen := false } }) s2
  startStroke (dropStops s3)

/-- The controller goes to RUN at stroke 0, or straight into an Easy at stroke 0. -/
def goCourse (s : State) : State :=
  let s1 := { s with cox := { s.cox with st := .run, lead := none, tether := none } }
  if easyAt s1 (gOf s1) (wall s1) then enterEasy s1 else enterCourse s1

/-- At a boundary: the next course starts, or the controller waits (R79). In TETHERED a pin change comes PIN_LAT strokes after
its PINOUT though the next course has not started (R214). -/
def proceed (s : State) : State :=
  if clearToStart s && (paceMode s).mode != .tethered then goCourse s
  else
    let s1 := { s with cox := { s.cox with st := .wait, lead := none, tether := none, edge := flag s fTclkEdge } }
    iff (s.cox.mode == .tethered) (applyPins (gOf s)) s1

/-- In WAIT with the start lead ended, the course starts once the wait condition is met. -/
def retryStart (s : State) : State :=
  if s.cox.st == .wait && s.cox.lead.isNone && s.cox.tether.isNone && clearToStart s &&
      (paceMode s).mode != .tethered then goCourse s
  else s

/-! Halts (R81). -/

/-- The halt cause that a list of halts records: that of the one raised first; 0xF for different causes in one
stroke. -/
def causeOfHalts (hs : List HaltReq) : Nat :=
  match hs with
  | [] => 0
  | h :: t =>
    let first := t.foldl (fun m x => min m x.raised) h.raised
    match hs.filter fun x => x.raised == first with
    | a :: r => if r.all fun x => x.cause == a.cause then a.cause.toNat else hcOther
    | [] => 0

/-- The controller enters HALTED at the boundary where it stands, taking every halt with it (R81, R90, R216). `teth`:
the run was in TETHERED, whose outputs are released or hold from this boundary on: a pin change not yet due is dropped. -/
def enterHalted (cause : Nat) (teth : Bool) (s : State) : State :=
  let s1 := setFld fHaltCause cause s
  let s2 := { s1 with cox := { s1.cox with st := .halted, started := false, stepping := none, lead := none, tether := none,
                                           halts := [], raised := [], reqs := [], stops := [],
                                           edge := flag s1 fTclkEdge } }
  let s3 := iff teth (if flag s2 fHaltPins then releasePins else fun x => { x with pins := { x.pins with due := [] } }) s2
  let s4 := iff (s3.scb.st == .waitHalt) recoverStart s3
  let s5 := iff (s4.ldr.st == .quiesce) (toLoader .write) s4
  throttleNow s5

/-- Halts at once where the controller waits at a boundary (R79): a pending mode change is applied too (R217). -/
def haltHere (cause : Nat) (s : State) : State :=
  let h : HaltReq := { cause := BitVec.ofNat 4 cause, before := course s, raised := gOf s }
  let teth := s.cox.mode == .tethered
  let c := causeOfHalts (s.cox.halts ++ [h])
  enterHalted c teth (match s.cox.pend with
    | some m => applyMode m s
    | none => s)

/-- Halts at once where the controller waits, and sends HALT to the board (R84). -/
def haltHereAll (cause : Nat) (s : State) : State :=
  let m : CoxMsg :=
    { coxMsg s with cause := BitVec.ofNat 4 cause, course := BitVec.ofNat 64 (course s) }
  haltHere cause (iff (onBoard s) (emit (.cox 5 m)) s)

/-! Strokes. -/

/-- The stroke in progress retires: COX.WALL counts it, and stroke 0 spends a grant (R210). -/
def passStroke (s : State) : State :=
  let s1 := writeRecords (gOf s + 1) (retireStroke (fireTick s))
  let s2 := iff (s.cox.stroke == 0 && lockStep s) (fun x => setFld fGrantBal (fld x fGrantBal - 1) x) s1
  let s3 := clockTick (addWall 1 s2)
  { s3 with cox := { s3.cox with strokes := s3.cox.strokes ||| 1 } }

/-- Stroke L − 1 has retired: the course boundary (R77, R81, R205, R285). -/
def crossBoundary (s : State) : State :=
  let s1 := passStroke s
  let s2 := setCourse (course s + 1) s1
  let left := s.cox.stepping.map fun n => n - 1
  let s3 := { s2 with cox := { s2.cox with stroke := 0, stepping := left }, fab := { s2.fab with marks := [] },
                      hif := { s2.hif with admits := s2.hif.admits.filter fun a => decide (course s + 1 ≤ a.2.2.2) } }
  let s4 := applyBudgets s3
  let c := course s + 1
  let own := fun (k : Nat) => ({ cause := BitVec.ofNat 4 k, before := c, raised := c * s.cox.length } : HaltReq)
  let due := s4.cox.halts.any fun h => decide (h.before ≤ c)
  let stepEnd := left == some 0
  let modeDue := s4.cox.pend.any fun m => decide (m.course ≤ c)
  let service := modeDue && s4.cox.pend.any fun m => m.mode == .service
  let hs := s4.cox.halts ++ (if stepEnd then [own hcStepDone] else []) ++ (if service then [own hcCommand] else [])
  let halting := due || stepEnd || service
  let teth := s.cox.mode == .tethered
  let s5 := match s4.cox.pend with
    | some m => if modeDue || halting then applyMode m s4 else s4
    | none => s4
  if halting then enterHalted (causeOfHalts hs) teth s5 else proceed s5

/-- The next stroke of the same course begins, after the one in progress has retired. -/
def stepStroke (s : State) : State :=
  let s1 := passStroke s
  { s1 with cox := { s1.cox with stroke := s.cox.stroke + 1 } }

/-- A tick at a boundary, which COX.WALL does not count (R78): the deep reads in the stacks come one COX.WALL tick earlier
(R83; notes/assumptions/63.md). -/
def slip (s : State) : State :=
  let f := fun (r : DeepRead) => if r.stage = .issued then { r with tick := r.tick - 1 } else r
  { s with fab := { s.fab with deepRds := s.fab.deepRds.map f } }

/-- The controller stands in the boundary wait before a TCLK edge, in which Daxair ports recentre (R91, R213). -/
def waitsForEdge (s : State) : Bool := s.cox.mode == .tethered && s.cox.lead.isNone && s.cox.tether.isNone

/-- One tick of the stroke clock with no command waiting (notes/assumptions/2.md); a course stroke does not retire before
every BP has executed in it (R10). -/
def tick (s : State) : State :=
  if s.pwr.boot == .off then s
  else if s.pwr.st == .p2 || s.pwr.st == .p3 then clockTick s
  else match s.cox.st with
  | .run =>
    if strokeDone s && s.cox.stroke + 1 < s.cox.length && !easyAt s (gOf s + 1) (wall s + 1) then startStroke (dropStops (stepStroke s))
    else s
  | .easy =>
    if easyLength s == some s.cox.easyK then s
    else
      let s1 := { s with cox := { s.cox with easyK := s.cox.easyK + 1 } }
      clockTick (addWall 1 (recentre (· - 1) s1))
  | .wait =>
    if s.cox.lead == some 0 || s.cox.tether == some 0 then s
    else
      let s1 := { s with cox := { s.cox with lead := s.cox.lead.map (· - 1), tether := s.cox.tether.map (· - 1) } }
      clockTick (slip (count 0xB0048 (iff (waitsForEdge s) (recentre (· - 1)) (iff (s.cox.mode == .tethered && s.cox.lead.isNone) (applyPins (gOf s + 1)) s1))))
  | .halted => clockTick (slip (count 0xB0048 s))
  | _ => clockTick s

/-! Starts (R80). -/

/-- A design frame is pending or recovery has failed (R402). -/
def recoveryBlocks (s : State) : Bool := s.scb.st == .failed || designPending s

/-- The image uses a pavilion of a die whose wake failed (R474). -/
def deadDieUsed (s : State) : Bool := allPavs.any fun p => s.pwr.dieDead.getLsbD (dieOf p) && usedPav s p

/-- Stage 1 of the base image is pending (R379). -/
def stage1Pending (s : State) : Bool := s.ldr.stage == 0 && decide (1 ≤ s.ldr.target)

/-- A run or step is accepted: from READY or HALTED, and not ignored by R207, R217, R229, R240, R402, R474 or R530,
and not while pass B has taken the image away (R372). -/
def startable (s : State) : Bool :=
  (s.cox.st == .ready || s.cox.st == .halted) && (image s).isSome && (s.cox.mode != .service || stage1Pending s) &&
  !stretchBars s && !flag s fIsolated && !recoveryBlocks s && !deadDieUsed s &&
  !s.pwr.supplyLock && (boardReady s || s.cox.board == .forming) &&
  (s.pwr.st == .p0 || s.pwr.st == .p1)

/-- Requests that units make again in the start lead (R80, R90): deep reads that will not have come, its ticks taken off
their ready ticks, and ports that wait. -/
def askAgain (s : State) : List EasyReq :=
  let o := BitVec.ofNat 4 (position s)
  let hi := gOf s + 64
  ((s.fab.deepRds.filter fun r => r.stage == .issued &&
      decide (r.due < hi ∧ wall s + (r.due - gOf s) + Config.easyLead < r.tick)).map
    fun r => { origin := o, cause := 1, unit := r.terr.toNat, p := r.due, kind := .tick (r.tick - Config.easyLead) }) ++
  ((s.dsp.decided.filter fun d => s.cox.mode == .comodel && d.wait && !d.land && decide (d.due < hi)).map
    fun d => { origin := o, cause := 3, unit := d.port.toNat, p := d.due, kind := .opn none })

/-- PWR.STATE after a change of the package state, and its `PKG_STATE` (R466). -/
def setPkg (st : PkgState) (src : Nat) (s : State) : State :=
  let code := fun (x : PkgState) => match x with
    | .p0 => 0 | .p1 => 1 | .p2 => 2 | .p3 => 3
  let old := s.pwr.st
  let s1 := setFld fPwrPrev (code old) { s with pwr := { s.pwr with st := st } }
  logEvent evPkgState locNone (src * 16 + code old * 4 + code st) s1

/-- DIE and STORE of every die that is not held off change to a domain code (R461). -/
def setDies (code : Nat) (s : State) : State :=
  (List.range 4).foldl (fun x n => iff (!x.pwr.dieOff.getLsbD n && fld x (fDomDie n) != 3)
    (fun y => setFld (fDomDie n) code (setFld (fDomStore n) code y)) x) s

/-- A command wakes the package from P1 (R465, R467): DIE and STORE are ungated. -/
def wakeP1 (s : State) : State :=
  if s.pwr.st == .p1 then setPkg .p0 5 (setFld fPwrSrc 5 (count 0x20080 (setDies 0 s))) else s

/-- A start: WAIT with a start lead of EASY_LEAD strokes (R80); a run that a wake was to issue is issued with it
(R473). -/
def startLead (stepping : Option Nat) (s : State) : State :=
  let s1 := wakeP1 { s with pwr := { s.pwr with resuming := false } }
  { s1 with cox := { s1.cox with st := .wait, started := true, stepping := stepping, lead := some Config.easyLead,
                                 raised := askAgain s1, edge := flag s1 fTclkEdge } }

/-- RUN (R80). -/
def execRun (s : State) : Res := whenever (hostUp s && startable s) s (startLead none s)

/-- STEP (R80): with COX.STEP_COUNT = 0 it has no effect. -/
def execStep (s : State) : Res :=
  whenever (hostUp s && startable s && fld s fStepCount != 0) s (startLead (some (fld s fStepCount)) s)

/-- HALT (R79 to R81): in RUN and EASY a halt is raised; in WAIT the controller halts at once. -/
def execHalt (s : State) : Res :=
  whenever (hostUp s && !flag s fIsolated) s
    (match s.cox.st with
     | .run | .easy => raiseHalt hcCommand s
     | .wait => haltHereAll hcCommand s
     | _ => s)

/-- COURSE_BOUNDARY (R77): stroke L − 1 retires, once every BP has executed in it (R10). -/
def execCourseBoundary (s : State) : Res :=
  whenever (running s && strokeDone s && s.cox.stroke + 1 == s.cox.length) s (crossBoundary s)

/-- START_LEAD_END (R80): the start lead has ended; the controller enters RUN if the wait condition is met. -/
def execStartLeadEnd (s : State) : Res :=
  whenever (s.cox.st == .wait && s.cox.lead == some 0) s
    (retryStart { s with cox := { s.cox with lead := none } })

/-- GRANT (R210, R223): adds to the master's balance in lock-step, which COX.GRANT_BAL of every package reports (R224);
discarded outside. -/
def execGrant (add : BitVec 16) (s : State) : Res :=
  whenever (hostUp s && lockStep s) s
    (retryStart (setFld fGrantBal (stick 0xFFFFFFFF (fld s fGrantBal) add.toNat) s))

/-! The cox line (R84, R85, R87). -/

/-- The request that an ASK message carries (R255). -/
def reqOf (s : State) (m : CoxMsg) : EasyReq :=
  { origin := m.origin, cause := m.cause, unit := 0, p := m.course.toNat * s.cox.length + m.stroke.toNat,
    kind := if m.opn then .opn none else if m.value = 0 then .len m.len.toNat else .tick m.value.toNat }

/-- A request matches an ASK message. -/
def sameReq (a b : EasyReq) : Bool := a.cause == b.cause && a.p == b.p && a.kind == b.kind

/-- ASK (R84): a request of this package goes to the master, or a request reaches the master. -/
def execAsk (m : CoxMsg) (s : State) : Res :=
  let r := reqOf s m
  let mine := m.origin.toNat == position s
  match s.cox.raised.find? (sameReq r) with
  | some q =>
    if mine then
      let s1 := { s with cox := { s.cox with raised := s.cox.raised.erase q } }
      .next (if isMaster s then { s1 with cox := { s1.cox with reqs := s1.cox.reqs ++ [q] } } else emit (.cox 1 m) s1)
    else .next (if isMaster s then { s with cox := { s.cox with reqs := s.cox.reqs ++ [r] } } else s)
  | none =>
    whenever (!mine && isMaster s && s.cox.mode != .tethered && decide (gOf s < r.p)) s
      { s with cox := { s.cox with reqs := s.cox.reqs ++ [r] } }

/-- The STOP that the master's requests for a stop point give (R85); figures of open requests already cleared are kept. Its
cause is THERMAL if a throttle step asks, else that of the largest tick, of a length, or HOST
(notes/assumptions/50.md). -/
def stopOf (s : State) (p : Nat) : StopRec :=
  (s.cox.reqs.filter fun q => q.p == p).foldl (fun a q =>
    match q.kind with
    | .tick t =>
      { a with cause := if a.cause ≠ 4 ∧ a.tick < t then q.cause else a.cause, tick := max a.tick t,
               linkTick := if q.cause = 2 then max a.linkTick t else a.linkTick,
               dmemTick := if q.cause = 2 then a.dmemTick else max a.dmemTick t }
    | .len n =>
      { a with cause := if q.cause = 4 ∨ (a.tick = 0 ∧ a.cause ≠ 4) then q.cause else a.cause, len := max a.len n,
               linkLen := if q.cause = 4 then a.linkLen else max a.linkLen n,
               thermLen := if q.cause = 4 then max a.thermLen n else a.thermLen }
    | .opn f => { a with cause := if a.cause = 0 then q.cause else a.cause, opn := true,
                         figure := match f, a.figure with
                           | some x, some y => some (max x y)
                           | some x, none => some x
                           | none, y => y })
    { p := p, cause := 0, tick := 0, len := 0, opn := false, figure := none, linkTick := 0, dmemTick := 0, linkLen := 0,
      thermLen := 0 }

/-- Every open request for a stop point has sent CLEAR. -/
def allClear (s : State) (p : Nat) : Bool :=
  (s.cox.reqs.filter fun q => q.p == p).all fun q => q.kind != .opn none

/-- The master has a reason to issue STOP for `p` (R85): an open request, or one that would need strokes if sized
now. -/
def stopNeeded (s : State) (p : Nat) : Bool :=
  let w := wall s + (p - gOf s)
  s.cox.reqs.any fun q => q.p == p && (match q.kind with
    | .opn _ => true
    | k => needOf w k != some 0)

/-- Strokes from now to absolute stroke `p`; in the start lead now lies before the stroke that the controller waits at. -/
def strokesTo (s : State) (p : Nat) : Nat := p + s.cox.lead.getD 0 - gOf s

/-- The stop point of a message. -/
def stopPoint (s : State) (m : CoxMsg) : Nat := m.course.toNat * s.cox.length + m.stroke.toNat

/-- STOP (R85): the master issues it in stroke P − 64 + U, and RESUME with it where every open request has sent CLEAR by
then (R87); in another package it arrives. -/
def execStop (x : StopIn) (s : State) : Res :=
  let m := x.msg
  let p := stopPoint s m
  if s.cox.mode == .tethered || (stopAt s p).isSome || p ≤ gOf s && s.cox.st != .wait then .next s
  else if isMaster s then
    let r := stopOf s p
    let r' := if allClear s p then r else { r with figure := none }
    let out : CoxMsg :=
      { coxMsg s with cause := r.cause, stroke := m.stroke, opn := r.opn, len := BitVec.ofNat 32 r.len,
                      course := m.course, value := BitVec.ofNat 64 r.tick }
    let res : CoxMsg := { coxMsg s with stroke := m.stroke, course := m.course, value := BitVec.ofNat 64 (r'.figure.getD 0) }
    whenever (s.cox.st != .easy && gOf s + 64 == p + fld s fReachUp + s.cox.lead.getD 0 && stopNeeded s p) s
      (iff (onBoard s && r'.opn && r'.figure.isSome) (emit (.cox 4 res))
        (iff (onBoard s) (emit (.cox 2 out)) { s with cox := { s.cox with stops := s.cox.stops ++ [r'] } }))
  else
    .next { s with cox := { s.cox with stops := s.cox.stops ++
      [{ p := p, cause := m.cause, tick := m.value.toNat, len := m.len.toNat, opn := m.opn, figure := none,
         linkTick := x.link.toNat, dmemTick := x.dmem.toNat, linkLen := x.stretch.toNat, thermLen := x.thermal.toNat }] } }

/-- The figure of an open request whose CLEAR was sent `ago` strokes before now (R87): in Easy stroke e, or in course
stroke P − j. -/
def clearFigure (s : State) (p ago : Nat) : Nat :=
  let ud := fld s fReachUp + fld s fReachDown + 16
  if s.cox.st == .easy && gOf s == p then
    if ago < s.cox.easyK then s.cox.easyK - ago + ud else ud - (1 + ago - s.cox.easyK)
  else ud - (strokesTo s p + ago)

/-- A CLEAR answers one open request of its package and cause for its stop point. -/
def clearOne (m : CoxMsg) (p f : Nat) : List EasyReq → List EasyReq
  | [] => []
  | q :: qs =>
    if q.p == p && q.cause == m.cause && q.origin == m.origin && q.kind == .opn none then
      { q with kind := .opn (some f) } :: qs
    else q :: clearOne m p f qs

/-- The master takes a CLEAR and, once every open request for P has sent one, issues RESUME (R87): in the Easy it names E,
before P the open figure, to which each package adds the sized part when P comes. -/
def clearAtMaster (m : CoxMsg) (ago : Nat) (s : State) : State :=
  let p := stopPoint s m
  let f := clearFigure s p ago
  let s1 := { s with cox := { s.cox with reqs := clearOne m p f s.cox.reqs } }
  if allClear s1 p then
    match stopAt s1 p with
    | some r =>
      let fig := (stopOf s1 p).figure
      let r' := { r with figure := fig }
      let e := if s.cox.st == .easy && gOf s == p then (easyFigure r' (easyStart s)).getD 0 else fig.getD 0
      let out : CoxMsg := { coxMsg s with stroke := m.stroke, course := m.course, value := BitVec.ofNat 64 e }
      let s2 := { s1 with cox := { s1.cox with stops := s1.cox.stops.map fun x => if x.p = p then r' else x } }
      iff (onBoard s) (emit (.cox 4 out)) s2
    | none => s1
  else s1

/-- A port of this package sends CLEAR only once the message it waited for is staged (R333). -/
def hostClearOk (s : State) (m : CoxMsg) : Bool :=
  let p := stopPoint s m
  let sent := s.cox.reqs.filter fun q =>
    q.p == p && q.cause == 3 && q.origin == m.origin && q.kind != .opn none
  let came := s.dsp.decided.filter fun d => d.due == p && d.wait && d.land
  m.cause != 3 || m.origin.toNat != position s || decide (sent.length < came.length)

/-- CLEAR (R87): a unit's own CLEAR at the master takes effect as it is sent; another package's arrives U strokes
later; elsewhere this package's CLEAR goes out. -/
def execClear (m : CoxMsg) (s : State) : Res :=
  whenever (hostClearOk s m) s
    (if isMaster s then clearAtMaster m (if m.origin.toNat = position s then 0 else fld s fReachUp) s
     else iff (m.origin.toNat == position s) (emit (.cox 3 m)) s)

/-- Sets the open figure of a stop. -/
def setFigure (p e : Nat) (s : State) : State :=
  let f := fun (x : StopRec) => if x.p = p then { x with figure := some e } else x
  { s with cox := { s.cox with stops := s.cox.stops.map f } }

/-- RESUME (R87): the master's figure reaches a package that follows. -/
def execResume (m : CoxMsg) (s : State) : Res :=
  whenever (!isMaster s) s (setFigure (stopPoint s m) m.value.toNat s)

/-- The absolute stroke in which the halt of a HALT message was raised (R81, R255). -/
def raisedAt (s : State) (m : CoxMsg) : Nat :=
  let l := s.cox.length
  let late := decide (l < m.stroke.toNat + fld s fReachUp + fld s fReachDown + 1)
  (m.course.toNat - (1 + late.toNat)) * l + m.stroke.toNat

/-- A board in formation again, after a link was lost (R239); it measures at once where every port of this package is still
ACTIVE (R229). -/
def toForming (s : State) : State :=
  if s.cox.board == .formed || s.cox.board == .measuring then tryMeasure { s with cox := { s.cox with board := .forming } }
  else s

/-- A HALT arrives: it is pending for its boundary, and in force at once where the controller already waits there. -/
def haltArrives (m : CoxMsg) (s : State) : State :=
  let h : HaltReq := { cause := m.cause, before := m.course.toNat, raised := raisedAt s m }
  if s.cox.st == .wait && decide (m.course.toNat ≤ course s) then haltHere m.cause.toNat s
  else iff (inCourse s || s.cox.st == .wait) (addHalt h) s

/-- HALT_MESSAGE (R84): the master passes it on to all; a HALT for a lost link takes the board to FORMING (R239). -/
def execHaltMessage (m : CoxMsg) (s : State) : Res :=
  whenever (m.origin.toNat != position s && onBoard s) s
    (let s1 := haltArrives m s
     let s2 := iff (isMaster s) (emit (.cox 5 m)) s1
     iff (m.cause.toNat == hcLinkLost) toForming s2)

/-! Easy. -/

/-- EASY_ENTER (R85): stroke P − 1 retires, once every BP has executed in it (R10), and Easy begins; at P = stroke 0 the boundary is crossed first. -/
def execEasyEnter (s : State) : Res :=
  whenever (running s && strokeDone s && easyAt s (gOf s + 1) (wall s + 1)) s
    (if s.cox.stroke + 1 < s.cox.length then enterEasy (stepStroke s) else crossBoundary s)

/-- The writes to bank memory that Easy held are performed, in the order of their fetch (R86). -/
def resumeWrites (s : State) : State :=
  s.hif.parked.foldl (fun x w =>
    let (n, code, x1) := writeCws w.pav.toNat w.words w.index x
    endHeld w (code.getD (if w.narrow then ccNarrowWrite else ccDone)) 0 n x1) s

/-- Easy ends after stroke E: charges, COX.LAST_EASY, and stroke P begins (R87, R88, R104). -/
def leaveEasy (e : Nat) (s : State) : State :=
  let s1 := setFld ⟨0xB0058, 0, 18⟩ (min e 0x3FFFF) (chargeEasy s)
  let s2 := resumeWrites (clockTick (addWall 1 { s1 with cox := { s1.cox with st := .run } }))
  if s.cox.stroke = 0 then enterCourse s2 else startStroke (dropStops s2)

/-- EASY_RESUME_POINT (R87): Easy stroke E has passed. -/
def execEasyResumePoint (s : State) : Res :=
  match s.cox.st == .easy, easyLength s with
  | true, some e => whenever (decide (e ≤ s.cox.easyK)) s (leaveEasy e s)
  | _, _ => .next s

/-- EASY_LONG (R79): logged once when an Easy reaches 2^24 strokes. -/
def execEasyLong (s : State) : Res :=
  whenever (s.cox.st == .easy && decide (2 ^ 24 ≤ s.cox.easyK) && !s.cox.easyLong) s
    (logEvent evEasyLong locNone (bits (reg s 0xB0058) 18 4) { s with cox := { s.cox with easyLong := true } })

/-- This package draws more VDD_CORE current than HLT.ICORE_LIMIT allows (R93, R539). -/
def overCurrent (s : State) : Bool := decide (10 * bits (reg s 0x30320) 0 12 < fld s ⟨0x30300, 0, 14⟩)

/-- `t` of TRC.TIME lies `n` of its ticks back or more. -/
def since (s : State) (t n : Nat) : Bool := decide (t + n ≤ trcTime s)

/-- A throttle step is due at the master (R93): down at 100 °C or more, at most one in 1 ms, or above the current limit; up
once every package has stayed below 95 °C and within its limit for 10 ms since the last step. `x` says what the other
packages of a board report. -/
def throttleDue (up : Bool) (x : HeatIn) (s : State) : Bool :=
  let far := if onBoard s then x else { x with hot := false, draw := false, cool := true }
  if up then far.cool && s.hlt.coolSince.any (since s · 1000000) && s.cox.lastStep.all (since s · 1000000)
  else ((s.hlt.tetherHot || far.hot) && s.cox.lastStep.all (since s · 100000)) || overCurrent s || far.draw

/-- The mode lets a throttle step be taken now: in TETHERED not while a course runs, and in WAIT only upward (R94, R216). -/
def throttleFree (up : Bool) (s : State) : Bool :=
  s.cox.mode != .tethered || (!inCourse s && (up || s.cox.st != .wait))

/-- THROTTLE_REQUEST (R93): a step is due at the master, whose floor bounds it (R103), or comes from it. It is taken at once
where no course stroke is due, else asked for as a sized Easy of 32 strokes `x.ahead` strokes and EASY_LEAD away. -/
def execThrottleRequest (up : Bool) (x : HeatIn) (s : State) : Res :=
  let can := if up then decide (fld s fThrLevel < 16)
    else decide ((if isMaster s then throttleFloor s else 8) < fld s fThrLevel)
  whenever (can && throttleFree up s && s.cox.throttle.isNone && (!isMaster s || throttleDue up x s)) s
    (if inCourse s then
      let p := gOf s + Config.easyLead + x.ahead.toNat
      let r : EasyReq := { origin := BitVec.ofNat 4 (position s), cause := 4, unit := 0, p := p, kind := .len 32 }
      let s1 := setFlag fThrPending true { s with cox := { s.cox with throttle := some (up, p) } }
      iff (isMaster s) (fun y => { y with cox := { y.cox with raised := y.cox.raised ++ [r] } }) s1
     else throttleStep up s)

/-- COURSE_STRETCH_ASK (R83, R231): 64 strokes before stroke 0 of a course, in the start lead too, the master asks for
the stretch there. -/
def execCourseStretchAsk (s : State) : Res :=
  let p := gOf s + 64 - s.cox.lead.getD 0
  let r : EasyReq :=
    { origin := BitVec.ofNat 4 (position s), cause := 2, unit := 0, p := p, kind := .len (fld s fStretch) }
  whenever ((running s || (s.cox.st == .wait && s.cox.lead.isSome)) && isMaster s && fld s fStretch != 0 && s.cox.mode != .tethered && p % s.cox.length == 0 &&
      !(s.cox.reqs ++ s.cox.raised).any fun q => q.p == p && q.cause == 2) s
    { s with cox := { s.cox with raised := s.cox.raised ++ [r] } }

/-- BOARD_WAIT_TIMEOUT (R232): the link timeout acts as a halt command with cause 0x6. -/
def execBoardWaitTimeout (s : State) : Res :=
  whenever (s.cox.st == .wait && !boardReady s && bits (reg s 0xB0088) 0 16 != 0) s
    (haltHereAll hcLinkLost (logEvent evBoardIncomplete locNone (missingPorts s) s))

/-! TCLK (R212 to R217, R221). -/

/-- Measures the period of a sampled edge (R221). -/
def measureTclk (s : State) : State :=
  let now := s.cox.ticks
  let s1 := { s with cox := { s.cox with lastEdge := some now } }
  match s.cox.lastEdge with
  | some t =>
    let p := min (now - t) 0xFFFF
    let short := fld s fTclkShort
    setFld fTclkShort (if short = 0 then p else min short p) (setFld fTclkLast p s1)
  | none => s1

/-- An OVERRUN (R215): outputs frozen until stroke 0 of the next course, counted, logged once per course. DESIGN CHOICE
(notes/assumptions/92.md): only this package's outputs freeze, as no cox message carries an OVERRUN. -/
def overrun (s : State) : State :=
  let s1 := { s with pins := { s.pins with frozen := true, thaw := course s + 1 } }
  let s2 := oncePerCourse 40 0 (logEvent evOverrun locNone (fld s fTclkLast)) (count 0xB0068 s1)
  iff (flag s fOverrunHalt) (raiseHalt hcOther) s2

/-- A sampled edge paces: it starts the tether lead in WAIT, is an overrun while a course runs, and is ignored in
READY, HALTED and the start lead (R212, R215, R216, R217). -/
def paceTclk (s : State) : State :=
  if inCourse s || s.cox.tether.isSome then overrun s
  else if s.cox.st == .wait && s.cox.lead.isNone && clearToStart s && fld s fThrLevel == 16 then
    { s with cox := { s.cox with tether := some (bits (reg s 0xB0060) 8 8) } }
  else s

/-- TCLK_EDGE (R212): only edges of the polarity in force are sampled, and only the master's pace. DESIGN CHOICE
(notes/assumptions/92.md): tclk_seen shows an edge also where TETHERED has not been in force since the COX block's reset. -/
def execTclkEdge (falling : Bool) (s : State) : Res :=
  whenever (falling == s.cox.edge) s
    (let s1 := setFlag fTclkSeen true (measureTclk s)
     if (paceMode s).mode == .tethered && isMaster s then paceTclk s1 else s1)


end Sys2Proof.Machine
end

