-- ==== Sys2Proof/Machine/Trace.lean ====
section
/-! DEFINITION. Message trace (R439 to R460): the commits of the host's markers, the design's log ports and the
Keeper's sleep, and the sinks. -/

namespace Sys2Proof.Machine

/-! Host markers and log packets. -/

/-- The payload words of a list of 32-bit words (R441). -/
def markerWords : List Word → List (BitVec 64)
  | [] => []
  | [a] => [a.setWidth 64]
  | a :: b :: r => (b ++ a : BitVec 64) :: markerWords r

/-- A write of TRC.MSG_CTRL (R446). -/
def writeMsgCtrl (v : Word) (s : State) : State :=
  let n := bits v 0 4
  if n = 0 ∨ 8 < n ∨ 4 ≤ s.trc.hostQ.length then count 0x700D0 s
  else
    let ws := (List.range n).map fun i => reg s (0x70080 + 4 * i)
    { s with trc := { s.trc with hostQ := s.trc.hostQ ++ [(v.extractLsb' 8 8, ws)] } }

/-- MSG_CTRL (R446). -/
def execMsgCtrl (v : Word) (s : State) : Res := whenever (hostUp s) s (writeMsgCtrl v s)

/-- The oldest marker of the host queue is committed. -/
def commitMarker (s : State) : State :=
  match s.trc.hostQ with
  | [] => s
  | (tag, ws) :: r => commit 0x20 0 tag (markerWords ws) { s with trc := { s.trc with hostQ := r } }

/-- HOST_MARKER_COMMIT (R446). -/
def execHostMarkerCommit (s : State) : Res := .next (commitMarker s)

/-- The data words of a log message: one bit a value, or two in FOURSTATE (R444). -/
def logData (two : Bool) (vs : List (BitVec 2)) : List (BitVec 64) :=
  let w := if two then 2 else 1
  let n := 64 / w
  (List.range ((vs.length + n - 1) / n)).map fun k =>
    (((vs.drop (n * k)).take n).zipIdx).foldl (fun a x => a ||| BitVec.ofNat 64 (x.1.toNat % 2 ^ w * 2 ^ (w * x.2))) 0

/-- The oldest ended log message is committed (R444). -/
def commitLog (s : State) : State :=
  match s.trc.ended with
  | [] => s
  | m :: r =>
    let flags := BitVec.ofNat 8 (m.cont.toNat + m.inst.toNat * 2 + m.two.toNat * 4)
    let head := [BitVec.ofNat 64 m.course, BitVec.ofNat 64 (m.stroke + m.vals.length * 2 ^ 16)]
    commit 0x30 flags m.port (head ++ logData m.two m.vals) { s with trc := { s.trc with ended := r } }

/-- LOG_PACKET_COMMIT (R444). -/
def execLogPacketCommit (s : State) : Res := .next (commitLog s)

/-! Sinks (R447 to R449). -/

/-- The words of a packet with its delta (R440). -/
def packetWords (p : TracePacket) (delta : Nat) : List (BitVec 64) :=
  BitVec.ofNat 64 (p.type.toNat + p.words.length % 256 * 2 ^ 8 + p.flags.toNat * 2 ^ 16 + p.source.toNat * 2 ^ 24 +
    delta % 2 ^ 32 * 2 ^ 32) :: p.words

/-- The SYNC that stands before packet `p`. -/
def syncFor (p : TracePacket) : TracePacket :=
  { type := 1, flags := 0, source := 0, words := [p.time, p.course], time := p.time, course := p.course }

/-- The OVERFLOW that stands before packet `p`. -/
def overflowFor (p : TracePacket) (lost : Nat) : TracePacket :=
  { type := 3, flags := 0, source := 0, words := [BitVec.ofNat 64 (min lost (2 ^ 64 - 1))], time := p.time,
    course := p.course }

/-- A SYNC is due before a packet of time `t` (R447, R448, R449). -/
def syncNeeded (s : State) (t : Nat) : Bool :=
  s.trc.syncDue || decide (0 < s.trc.lostRun) || decide (4096 ≤ s.trc.sinceSync) ||
    decide (s.trc.syncTime.toNat + 100000 ≤ t)

/-- The packets that enter the stream for `p`: a due OVERFLOW, a due SYNC, and `p` (R450). -/
def groupOf (s : State) (p : TracePacket) : List TracePacket :=
  (if 0 < s.trc.lostRun then [overflowFor p s.trc.lostRun] else []) ++
    (if p.type != 1 && syncNeeded s p.time.toNat then [syncFor p] else []) ++ [p]

/-- The words of a group of packets of one tick: the first carries the delta. A SYNC carries none. -/
def groupWords (last : Nat) : List TracePacket → List (BitVec 64)
  | [] => []
  | p :: ps =>
    packetWords p (if p.type = 1 then 0 else p.time.toNat - last) ++ groupWords p.time.toNat ps

/-- Size of the host ring in bytes. -/
def hostRing (s : State) : Nat := 2 ^ fld s fTrcLog2
/-- HOST_HEAD and HOST_TAIL. -/
def hostHead (s : State) : Nat := bits (reg s 0x70024) 0 30
def hostTail (s : State) : Nat := bits (reg s 0x70028) 0 30

/-- The sink has no room for `n` bytes (R448). -/
def sinkFull (s : State) (n : Nat) : Bool :=
  if fld s fTrcSink = 2 then
    let r := hostRing s
    decide (r < (hostTail s + r - hostHead s % r) % r + n + 8)
  else flag s fTrcStopped || (!flag s fTrcWrap && decide (0xFFF8 < fld s fTrcOff + n))

/-- Writes words to the on-chip ring. -/
def ringWrite (ws : List (BitVec 64)) (s : State) : State :=
  let off := fld s fTrcOff
  let r := (ws.zipIdx).foldl (fun m x => upd 0 m ((off / 8 + x.2) % 8192) x.1) s.trc.ring
  let s1 := setFld fTrcOff ((off + 8 * ws.length) % 65536) { s with trc := { s.trc with ring := r } }
  iff (decide (65536 ≤ off + 8 * ws.length)) (setFlag fTrcWrapped true) s1

/-- Writes words to the host ring, and then its tail (R447). -/
def hostRingWrite (ws : List (BitVec 64)) (s : State) : State :=
  let r := hostRing s
  let t := hostTail s
  let base := ringBase s 0x70018
  let n := (r - t) / 8
  let s1 := emit (.hostWrite (base + BitVec.ofNat 64 t) (ws.take n)) s
  let s2 := if ws.length ≤ n then s1 else emit (.hostWrite base (ws.drop n)) s1
  setReg 0x70028 (BitVec.ofNat 32 ((t + 8 * ws.length) % r)) s2

/-- A packet is lost to a full sink (R448). -/
def losePacket (s : State) : State :=
  let s1 := count 0x700C0 { s with trc := { s.trc with lostRun := s.trc.lostRun + 1 } }
  iff (fld s fTrcSink == 1) (setFlag fTrcStopped true) s1

/-- Writes the group of packet `p`, or loses the packet. -/
def putPacket (p : TracePacket) (s : State) : State :=
  let g := groupOf s p
  let ws := groupWords s.trc.lastTime.toNat g
  if sinkFull s (8 * ws.length) then losePacket s
  else
    let s1 := countN 0x700D8 g.length ((if fld s fTrcSink = 2 then hostRingWrite else ringWrite) ws s)
    let tail := if p.type = 1 then 3 else 4 + p.words.length
    let synced := g.any fun x => x.type == 1
    { s1 with trc := { s1.trc with
      lastTime := p.time, lostRun := 0, syncDue := false, syncTime := if synced then p.time else s.trc.syncTime,
      sinceSync := if synced then 8 * tail else s.trc.sinceSync + 8 * ws.length } }

/-- A flush counts the packets before it; it completes with the last of them (R451). -/
def flushStep (s : State) : State :=
  match s.trc.flushing with
  | some n =>
    if n ≤ 1 then setFlag fTrcFlushDone true { s with trc := { s.trc with flushing := none } }
    else { s with trc := { s.trc with flushing := some (n - 1) } }
  | none => s

/-- A host ring access fails on the bus: trace is disabled (R453). -/
def traceBusError (s : State) : State :=
  logEvent evHostDmaErr (locUnit 0 0) 3
    (setFlag fTrcDmaErr true (setFlag fTrcEnable false { s with trc := { s.trc with committed := [], flushing := none } }))

/-- A sink is chosen (R447). -/
def sinkChosen (s : State) : Bool := fld s fTrcSink == 1 || fld s fTrcSink == 2

/-- The oldest committed packet is written to the sink; where none is chosen any more it goes nowhere and counts nothing
(R447). -/
def sinkWrite (busErr : Bool) (s : State) : State :=
  match s.trc.committed with
  | [] => s
  | p :: r =>
    if busErr && fld s fTrcSink == 2 then traceBusError s
    else flushStep (iff (sinkChosen s) (putPacket p) { s with trc := { s.trc with committed := r } })

/-- TRACE_SINK_WRITE (R447). -/
def execTraceSinkWrite (busErr : Bool) (s : State) : Res := .next (sinkWrite busErr s)

/-- A flush begins (R451). -/
def flushNow (s : State) : State :=
  match s.trc.committed with
  | [] => setFlag fTrcFlushDone true s
  | l => { s with trc := { s.trc with flushing := some l.length } }

/-- FLUSH (R453, R454). -/
def execFlush (s : State) : Res := whenever (hostUp s) s (flushNow s)

/-- Setting enable clears the ring's indices and makes a SYNC due (R447, R448). -/
def traceStart (s : State) : State :=
  let s1 := setReg 0x70010 0 (setReg 0x70024 0 (setReg 0x70028 0 (setFlag fTrcStopped false s)))
  { s1 with trc := { s1.trc with committed := [], syncDue := true, lostRun := 0, sinceSync := 0,
                                 flushing := none } }

/-- A write of TRC.CTRL (R447, R454): one that changes the sink while enable is 1 is ignored. -/
def writeTrcCtrl (v : Word) (s : State) : State :=
  let on := flag s fTrcEnable
  if on && bits v 1 2 != fld s fTrcSink then s
  else
    let s1 := setReg 0x70000 (v &&& rwMask 0x70000) s
    let s2 := iff (v.getLsbD 0 && (!on || flag s fTrcStopped)) traceStart s1
    iff (v.getLsbD 4) flushNow s2

/-- TRACE_ENABLE (R447). -/
def execTraceEnable (v : Word) (s : State) : Res := whenever (hostUp s) s (writeTrcCtrl v s)

/-! The Keeper's sleep (R451, R476). -/

/-- Package state code (R478). -/
def PkgState.code : PkgState → Nat
  | .p0 => 0 | .p1 => 1 | .p2 => 2 | .p3 => 3

/-- The Keeper enters sleep: POWER, and a flush of the sink (R451). -/
def keeperDown (s : State) : State :=
  let s1 := commit 0x02 0 (BitVec.ofNat 8 s.pwr.st.code) [] s
  flushNow { s1 with pwr := { s1.pwr with asleep := true } }

/-- The Keeper wakes: SYNC, then POWER (R451). -/
def keeperUp (s : State) : State :=
  if s.pwr.asleep then
    let s1 := commit 0x01 0 0 [wideReg s 0x70008, wideReg s 0xB0010] { s with pwr := { s.pwr with asleep := false } }
    commit 0x02 1 (BitVec.ofNat 8 s1.pwr.st.code) [] s1
  else s

/-- KEEPER_SLEEP (R476): idle, with no MBX command in progress; keeper_idle = 0 keeps it awake. -/
def execKeeperSleep (s : State) : Res :=
  whenever (upState s && !s.pwr.asleep && fld s fKeeperIdle != 0 && !s.hif.busy && s.pwr.boot == .up) s (keeperDown s)

/-- KEEPER_WAKE (R476). -/
def execKeeperWake (s : State) : Res := whenever (upState s && s.pwr.asleep) s (keeperUp s)

end Sys2Proof.Machine
end

