-- ==== Sys2Proof/Machine/Mailbox.lean ====
section
/-! DEFINITION. The management mailbox (R304, R305, R308 to R312): starting a command and completing it. -/

namespace Sys2Proof.Machine

/-- MBX takes commands: the Keeper, or in ROM recovery the boot ROM, serves it (R16, R362). -/
def mbxOpen (s : State) : Bool :=
  (s.pwr.boot == .up || s.pwr.boot == .recovery) && (s.pwr.st == .p0 || s.pwr.st == .p1) && s.pwr.waking.isNone

/-- A COMMAND packet (R442). -/
def commandPacket (code : Nat) (isEnd : Bool) (s : State) : State :=
  commit 0x10 1 0 [BitVec.ofNat 64 (fld s fMbxCmd + fld s fMbxSeq * 2 ^ 8 + code * 2 ^ 16 + isEnd.toNat * 2 ^ 24)] s

/-- The arguments of a command as the host writes them. -/
def writeArgs (m : MbxArgs) (s : State) : State :=
  setReg 0x10010 m.a0 (setReg 0x10014 m.a1 (setReg 0x10018 m.a2 (setReg 0x1001C m.a3 s)))

/-- A command begins: MBX is busy (R305). -/
def mbxBegin (cmd : Nat) (long irq : Bool) (seq : BitVec 8) (s : State) : State :=
  let s1 := setFld fMbxCmd cmd (setFld fMbxSeq seq.toNat s)
  let s2 := { s1 with hif := { s1.hif with busy := true, long := long, irq := irq } }
  commandPacket ccMbxBusy false s2

/-- A command completes: result words, code, busy cleared, and PF0 vector 0 if asked for (R305). -/
def mbxEnd (r : MbxRes) (s : State) : State :=
  let s1 := setReg 0x10030 r.r0 (setReg 0x10034 r.r1 (setReg 0x10038 r.r2 (setReg 0x1003C r.r3 s)))
  let s2 := commandPacket r.code.toNat true (setFld fMbxCode r.code.toNat s1)
  let s3 := { s2 with hif := { s2.hif with busy := false, irq := false, due := none } }
  iff s.hif.irq (interrupt 0 0) s3

/-- A result with one word; a completion other than `DONE` carries its detail in bits [23:16] (R305). -/
def mbxRes (code r0 : Nat) : MbxRes :=
  { code := BitVec.ofNat 8 code, r0 := BitVec.ofNat 32 r0, r1 := 0, r2 := 0, r3 := 0 }

/-- A failing result with its detail. -/
def mbxFail (code detail : Nat) : MbxRes := mbxRes code (detail * 2 ^ 16)

/-- The host writes MBX.CMD (R305): ignored and counted while MBX is busy, refused in ROM recovery (R362); otherwise
the command begins and `body` performs it. -/
def mbxWrite (cmd : Nat) (long inRom : Bool) (m : MbxArgs) (body : State → State) (s : State) : State :=
  if !mbxOpen s then s
  else if s.hif.busy then count 0x10040 s
  else
    let s1 := mbxBegin cmd long m.irq m.seq (setFlag ⟨0x10000, 31, 1⟩ m.irq (setFld ⟨0x10000, 8, 8⟩ m.seq.toNat
      (setFld ⟨0x10000, 0, 8⟩ cmd (writeArgs m (keeperUp s)))))
    if s.pwr.boot == .recovery && !inRom then mbxEnd (mbxFail ccInternal 0x11) s1 else body s1

/-- A short command: `f` performs it and says how it completes. -/
def mbxShort (cmd : Nat) (m : MbxArgs) (f : State → State × MbxRes) (s : State) : State :=
  mbxWrite cmd false false m (fun x => let (y, r) := f x; mbxEnd r y) s

/-- The outcome of a long command waits for its completion. -/
def mbxDue (r : MbxRes) (s : State) : State := { s with hif := { s.hif with due := some r } }

/-- A long command that is refused at once. -/
def mbxRefuse (code detail : Nat) (s : State) : State := mbxDue (mbxFail code detail) s

/-- The command codes of R304. -/
def mbxCodes : List Nat := [0x10, 0x11, 0x12, 0x13, 0x14, 0x20, 0x21, 0x22, 0x23, 0x24, 0x25, 0x26]

/-- RESERVED_COMMAND (R304): a code that the table of R304 does not list. -/
def execReservedCommand (m : MbxArgs) (code : BitVec 8) (s : State) : Res :=
  whenever (!mbxCodes.contains code.toNat) s (mbxShort code.toNat m (fun x => (x, mbxFail ccInternal 0x10)) s)

/-- MBX_COMPLETE (R305): the completion of a long operation is written. -/
def execMbxComplete (s : State) : Res :=
  match s.hif.due with
  | some r => whenever s.hif.busy s (mbxEnd r s)
  | none => .next s

end Sys2Proof.Machine
end

