-- ==== Sys2Proof/Machine/Wake.lean ====
section
/-! DEFINITION. Wake events of the package (R467, R472), shared by every source. -/

namespace Sys2Proof.Machine

/-- The source is enabled in PWR.WAKE_EN; a command always is (R467). -/
def wakeEnabled (s : State) (src : Nat) : Bool := src == 5 || (reg s 0x2000C).getLsbD (src - 1)

/-- A source wakes the package from the state it stands in (R467). -/
def wakesFrom (s : State) (src : Nat) : Bool :=
  match s.pwr.st with
  | .p2 => src == 1 || src == 2 || src == 3 || (src == 4 && s.pwr.tclkWake)
  | .p3 => src == 1 || src == 2
  | _ => false

/-- A wake begins (R470): WAKE# is asserted when another source than PCI Express wakes a package whose PF0 is in D3hot
or whose link is down (R467). -/
def beginWake (src : Nat) (latched : Bool) (s : State) : State :=
  let p3 := s.pwr.st == .p3 || s.pwr.lost
  let pin := src != 2 && (s.hif.d3.getLsbD 0 || fld s fDomPcie == 3)
  let s1 := setFld fPwrSrc src (setFlag fPwrLatched latched (setFlag fPwrFailed false (count 0x20080 s)))
  { s1 with pwr := { s1.pwr with waking := some (BitVec.ofNat 4 src, 0, 0, p3), latched := none,
                                 wakePin := s1.pwr.wakePin || pin } }

/-- A wake event (R467, R472): latched during an entry, the lower code of two; otherwise the wake begins.
After a thermal shutdown every source is ignored until the AON comparator reads below 85 °C (R531). -/
def packageWake (src : Nat) (s : State) : State :=
  if !wakeEnabled s src || s.pwr.aonHot then s
  else if s.pwr.entering then
    let l := match s.pwr.latched with
      | some x => min x.toNat src
      | none => src
    { s with pwr := { s.pwr with latched := some (BitVec.ofNat 4 l) } }
  else if s.pwr.waking.isNone && wakesFrom s src then beginWake src false s
  else s

end Sys2Proof.Machine
end

