-- ==== Sys2Proof/Machine/Link.lean ====
section
/-! DEFINITION. The Daxair ports (R248 to R281): bring-up, frames, replay and loss, sleep and wake, test and injection,
with the board's view of a port (R227, R229, R239, R240). -/

namespace Sys2Proof.Machine

/-! A port and its registers. -/


def fLnkEnable (n : Nat) : Fld := ⟨lnkA n, 0, 1⟩
def fLnkTest (n : Nat) : Fld := ⟨lnkA n, 1, 1⟩
def fLnkCause (n : Nat) : Fld := ⟨lnkA n + 4, 24, 4⟩
def fSpareFor (n : Nat) : Fld := ⟨lnkA n + 4, 19, 5⟩
def fReversed (n : Nat) : Fld := ⟨lnkA n + 4, 18, 1⟩
def fFarPresent (n : Nat) : Fld := ⟨lnkA n + 4, 17, 1⟩
def fBadLanes (n : Nat) : Fld := ⟨lnkA n + 4, 0, 17⟩
def fMiswired (n : Nat) : Fld := ⟨lnkA n + 0x80, 29, 1⟩
def fLnkExpected (n : Nat) : Fld := ⟨lnkA n + 0x80, 28, 1⟩

/-- State code of R262. -/
def LnkState.code : LnkState → Nat
  | .off => 0 | .detect => 1 | .train => 2 | .lock => 3 | .exchange => 4 | .active => 5 | .sleep => 6 | .fault => 7
  | .test => 8

/-- Causes of STATUS.cause (R262). -/
def lcNoFarEnd : Nat := 1
def lcTwoBad : Nat := 2
def lcClock : Nat := 3
def lcOrder : Nat := 4
def lcTrain : Nat := 5
def lcLock : Nat := 6
def lcExchange : Nat := 7
def lcVersion : Nat := 8
def lcSignal : Nat := 9
def lcBlockLock : Nat := 10
def lcCommand : Nat := 11

/-- The host can write the port's registers: its domain is on (R543). -/
def lnkWritable (s : State) (n : DPort) : Bool := hostUp s && fld s (fDomLnk n.toNat) == 0

/-- Sets the state of a port. -/
def setLnkState (n : Nat) (st : LnkState) (s : State) : State := setLnk n { lnkPort s n with st := st } s

/-- A port leaves OFF for DETECT once step 5 of R16 has ended, if it is enabled and its domain is on (R16, R262); a test
asked for meanwhile takes effect (R269). -/
def leaveOff (s : State) (n : Nat) : State :=
  if s.pwr.linksOpen && (lnkPort s n).st == .off && flag s (fLnkEnable n) && fld s (fDomLnk n) == 0 then
    iff (flag s (fLnkTest n)) (setFld (fLnkCause n) lcCommand) (setLnkState n .detect s)
  else s

/-- Step 5 of R16 has ended: the Daxair ports may train. -/
def openLinks (s : State) : State :=
  (List.range 8).foldl leaveOff { s with pwr := { s.pwr with linksOpen := true } }

/-- The domain of LNK[n] goes through reset: its registers and counters hold their reset values (R8); the board still
expects the port. -/
def lnkReset (n : Nat) (s : State) : State :=
  let mine := fun (a : Nat) => decide (lnkA n ≤ a ∧ a < lnkA n + 0x10000)
  let s1 := { s with regs := s.regs.filter fun e => !mine e.1, ctrs := s.ctrs.filter fun e => !mine e.1,
                     snaps := s.snaps.filter fun e => !mine e.1 }
  setFlag (fLnkExpected n) ((fld s fPortsExpected).testBit n) (setLnk n LnkPort.off s1)

/-! The board's view (R227, R229). -/

/-- The direction from the package at `p` to its parent in the tree of the cox line rooted at `m`, on a board of `c`
columns and `r` rows: 0 E, 1 W, 2 S, 3 N (R233). -/
def parentWay (c r m p : Nat) : Option Nat :=
  if p / 4 ≠ m / 4 then some (if forwardWay r (m / 4) (p / 4) then 3 else 2)
  else if p % 4 ≠ m % 4 then some (if forwardWay c (m % 4) (p % 4) then 1 else 0)
  else none

/-- The neighbour of position `p` in a direction (R225). -/
def boardNeighbour (c r p way : Nat) : Nat :=
  match way with
  | 0 => (p % 4 + 1) % c + 4 * (p / 4)
  | 1 => (p % 4 + c - 1) % c + 4 * (p / 4)
  | 2 => p % 4 + 4 * ((p / 4 + 1) % r)
  | _ => p % 4 + 4 * ((p / 4 + r - 1) % r)

/-- The far position and port that the board's shape gives port `n` (R225, R227); none for an unused port. -/
def expectedFar (s : State) (n : Nat) : Option (Nat × Nat) :=
  let (c, r) := shape s
  if 1 < (if n < 4 then c else r) then some (boardNeighbour c r (position s) (n / 2), n ^^^ 2) else none


/-- Port `n` is ACTIVE with the far end of R227. -/
def portActive (s : State) (n : Nat) : Bool := (fld s fPortsActive).testBit n
/-- Sets a port's bit of COX.BOARD_PORTS.active. -/
def setPortActive (n : Nat) (b : Bool) (s : State) : State := setFlag ⟨0xB008C, 8 + n, 1⟩ b s


/-- Checks the far end of an ACTIVE port against R227: a wrong one is `LINK_MISWIRED` and does not count (R229). -/
def checkPort (n : Nat) (s : State) : State :=
  let far := reg s (lnkA n + 8)
  let pos := bits far 8 4
  let port := bits far 5 3
  let s1 := iff (s.cox.board == .forming || s.cox.board == .measuring) (showFar n) s
  match portExpected s n, expectedFar s n with
  | true, some e =>
    if e = (pos, port) then setPortActive n true (setFlag (fMiswired n) false s1)
    else logEvent evLinkMiswired (locUnit n 0) (pos * 16 + port) (setFlag (fMiswired n) true (setPortActive n false s1))
  | _, _ => s1

/-- The ports toward this package's parent (R233). -/
def parentPorts (s : State) : List Nat :=
  match parentWay (shape s).1 (shape s).2 (fld s fBoardMaster) (position s) with
  | some d => [2 * d, 2 * d + 1]
  | none => []

/-- The ports toward the packages whose parent this package is (R233). -/
def childPorts (s : State) : List Nat :=
  let (c, r) := shape s
  (List.range 8).filter fun n =>
    let q := boardNeighbour c r (position s) (n / 2)
    portExpected s n && q != position s && parentWay c r (fld s fBoardMaster) q == some (n / 2 ^^^ 1)

/-- Puts a cox message into the COX frames of the ports of a list that carry the board's traffic (R233, R254). -/
def coxTo (ps : List Nat) (m : BitVec 4 × CoxMsg) (s : State) : State :=
  (ps.filter (boardPort s)).foldl (fun x n => setLnk n { lnkPort x n with coxQ := (lnkPort x n).coxQ ++ [m] } x) s

/-- The cox edge toward the parent has lost both ports: the package isolates itself (R240). -/
def isolate (s : State) : State :=
  let ps := parentPorts s
  if !isMaster s && !ps.isEmpty && ps.all (fun n => !portActive s n) && !flag s fIsolated then
    let s1 := setFlag fIsolated true (logEvent evCoxIsolated locNone 0 s)
    let b := course s + (inCourse s).toNat
    let h : HaltReq := { cause := 6, before := b, raised := raiseAt s }
    let m : CoxMsg :=
      { coxMsg s with cause := 6, stroke := BitVec.ofNat 10 (raiseAt s % s.cox.length), course := BitVec.ofNat 64 b }
    let s2 := emit (.cox 5 m) s1
    if s.cox.st == .wait then haltHere hcLinkLost s2 else iff (inCourse s) (addHalt h) s2
  else s

/-- An expected port has left ACTIVE for `st` (R229, R239): on a formed board it is logged and a halt is raised, but not
before release (R242); the board forms again. -/
def boardLoses (n : Nat) (st : LnkState) (s : State) : State :=
  let had := portExpected s n && portActive s n
  let s1 := setPortActive n false s
  if !had then s1
  else
    let s2 := if s.cox.board == .formed then
        toForming (iff (s.ldr.stage != 0) (raiseHalt hcLinkLost) (logEvent evLinkLost (locUnit n 0) st.code s1))
      else toForming s1
    isolate s2


/-- Pass B of a base part is in progress, in which the package belongs to no board and a lost link is logged (R372, R381). -/
def rewriting (s : State) : Bool := s.ldr.passB && s.ldr.job.any fun j => j.object == 0 && !j.regional

/-- A port leaves the state it is in for `st` with a cause. One that was ACTIVE, or in an agreed sleep or waking from
it, is lost to the board, with the packets queued for it or on its link. -/
def leavePort (n : Nat) (st : LnkState) (cause : Nat) (s : State) : State :=
  let x := lnkPort s n
  let was := x.st == .active
  let lost := was || (x.sleeping && (x.st == .sleep || x.st == .lock || x.st == .exchange))
  let s1 := setFld (fLnkCause n) cause (setLnk n
    { x with st := st, sleeping := false, nak := false, dropNext := false, store := [], resend := [], txQ := [],
             vnQ := [], coxQ := [], coxGot := [], ctlQ := [], markers := 0, echo := 0, idle := 0, wakes := 0, asm := [],
             exchLast := none, exchRx := 0, exchTx := 0, drift := 0, check := [] } s)
  let s2 := iff was (count (lnkA n + 0x220)) s1
  let s3 := iff lost (boardLoses n st) (iff (was && rewriting s2) (logEvent evLinkLost (locUnit n 0) st.code) s2)
  ((x.store.flatMap (·.2)) ++ x.txQ).foldl losePkt s3

/-- The port enters TRAIN: its lanes adapt afresh (R260, R264). -/
def toTrain (n : Nat) (cause : Nat) (s : State) : State :=
  let s1 := leavePort n .train cause s
  setLnk n { lnkPort s1 n with adapt := [], laneMap := [], farReady := false, readySent := false, farLoop := false, txSpare := 31, fir := [] } s1

/-- The port enters FAULT and logs `LINK_PORT_FAULT` (R262). -/
def toFault (n cause : Nat) (s : State) : State :=
  logEvent evLinkPortFault (locUnit n 0) cause (leavePort n .fault cause s)

/-! DETECT and TRAIN (R263, R264, R260). -/

/-- The lanes found bad. -/
def badLanes (s : State) (n : Nat) : BitVec 17 := BitVec.ofNat 17 (fld s (fBadLanes n))

/-- The physical lane that carries a logical lane, and the other way round (R264). -/
def laneSwap (s : State) (n l : Nat) : Nat := if flag s (fReversed n) then 16 - l else l

/-- What the spare is for: 0 short, 1 open, 2 marginal (R264). DESIGN CHOICE (notes/assumptions/92.md): a lane that failed
in ACTIVE, of which R264 names no kind, is open. -/
def badKind (s : State) (n p : Nat) : Nat :=
  if (lnkPort s n).shorted.getLsbD p then 0 else if (lnkPort s n).marginal.getLsbD p then 2 else 1

/-- The one bad lane is replaced by lane 16 and the use of the spare is logged (R264). -/
def spareBad (n : Nat) (s : State) : State :=
  match ones (badLanes s n) with
  | [p] =>
    let l := laneSwap s n p
    if fld s (fSpareFor n) = 31 ∧ l ≠ 16 then
      logEvent evLinkLaneSpared (locUnit n p) (badKind s n p) (setFld (fSpareFor n) l s)
    else s
  | _ => s

/-- Marks a physical lane bad. -/
def markBad (n p : Nat) (s : State) : State := setFlag ⟨lnkA n + 4, p, 1⟩ true s

/-- DETECT's result (R263): `opens` and `shorts` are the data lanes that show no termination and the shorted ones. -/
def detectResult (n : Nat) (opens shorts : BitVec 17) (clockOk : Bool) (s : State) : State :=
  let bad := opens ||| shorts
  let x := { lnkPort s n with st := .detect, shorted := shorts, marginal := 0 }
  let none_ := opens == BitVec.allOnes 17 && shorts == 0 && !clockOk
  let s1 := setFld (fSpareFor n) 31 (setFlag (fReversed n) false (setFlag (fFarPresent n) (!none_) (setLnk n x s)))
  if none_ then setFld (fLnkCause n) lcNoFarEnd (setFld (fBadLanes n) 0 s1)
  else
    let s2 := setFld (fBadLanes n) bad.toNat s1
    if 2 ≤ popcount bad then toFault n lcTwoBad s2
    else if !clockOk then toFault n lcClock s2
    else toTrain n (fld s (fLnkCause n)) s2

/-- DETECT (R263). -/
def execDetect (n : DPort) (opens shorts : BitVec 17) (clockOk : Bool) (s : State) : Res :=
  whenever ((lnkPort s n.toNat).st == .detect) s (detectResult n.toNat opens shorts clockOk s)

/-- The pattern field of a TRAIN block (R261). -/
def trainPattern : Nat := 0x5A5A5A5A5

/-- The block is a TRAIN block. -/
def isTrain (b : BitVec 64) : Bool := bits b 56 8 == 0xB1 && bits b 0 35 == trainPattern

/-- Every lane of this receiver is trained or declared bad (R261). -/
def ownReady (s : State) (n : Nat) : Bool :=
  (List.range 17).all fun p => (badLanes s n).getLsbD p || (match find (lnkPort s n).adapt p with
    | some a => a.phase == 3
    | none => false)

/-- Both ends send ready: every lane of this receiver is trained or bad and its TRAIN blocks have said so, and the far end
says the same. The port goes to LOCK, or to TEST (R262, R269). -/
def tryLock (n : Nat) (s : State) : State :=
  let x := lnkPort s n
  if x.st == .train && ownReady s n && x.readySent && x.farReady then
    setLnk n { x with st := if flag s (fLnkTest n) then .test else .lock, trainTo := 0 } s
  else s

/-- The pattern that a port's checkers run on in TEST, 0 for none (R269, R278). -/
def checkPattern (s : State) (n : Nat) : Nat :=
  let v := reg s (lnkA n + 0x100)
  if (lnkPort s n).st == .test && v.getLsbD 7 then bits v 4 2 else 0

/-- Lanes whose checker is synchronised (R280). -/
def prbsSynced (s : State) (n : Nat) : BitVec 17 :=
  BitVec.ofNat 17 (((lnkPort s n).check.filter fun e => e.2.1.toNat == checkPattern s n).foldl (fun a e => a + 2 ^ e.1) 0)

/-- The checker of lane `l` takes 64 bits of the line (R269): it synchronises itself, or counts the bits in error. -/
def checkBits (n : Nat) (s : State) (e : BitVec 64 × Nat) : State :=
  let (b, l) := e
  let k := checkPattern s n
  let x := lnkPort s n
  let keep := fun (h : BitVec 31) (y : State) =>
    setLnk n { lnkPort y n with check := ins (lnkPort y n).check l (BitVec.ofNat 2 k, h) } y
  match find x.check l with
  | some (p, h) =>
    if p.toNat = k then
      let (want, h') := prbsBlock k h
      keep h' (countN (lnkA n + 0x140 + 8 * l) (popcount (want ^^^ prbsLine k b)) s)
    else match prbsFind k (prbsLine k b) with
      | some h => keep h s
      | none => s
  | none => match prbsFind k (prbsLine k b) with
    | some h => keep h s
    | none => s

/-- The checkers of a port take 64 bits of each lane, if they run. -/
def checkLanes (n : Nat) (lanes : List (BitVec 64)) (s : State) : State :=
  if checkPattern s n = 0 then s else (lanes.take 17).zipIdx.foldl (checkBits n) s

/-- The order of the lanes known so far: straight, reversed, or neither (R264). -/
def laneOrder (m : Sparse (BitVec 5)) (bad : BitVec 17) : Option Bool :=
  let good := m.filter fun e => !bad.getLsbD e.1
  if good.all fun e => e.2.toNat == e.1 then some false
  else if good.all fun e => e.2.toNat == 16 - e.1 then some true
  else none

/-- A TRAIN block on a data lane: its lane number, polarity and requests are taken (R261, R264). The spare's blocks are
those of the lane that it stands in for (R250), and say nothing of the order. -/
def trainData (n p : Nat) (block : BitVec 64) (s : State) : State :=
  let inv := !isTrain block
  let b := if inv then ~~~block else block
  if !isTrain b || 16 < bits b 51 5 then s
  else
    let x := lnkPort s n
    let l := bits b 51 5
    let copy := l == fld s (fSpareFor n) && (p == 16 || p == 0)
    let s1 := setFlag ⟨lnkA n + 0xC, p, 1⟩ inv (setLnk n
      { x with laneMap := if copy then x.laneMap else ins x.laneMap p (b.extractLsb' 51 5),
               fir := ins x.fir l (b.extractLsb' 47 4, b.extractLsb' 42 5),
               txSpare := b.extractLsb' 37 5, farReady := b.getLsbD 36, farLoop := b.getLsbD 35 } s)
    match laneOrder (lnkPort s1 n).laneMap (badLanes s n) with
    | none => toFault n lcOrder s1
    | some rev =>
      let s2 := setFlag (fReversed n) rev s1
      tryLock n (if p = 8 then s2 else spareBad n s2)

/-- The clock lane's test block carries lane number 31 (R261); its polarity is corrected the same way. -/
def trainClock (n : Nat) (block : BitVec 64) (s : State) : State :=
  let inv := !isTrain block
  let b := if inv then ~~~block else block
  iff (isTrain b && bits b 51 5 == 31) (setFlag ⟨lnkA n + 0xC, 17, 1⟩ inv) s

/-- TRAIN_BLOCK (R264): on physical lane `lane`, 31 for the clock lane. -/
def execTrainBlock (n : DPort) (lane : BitVec 5) (block : BitVec 64) (s : State) : Res :=
  forUnit (decide (lane.toNat < 17 ∨ lane.toNat = 31))
    (whenever ((lnkPort s n.toNat).st == .train) s
      (if lane = 31 then trainClock n.toNat block s else trainData n.toNat lane.toNat block s))

/-- Figure of merit (R259). -/
def fomOf (h w : BitVec 8) : Nat := min 255 (min (h.toNat * 255 / 120) (w.toNat * 255 / 128))

/-- The CTLE code in use: on A1, codes above 8 act as 8 (R258). -/
def ctleUsed (s : State) (k : Nat) : Nat := if s.fuses.stepping = 1 then min 8 k else k

/-- Writes LNK.FOM of a logical lane (R277). -/
def setFom (n lane : Nat) (h w : BitVec 8) (ctle : Nat) (s : State) : State :=
  setReg (lnkA n + 0x20 + 4 * lane)
    (BitVec.ofNat 32 (fomOf h w * 2 ^ 24 + h.toNat * 2 ^ 16 + w.toNat * 2 ^ 8 + ctle * 16)) s

/-- A lane before its first adaptation step. -/
def adaptNew : Adapt := { phase := 0, code := 0, best := none, lastFom := 0, post := 0, pre := 0 }

/-- One adaptation step that ends with figure of merit `f` (the procedure of R260); in test the CTLE code is fixed at
8 and no FIR is asked for (R269). -/
def adaptNext (test : Bool) (f : Nat) (a : Adapt) : Adapt :=
  if test then { a with phase := 3, code := 8, lastFom := f }
  else match a.phase with
  | 0 =>
    let best := match a.best with
      | some (c, g) => if g < f then (a.code, f) else (c, g)
      | none => (a.code, f)
    if a.code < 15 then { a with code := a.code + 1, best := some best }
    else { a with phase := 1, code := best.1, best := some best, lastFom := best.2 }
  | 1 =>
    if a.lastFom < f then
      { a with lastFom := f, post := a.post + 1, phase := if a.post + 1 < 31 then 1 else 2 }
    else { a with phase := 2 }
  | 2 =>
    if a.lastFom < f then { a with lastFom := f, pre := a.pre + 1, phase := if a.pre + 1 < 15 then 2 else 3 }
    else { a with phase := 3 }
  | _ => a

/-- One adaptation step of logical lane `l`; a lane that ends below fom_min is marginal and bad (R260, R264). -/
def adaptLane (n l : Nat) (h w : BitVec 8) (s : State) : State :=
  let p := laneSwap s n l
  let x := lnkPort s n
  let a := look adaptNew x.adapt p
  let test := flag s (fLnkTest n)
  let a' := adaptNext test (fomOf h w) a
  let s1 := setFom n l h w (ctleUsed s (if test then 8 else a.code)) (setLnk n { x with adapt := ins x.adapt p a' } s)
  if a'.phase == 3 && decide (a'.lastFom < bits (reg s (lnkA n + 0x10)) 0 8) then
    let y := lnkPort s1 n
    let s2 := markBad n p (setLnk n { y with marginal := y.marginal ||| BitVec.ofNat 17 (2 ^ p) } s1)
    if 2 ≤ popcount (badLanes s2 n) then toFault n lcTwoBad s2 else tryLock n (spareBad n s2)
  else tryLock n s1

/-- ADAPT_STEP (R260): of a lane that is not bad and whose search has not ended. -/
def execAdaptStep (n : DPort) (lane : BitVec 5) (h w : BitVec 8) (s : State) : Res :=
  let p := laneSwap s n.toNat lane.toNat
  forUnit (decide (lane.toNat < 17))
    (whenever ((lnkPort s n.toNat).st == .train && !(badLanes s n.toNat).getLsbD p &&
        (look adaptNew (lnkPort s n.toNat).adapt p).phase != 3) s
      (adaptLane n.toNat lane.toNat h w s))

/-! LOCK, timeouts and FAULT (R262). -/

/-- BLOCK_LOCK (R262): the port goes to EXCHANGE and sends its capability frames. -/
def execBlockLock (n : DPort) (s : State) : Res :=
  whenever ((lnkPort s n.toNat).st == .lock) s
    (let s1 := spareBad n.toNat s
     setLnk n.toNat
       { lnkPort s1 n.toNat with st := .exchange, exchLast := none, exchRx := 0, exchTx := 0, wakes := 0,
                                 dropNext := false } s1)

/-- TRAIN_TIMEOUT (R262): back to DETECT, its cause unchanged (R268), or to FAULT at the third in a row. -/
def execTrainTimeout (n : DPort) (s : State) : Res :=
  whenever ((lnkPort s n.toNat).st == .train) s
    (let k := (lnkPort s n.toNat).trainTo + 1
     let s1 := setLnk n.toNat { lnkPort s n.toNat with trainTo := if k < 3 then k else 0 } s
     if k < 3 then leavePort n.toNat .detect (fld s (fLnkCause n.toNat)) s1 else toFault n.toNat lcTrain s1)

/-- LOCK_TIMEOUT (R262): the port returns to TRAIN. -/
def execLockTimeout (n : DPort) (s : State) : Res :=
  whenever ((lnkPort s n.toNat).st == .lock) s (toTrain n.toNat lcLock s)

/-- EXCHANGE_TIMEOUT (R262): the port returns to TRAIN. -/
def execExchangeTimeout (n : DPort) (s : State) : Res :=
  whenever ((lnkPort s n.toNat).st == .exchange) s (toTrain n.toNat lcExchange s)

/-- FAULT_RETRY (R262): the port returns to DETECT. -/
def execFaultRetry (n : DPort) (s : State) : Res :=
  whenever ((lnkPort s n.toNat).st == .fault) s (setLnkState n.toNat .detect s)

/-! Frames (R249 to R257). -/

/-- A frame that the vote and the decoder accept: control or data, lanes outvoted, whether symbols were corrected, the
content, and the descramblers' bits after it. -/
structure RxDone where
  ctl   : Bool
  outv  : Nat
  corr  : Bool
  body  : BitVec 960
  scram : List (BitVec 58)

/-- The blocks of lanes 0–15: lane 16's, where it is used, in the place of the lane `spare` that it stands in for (R250, R251,
R264). -/
def sixteen {α : Type} (spare : Nat) (l : List α) : List α :=
  match l[16]? with
  | some b => (l.set (if spare < 16 then spare else 16) b).take 16
  | none => l

/-- A frame as the vote and the decoder take it (R249, R251). -/
def asFramed (s : State) (n : Nat) (f : RxFrame) : RxFrame :=
  let k := fld s (fSpareFor n)
  { hdrs := sixteen k f.hdrs, lanes := sixteen k f.lanes }

/-- Decodes a frame as received. -/
def decodeFrame (hist : List (BitVec 58)) (f : RxFrame) : Option RxDone :=
  match headerVote f.hdrs, rsDecode f.lanes with
  | some (ctl, k), some (lanes, corr) =>
    let (b, h) := descrambleAll hist lanes
    some { ctl := ctl, outv := k, corr := corr, body := b, scram := h }
  | _, _ => none

/-- The port receives frames. -/
def framed (s : State) (n : Nat) : Bool :=
  let st := (lnkPort s n).st
  st == .lock || st == .exchange || st == .active

/-- A frame counts in FRAME_ERR, and the first is logged (R257). -/
def frameError (n : Nat) (s : State) : State :=
  iff (ctr s (lnkA n + 0x208) == 0) (logEvent evLinkFrameErr (locUnit n 0) 0) (count (lnkA n + 0x208) s)

/-- A frame is discarded (R257): counted, logged for the first, replay asked for, and a halt in RUN or EASY. -/
def discardFrame (n : Nat) (dropNext : Bool) (scram : List (BitVec 58)) (s : State) : State :=
  let s1 := frameError n (setLnk n
    { lnkPort s n with nak := true, dropNext := dropNext, scram := scram, exchRx := 0 } s)
  iff (inCourse s) (raiseHalt hcOther) s1

/-- A frame arrives: the lanes that the vote of its headers outvotes are counted (R249), and a correction is (R257). It is
discarded if it cannot be accepted or follows one that could not, else `act` takes its content if it is of the kind that
`want` names. -/
def onFrame (n : Nat) (f0 : RxFrame) (want : RxDone → Bool) (act : RxDone → State → State) (s : State) : Res :=
  if !framed s n then .next s
  else
    let f := asFramed s n f0
    let x := lnkPort s n
    let s1 := countN (lnkA n + 0x218) (((headerVote f.hdrs).map (·.2)).getD 0) s
    match decodeFrame x.scram f with
    | none => .next (discardFrame n true ((f.lanes.take 15).map fun l => l.extractLsb' 6 58) s1)
    | some r =>
      let s2 := iff r.corr (count (lnkA n + 0x200)) s1
      if x.dropNext then .next (discardFrame n false r.scram s2)
      else whenever (want r) s (act r (setLnk n { lnkPort s2 n with scram := r.scram } s2))

/-- Type of a control frame (R254). -/
def ctlType (b : BitVec 960) : Nat := bits b 952 8

/-! Data frames (R252, R253, R256). -/

/-- Slot `k` of a data frame. -/
def slotOf (b : BitVec 960) (k : Nat) : BitVec 78 := b.extractLsb' (78 * k) 78
/-- Fields of a slot (R253). -/
def slFlit (x : BitVec 78) : BitVec 64 := x.extractLsb' 14 64
def slVn (x : BitVec 78) : Nat := bits x 12 2
def slHead (x : BitVec 78) : Bool := x.getLsbD 11
def slTail (x : BitVec 78) : Bool := x.getLsbD 10
def slClass (x : BitVec 78) : Bool := x.getLsbD 9
def slValid (x : BitVec 78) : Bool := x.getLsbD 8
def slGood (x : BitVec 78) : Bool := crc8 64 (slFlit x).toNat == x.extractLsb' 0 8

/-- A cox message in the format of R255. -/
def coxBits (m : BitVec 4 × CoxMsg) : BitVec 192 :=
  m.1 ++ m.2.cause ++ m.2.origin ++ m.2.stroke ++ BitVec.ofBool m.2.opn ++ (0 : BitVec 9) ++ m.2.len ++ m.2.course ++ m.2.value

/-- The cox message that 192 bits hold (R255). -/
def coxOf (b : BitVec 192) : BitVec 4 × CoxMsg :=
  (b.extractLsb' 188 4,
   { cause := b.extractLsb' 184 4, origin := b.extractLsb' 180 4, stroke := b.extractLsb' 170 10, opn := b.getLsbD 169,
     len := b.extractLsb' 128 32, course := b.extractLsb' 64 64, value := b.extractLsb' 0 64 })

/-- The messages of a COX frame (R254). -/
def coxMsgs (b : BitVec 960) : List (BitVec 4 × CoxMsg) :=
  (List.range (min 4 (bits b 948 4))).map fun i => coxOf (b.extractLsb' (192 * i) 192)

/-- What a STOP that comes in a frame says of its requests by cause: its tick and its length are those of the cause that it
names, a length above a throttle step's 32 is LINK's, and a tick of no LINK request is DMEM's (DESIGN CHOICE,
notes/assumptions/50.md). -/
def stopIn (m : CoxMsg) : StopIn :=
  { msg := m, link := if m.cause = 2 then m.value else 0, dmem := if m.cause = 2 then 0 else m.value,
    stretch := if m.cause = 4 ∧ m.len.toNat ≤ 32 then 0 else m.len,
    thermal := if m.cause = 4 then BitVec.ofNat 32 (min 32 m.len.toNat) else 0 }

/-- A cox message acts in this package, by the row of its kind (R84, R255); a reserved kind does nothing. -/
def actCox (m : BitVec 4 × CoxMsg) (s : State) : State :=
  let r := match m.1.toNat with
    | 1 => execAsk m.2 s
    | 2 => execStop (stopIn m.2) s
    | 3 => execClear m.2 s
    | 4 => execResume m.2 s
    | 5 => execHaltMessage m.2 s
    | 6 => execArmMessage m.2 s
    | 7 => execFire m.2 s
    | _ => .next s
  match r with
  | .next t => t
  | _ => s

/-- A cox message from a far end (R233): of the two copies of an edge the first acts. From the parent it acts here and goes
on to the packages below; from below it acts at the master and else goes on toward it. -/
def takeCox (n : Nat) (s : State) (m : BitVec 4 × CoxMsg) : State :=
  let twin := n ^^^ 1
  let y := lnkPort s twin
  if y.coxGot.contains m then setLnk twin { y with coxGot := y.coxGot.erase m } s
  else
    let s1 := iff (boardPort s twin) (setLnk n { lnkPort s n with coxGot := (lnkPort s n).coxGot ++ [m] }) s
    if (parentPorts s).contains n then coxTo (childPorts s) m (actCox m s1)
    else if isMaster s then actCox m s1
    else coxTo (parentPorts s) m s1

/-- The valid slots of a frame, in order. -/
def slotsOf (b : BitVec 960) : List (BitVec 78) := ((List.range 11).map (slotOf b)).filter slValid

/-- A received VN0 flit waits for its tag cycle; one with a CRC mismatch is dropped (R116, R122). -/
def takeVn0 (n : Nat) (s : State) (x : BitVec 78) : State :=
  if slGood x then holdFlit n (slFlit x) s
  else flitCheck (gatewayPav (flitFgate (slFlit x))) 5 (2 * gOf s) s

/-- A whole packet has come: the I/O die takes it (R237, R238). -/
def takePacket (fl : List (BitVec 64)) (vn : Nat) (cls : Bool) (s : State) : State :=
  match fl with
  | [] => s
  | h :: d => atIo
      { head := h, data := d, vn := BitVec.ofNat 2 vn, legs := 0, endG := false, nextPort := 0, bad := false, held := 0,
        cls := cls } s

/-- A received packet flit joins the packet of its virtual network and class, and its buffer place is freed (R252). -/
def takeSlot (n : Nat) (s : State) (x : BitVec 78) : State :=
  let p := lnkPort s n
  let vn := slVn x
  let k := vn * 2 + (slClass x).toNat
  let fl := (if slHead x then [] else look [] p.asm k) ++ [slFlit x]
  let fr := k - 2
  let freed := p.freed.set fr (p.freed.getD fr 0 + 1)
  let s1 := setLnk n { p with asm := upd [] p.asm k (if slTail x then [] else fl), freed := freed } s
  if slTail x then takePacket fl vn (slClass x) s1 else s1

/-- Takes the far end's ack, nak and credits: acknowledged frames leave the store, and a nak replays the rest
(R252, R256). -/
def takeAck (n : Nat) (b : BitVec 960) (s : State) : State :=
  let ack := b.extractLsb' 944 8
  let x := lnkPort s n
  let keep := if x.store.any fun e => e.1 == ack then (x.store.dropWhile fun e => e.1 != ack).drop 1 else x.store
  let again := b.getLsbD 943 && !keep.isEmpty && x.resend.isEmpty
  iff again (count (lnkA n + 0x210)) (setLnk n
    { x with store := keep, farFreed := b.extractLsb' 919 24,
             resend := if again then keep.map (·.1) else x.resend.filter fun q => keep.any fun e => e.1 == q } s)

/-- A data frame that was accepted (R252 to R256). A packet slot with a bad check discards the frame. The first data frame
of an ACTIVE port has number 1 (DESIGN CHOICE, notes/assumptions/87.md). A latency marker is to be echoed (R230). -/
def takeData (n : Nat) (b : BitVec 960) (s : State) : State :=
  let x := lnkPort s n
  let sl := slotsOf b
  let pk := sl.filter fun y => slVn y != 0
  if pk.any fun y => !slGood y then discardFrame n true x.scram s
  else
    let seq := b.extractLsb' 952 8
    let inOrder := seq == x.rxSeq + 1
    let old := decide ((x.rxSeq - seq).toNat < 128)
    let echo := x.echo + (b.getLsbD 918).toNat
    let s1 := setLnk n { x with rxSeq := if inOrder then seq else x.rxSeq, nak := !inOrder && (x.nak || !old), echo := echo } s
    let s2 := takeAck n b s1
    if portExpected s n then
      let s3 := (sl.filter fun y => slVn y == 0).foldl (takeVn0 n) s2
      if inOrder then pk.foldl (takeSlot n) s3 else s3
    else s2

/-- DATA_FRAME (R252): a data frame; a COX frame, whose messages are taken (R233, R255); a frame of a reserved type, which is
discarded and counted (R254). In TEST, the 64 bits that each lane brings, which the checkers take, unless near_loop feeds
them, and which go back out where the far end asks for it (R269). -/
def execDataFrame (n : DPort) (f : RxFrame) (s : State) : Res :=
  let k := n.toNat
  if (lnkPort s k).st == .test then
    let s1 := if (reg s (lnkA k + 0x100)).getLsbD 3 then s else checkLanes k f.lanes s
    .next (iff (lnkPort s k).farLoop (emit (.pattern n (f.lanes.take 17))) s1)
  else
    onFrame k f (fun r => !r.ctl || ctlType r.body == 0 || ctlType r.body == 1 || decide (5 < ctlType r.body))
      (fun r x =>
        if !r.ctl then (if (lnkPort s k).st == .active then takeData k r.body x else x)
        else if ctlType r.body = 1 then (if boardPort s k then (coxMsgs r.body).foldl (takeCox k) x else x)
        else frameError k x) s

/-! EXCHANGE (R265). -/

/-- The port is ACTIVE: its receive buffer is centred and its counts start afresh (R252, R267); out of an agreed sleep, which
is no leaving of ACTIVE (R266), its frame numbers, its store and its credits go on. -/
def becomeActive (n : Nat) (s : State) : State :=
  let x := lnkPort s n
  let y := { x with st := .active, dropNext := false, trainTo := 0, sleeping := false, exchLast := none, exchRx := 0,
                    exchTx := 0, sinceAl := 0, drift := 0 }
  let s1 := setLnk n (if x.sleeping then y else
    { y with rxSeq := 0, txSeq := 0, nak := false, freed := [0, 0, 0, 0, 0, 0], sentTo := [0, 0, 0, 0, 0, 0],
             farFreed := 0 }) s
  let s2 := checkPort n s1
  let s3 := iff (s2.cox.board == .failed && portExpected s2 n)
    (fun y => { y with cox := { y.cox with board := .forming } }) s2
  tryMeasure s3

/-- Eight capability frames of one content have come and eight were sent: the port is ACTIVE (R262). -/
def tryActive (n : Nat) (s : State) : State :=
  let x := lnkPort s n
  if x.st == .exchange && decide (8 ≤ x.exchRx ∧ 8 ≤ x.exchTx) then becomeActive n s else s

/-- One capability frame (R265): the far fields are copied; eight of one content in a row, with eight sent, make the port
ACTIVE. -/
def takeExchange (n : Nat) (b : BitVec 960) (s : State) : State :=
  let x := lnkPort s n
  let k := if x.exchLast == some b then x.exchRx + 1 else 1
  let s1 := setReg (lnkA n + 8) (b.extractLsb' 921 31 ++ (1 : BitVec 1) : BitVec 32)
    (setLnk n { x with exchLast := some b, exchRx := k } s)
  if bits b 944 8 ≠ 1 then toFault n lcVersion s1 else tryActive n s1

/-- EXCHANGE (R265). -/
def execExchange (n : DPort) (f : RxFrame) (s : State) : Res :=
  onFrame n.toNat f (fun r => r.ctl && ctlType r.body == 2)
    (fun r x => if (lnkPort s n.toNat).st == .exchange then takeExchange n.toNat r.body x else x) s

/-- ALIGN (R254): used for deskew; it brings nothing else. -/
def execAlign (n : DPort) (f : RxFrame) (s : State) : Res :=
  onFrame n.toNat f (fun r => r.ctl && ctlType r.body == 3) (fun _ x => x) s

/-! Sleep and wake (R266). -/

/-- The course controller lets a port sleep (R266). -/
def sleepAllowed (s : State) : Bool := !(inCourse s || s.cox.st == .wait)

/-- A control frame is due on a port (R254). -/
def askControl (n k : Nat) (s : State) : State :=
  setLnk n { lnkPort s n with ctlQ := (lnkPort s n).ctlQ ++ [BitVec.ofNat 8 k] } s

/-- An agreed sleep: after 16 idle frames the data lanes stop (R266). -/
def goSleep (n : Nat) (s : State) : State :=
  count (lnkA n + 0x220) (setLnk n { lnkPort s n with st := .sleep, sleeping := true, idle := 16 } s)

/-- WAKE blocks for 2 µs, on every lane (R266): 970 blocks of 66 UI. -/
def wakeCount : Nat := 970

/-- A port in SLEEP goes to LOCK with its saved settings (R266). -/
def wakeTo (wakes n : Nat) (s : State) : State :=
  setLnk n { lnkPort s n with st := .lock, idle := 0, wakes := wakes, ctlQ := [] } s

/-- A port in SLEEP is woken from outside (R266, R467). -/
def portWakes (n : Nat) (s : State) : State :=
  packageWake 3 (logEvent evLinkWake (locUnit n 0) 0 (wakeTo 0 n s))

/-- SLEEP_REQ (R266): answered with SLEEP_ACK, and the data lanes stop. -/
def execSleepReq (n : DPort) (f : RxFrame) (s : State) : Res :=
  onFrame n.toNat f (fun r => r.ctl && ctlType r.body == 4)
    (fun _ x => if (lnkPort x n.toNat).st == .active && sleepAllowed x then goSleep n.toNat (askControl n.toNat 5 x)
      else x) s

/-- SLEEP_ACK (R266): the port that asked for the sleep enters SLEEP. -/
def execSleepAck (n : DPort) (f : RxFrame) (s : State) : Res :=
  onFrame n.toNat f (fun r => r.ctl && ctlType r.body == 5)
    (fun _ x => if (lnkPort x n.toNat).st == .active && (lnkPort x n.toNat).sleeping then goSleep n.toNat x else x) s

/-- The port asks its far end to sleep (R266). -/
def sleepOp (n : Nat) (s : State) : State :=
  if (lnkPort s n).st == .active then
    askControl n 4 (setLnk n { lnkPort s n with sleeping := true } s)
  else s

/-- SLEEP (R266): ignored while the course controller is in WAIT, RUN or EASY. -/
def execSleep (n : DPort) (s : State) : Res := whenever (lnkWritable s n && sleepAllowed s) s (sleepOp n.toNat s)

/-- SLEEP_ACK_TIMEOUT (R466): during entry to P2 the port is powered off; it counts as lost at the wake. -/
def execSleepAckTimeout (n : DPort) (s : State) : Res :=
  let x := lnkPort s n.toNat
  whenever (s.pwr.entering && x.st == .active && x.sleeping) s
    (setFld (fDomLnk n.toNat) 3 (setLnk n.toNat { LnkPort.off with sleeping := true } (lnkReset n.toNat s)))

/-- CTRL.wake: from SLEEP, WAKE blocks are sent and the port goes to LOCK; a WAKE that crosses a SLEEP_REQ prevails, and both
ports return to ACTIVE through LOCK (R266, R268). -/
def wakeOp (n : Nat) (s : State) : State :=
  let x := lnkPort s n
  if x.st == .sleep || (x.st == .active && x.sleeping) then wakeTo wakeCount n s
  else s

/-- WAKE (R266). -/
def execWake (n : DPort) (s : State) : Res := whenever (lnkWritable s n) s (wakeOp n.toNat s)

/-- The pattern field of a WAKE block (R261). -/
def wakePattern : Nat := 0x70F0F0F0F

/-- The block is a WAKE block (R261). -/
def isWake (b : BitVec 64) : Bool := bits b 56 8 == 0xB7 && decide (bits b 51 5 ≤ 16) && bits b 0 35 == wakePattern

/-- WAKE_BLOCK (R266): `LINK_WAKE`, a package wake, and LOCK with the saved settings, in SLEEP for any activity (R266); in
ACTIVE, for a WAKE block that crosses a SLEEP_REQ (R268). -/
def execWakeBlock (w : WakeIn) (s : State) : Res :=
  let n := w.n.toNat
  let x := lnkPort s n
  let b := if flag s ⟨lnkA n + 0xC, w.lane.toNat, 1⟩ then ~~~w.block else w.block
  forUnit (decide (w.lane.toNat < 17))
    (if x.st == .sleep then .next (portWakes n s)
     else whenever (x.st == .active && isWake b) s
       (logEvent evLinkWake (locUnit n 0) 0 (wakeTo 0 n (setLnk n { x with sleeping := true } s))))

/-! Losses and margins in ACTIVE (R262, R266 to R268). -/

/-- The physical lane that brings a logical lane: the spare's where it stands in for it (R264). -/
def lanePin (s : State) (n l : Nat) : Nat := laneSwap s n (if l = fld s (fSpareFor n) then 16 else l)

/-- A lane fails in ACTIVE: the port goes to TRAIN, with the spare if it is free, else on to FAULT (R268). DESIGN CHOICE
(notes/assumptions/92.md): a lost port retrains from TRAIN, as the exits of R262 and the rows of R268 have it, where R241 says
from DETECT. -/
def laneLoss (n lane : Nat) (lockLost : Bool) (s : State) : State :=
  let s1 := if lane = 31 then s else markBad n (lanePin s n lane) s
  let s2 := toTrain n (if lockLost then lcBlockLock else lcSignal) s1
  if 2 ≤ popcount (badLanes s2 n) then toFault n lcTwoBad s2 else s2

/-- LANE_SIGNAL_LOSS (R262): logical lane `lane`, 31 for the clock lane; in TRAIN a lost clock lane is `CLOCK_LANE`, in
SLEEP a clock that stops without an agreed sleep takes the port to DETECT. -/
def execLaneSignalLoss (n : DPort) (lane : BitVec 5) (lockLost : Bool) (s : State) : Res :=
  let x := lnkPort s n.toNat
  forUnit (decide (lane.toNat < 17 ∨ lane.toNat = 31))
    (.next (match x.st with
      | .active => laneLoss n.toNat lane.toNat lockLost s
      | .train => if lane = 31 then toFault n.toNat lcClock s else s
      | .sleep => if lane = 31 && !x.sleeping then leavePort n.toNat .detect lcSignal s else s
      | _ => s))

/-- BUFFER_DRIFT (R267): the receive buffer has drifted by 4 strokes and must recentre over 32. A port of class ok asks for a
LINK Easy, `ahead` strokes and EASY_LEAD away, whose ready tick lies 32 strokes after P would start (R83). In TETHERED it
recentres in the wait for TCLK (R91); one that has drifted again without it is a link fault (R213), handled as a loss of
signal (DEDUCED, notes/assumptions/89.md). -/
def execBufferDrift (n : DPort) (ahead : BitVec 10) (s : State) : Res :=
  let k := n.toNat
  let x := lnkPort s k
  let p := gOf s + Config.easyLead + ahead.toNat
  let r : EasyReq :=
    { origin := BitVec.ofNat 4 (position s), cause := 2, unit := k, p := p, kind := .tick (wall s + (p - gOf s) + 32) }
  if x.st != .active || !inCourse s then .next s
  else if s.cox.mode == .tethered then
    .next (if x.drift = 0 then setLnk k { x with drift := 32 } s else toTrain k lcSignal s)
  else whenever (bits (reg s (lnkA k + 0x80)) 30 2 == 1 && x.drift == 0) s
    (setLnk k { x with drift := 32 } { s with cox := { s.cox with raised := s.cox.raised ++ [r] } })

/-- A port that had no boundary wait of 32 strokes for the recentring it is due is handled as a link fault (R213). -/
def driftFaults (s : State) : State :=
  (List.range 8).foldl (fun x n => iff ((lnkPort x n).drift != 0 && (lnkPort x n).st == .active) (toTrain n lcSignal) x) s

/-- TETHER_LEAD_END (R212): T_LEAD strokes after the sampling tick the course starts; a package that follows starts
with its master. -/
def execTetherLeadEnd (s : State) : Res :=
  whenever (s.cox.st == .wait && s.cox.lead.isNone && (paceMode s).mode == .tethered && clearToStart s &&
      (s.cox.tether == some 0 || !isMaster s)) s
    (driftFaults (goCourse s))

/-- FOM_REFRESH (R259, R266): `LINK_MARGIN` once per drop below fom_warn. -/
def execFomRefresh (n : DPort) (lane : BitVec 5) (h w : BitVec 8) (s : State) : Res :=
  let x := lnkPort s n.toNat
  let l := lane.toNat
  let low := decide (fomOf h w < bits (reg s (lnkA n.toNat + 0x10)) 8 8)
  let was := x.warned.getLsbD l
  forUnit (decide (lane.toNat < 17))
    (whenever (x.st == .active) s
      (let s1 := setFom n.toNat l h w (bits (reg s (lnkA n.toNat + 0x20 + 4 * l)) 4 4)
        (setLnk n.toNat { x with warned := putBit x.warned l low } s)
       iff (low && !was) (logEvent evLinkMargin (locUnit n.toNat l) (fomOf h w)) s1))

/-- LINK_LOST (R239): an expected port of the package at a position of a formed board loses its signal. One of another package
takes this one to FORMING (R229); the HALT raised there comes as a message. -/
def execLinkLost (x : BoardPort) (s : State) : Res :=
  let n := x.n.toNat
  if x.pos.toNat ≠ position s then whenever (s.cox.board == .formed) s (toForming s)
  else whenever (((s.cox.board == .formed && portExpected s n && portActive s n) || rewriting s) && (lnkPort s n).st == .active) s
    (toTrain n lcSignal s)

/-! CTRL (R272). -/

/-- CTRL.retrain: from ACTIVE or FAULT to DETECT. -/
def retrainOp (n : Nat) (s : State) : State :=
  let st := (lnkPort s n).st
  if st == .active || st == .fault then leavePort n .detect lcCommand s else s

/-- RETRAIN (R272). -/
def execRetrain (n : DPort) (s : State) : Res := whenever (lnkWritable s n) s (retrainOp n.toNat s)

/-- CTRL.test (R269): 1 takes the port to DETECT from any state but OFF and TEST, 0 leaves TEST; in TRAIN either write
takes it to DETECT (R262). -/
def testOp (n : Nat) (on : Bool) (s : State) : State :=
  let st := (lnkPort s n).st
  let s1 := setFlag (fLnkTest n) on s
  if on then (if st == .off || st == .test then s1 else leavePort n .detect lcCommand s1)
  else if st == .test || st == .train then leavePort n .detect lcCommand s1 else s1

/-- TEST (R269). -/
def execTest (n : DPort) (on : Bool) (s : State) : Res := whenever (lnkWritable s n) s (testOp n.toNat on s)

/-- A write of LNK.INJECT arms one corruption of what the port sends next (R269, R279). -/
def injectOp (n : Nat) (v : Word) (s : State) : State := setReg (lnkA n + 0x104) (v &&& rwMask (lnkA n + 0x104)) s

/-- INJECT (R269, R279). -/
def execInject (n : DPort) (v : Word) (s : State) : Res := whenever (lnkWritable s n) s (injectOp n.toNat v s)

/-- A write of LNK.CTRL (R272). DESIGN CHOICE (notes/assumptions/82.md): the bits of one write act in the order test, retrain,
sleep, wake, and test = 0 acts where it changes the bit. -/
def writeLnkCtrl (n : Nat) (v : Word) (s : State) : State :=
  let s0 := setFlag (fLnkEnable n) (v.getLsbD 0) s
  let s1 := if v.getLsbD 1 || flag s (fLnkTest n) then testOp n (v.getLsbD 1) s0 else s0
  let s2 := iff (v.getLsbD 4) (retrainOp n) s1
  let s3 := iff (v.getLsbD 3 && sleepAllowed s2) (sleepOp n) s2
  leaveOff (iff (v.getLsbD 2) (wakeOp n) s3) n

/-- LNK[n] is powered off (R465): the port is OFF, and its block will leave reset (R8). -/
def portOff (n : Nat) (s : State) : State :=
  let s1 := if (lnkPort s n).st == .off then s else leavePort n .off lcCommand s
  setFld (fDomLnk n) 3 (lnkReset n s1)

end Sys2Proof.Machine
end

