-- ==== Sys2Proof/Machine/Board.lean ====
section
/-! DEFINITION. Boards of packages (R225 to R247) and mode commands (R204 to R206, R217, R235). -/

namespace Sys2Proof.Machine

/-- The mask of expected ports of the board's shape (R227). -/
def expectedMask (s : State) : Nat :=
  (List.range 8).foldl (fun m n => if (expectedFar s n).isSome then m + 2 ^ n else m) 0

/-- A LOAD_FULL of a part of several packages has completed: the board forms (R229). -/
def formBoard (s : State) : State :=
  let m := expectedMask s
  let s1 := setReg 0xB008C (BitVec.ofNat 32 m) { s with cox := { s.cox with board := .forming } }
  let s2 := (List.range 8).foldl (fun x n => setReg (lnkA n + 0x80) (if m.testBit n then 0x10000000 else 0) x) s1
  let s3 := (List.range 8).foldl (fun x n => if (lnkPort x n).st == .active then checkPort n x else x) s2
  tryMeasure s3

/-- The package is alone: pass B of a LOAD_FULL has begun (R229, R372). Reach, stretch, tether lead and rate are those of
a lone package (R102, R212, R220, R228). -/
def leaveBoard (s : State) : State :=
  let s1 := setReg 0xB008C 0 { s with cox := { s.cox with board := .none, formedOnce := false } }
  let s2 := (List.range 8).foldl (fun x n => setReg (lnkA n + 0x80) 0 x) s1
  setFld fBoardRate 0 <| setFld fPackages 0 (setFlag fIsolated false (setReg 0xB0084 0 (setFld fReachUp 4 (setFld fReachDown 4
    (setFld ⟨0xB0060, 8, 8⟩ 8 s2)))))

/-- The board goes to FAILED: no package releases (R156, R230). DESIGN CHOICE (notes/assumptions/82.md): an accepted
MOVE_MASTER whose measurement fails completes `BUSY_IN_USE`, and COX.BOARD.master keeps the new position. -/
def boardFails (s : State) : State :=
  let s1 := { s with cox := { s.cox with board := .failed, moving := false, carried := false } }
  let s2 := iff (s1.cox.st == .wait && s1.ldr.stage == 0)
    (fun x => { x with cox := { x.cox with st := .ready, started := false, lead := none, stepping := none } }) s1
  if s.cox.moving then mbxEnd (mbxRes ccBusyInUse 0) s2 else s2

/-- Latency class of a port: 1 ok, 2 tight, 3 fail (R231). -/
def latencyClass (delta : Nat) : Nat :=
  if delta + 8 ≤ Config.linkSlack then 1 else if delta + 2 ≤ Config.linkSlack then 2 else 3

/-- Δ of this package's port `n` as measured. -/
def deltaOf (b : BoardMeas) (n : Nat) : Nat := (b.deltas.getD n 0).toNat

/-- The hop latency of the cox edge of port `n`: 1 plus the larger Δ of the two ports of its direction (R230). -/
def hopOf (b : BoardMeas) (n : Nat) : Nat := 1 + max (deltaOf b n) (deltaOf b (n ^^^ 1))

/-- Step 1 and 2 of R230: Δ, hop and class of each expected port; a port that fails is logged. -/
def measurePort (b : BoardMeas) (s : State) (n : Nat) : State :=
  if portExpected s n then
    let d := deltaOf b n
    let k := latencyClass d
    let s1 := setFld ⟨lnkA n + 0x80, 30, 2⟩ k (setFld ⟨lnkA n + 0x80, 8, 8⟩ (min 0xFF (hopOf b n))
      (setFld ⟨lnkA n + 0x80, 0, 8⟩ d s))
    iff (k == 3) (logEvent evLinkSlackFail (locUnit n 0) d) s1
  else s

/-- This package's own report. -/
def ownReport (b : BoardMeas) (m : Nat) (s : State) : PkgReport :=
  let ps := (List.range 8).filter (portExpected s)
  let worst := ps.foldl (fun w n => max w (deltaOf b n)) 0
  let way := parentWay (shape s).1 (shape s).2 m (position s)
  let h : Header := (header s).getD (headerOf [])
  { position := BitVec.ofNat 4 (position s), imageId := h.imageId, courseLength := h.courseLength, modes := h.modes,
    packageCount := h.packageCount, positions := h.positions, slow := s.fuses.grade == 0x08,
    course := BitVec.ofNat 64 (course s),
    hop := match way with
      | some d => BitVec.ofNat 8 (min 0xFF (hopOf b (2 * d)))
      | none => 0,
    worstDelta := BitVec.ofNat 8 worst, worstPort := BitVec.ofNat 3 ((ps.find? fun n => deltaOf b n == worst).getD 0) }

/-- Every package's report, by rising position. -/
def allReports (b : BoardMeas) (m : Nat) (s : State) : List PkgReport :=
  let rs := ownReport b m s :: b.reports
  (List.range 16).flatMap fun p => rs.filter fun r => r.position.toNat == p

/-- The sum of the hop latencies along the cox path from position `p` to the master (R233). -/
def coxSum (rs : List PkgReport) (c r m : Nat) : Nat → Nat → Nat
  | 0, _ => 0
  | k + 1, p =>
    match parentWay c r m p, rs.find? fun x => x.position.toNat == p with
    | some d, some x => x.hop.toNat + coxSum rs c r m k (boardNeighbour c r p d)
    | _, _ => 0

/-- U and D: 4 plus the largest sum along any package's cox path (R230). -/
def reachOf (rs : List PkgReport) (c r m : Nat) : Nat :=
  4 + rs.foldl (fun w x => max w (coxSum rs c r m 8 x.position.toNat)) 0

/-- The report with the board's worst port. DESIGN CHOICE (notes/assumptions/85.md): of ports alike, that of the lowest
position, and its lowest port. -/
def worstOf (rs : List PkgReport) : Option PkgReport :=
  rs.foldl (fun w x => match w with
    | some y => if y.worstDelta < x.worstDelta then some x else w
    | none => some x) none

/-- A position of the board. -/
def onShape (s : State) (m : Nat) : Bool :=
  match header s with
  | some h => h.positions.getLsbD m
  | none => false

/-- The course master of the board: the one that it has or moves to, or position 0 where its position does not exist
(R234). -/
def masterOf (s : State) : Nat := if onShape s (fld s fBoardMaster) then fld s fBoardMaster else 0

/-- The field in which a report differs from the master's, as its offset in the header; a wrong count of packages is
package_count's (R156). DESIGN CHOICE (notes/assumptions/85.md): the offset stands for the field in the event. -/
def fieldDiffers (m x : PkgReport) (count : Nat) : Option Nat :=
  if x.imageId ≠ m.imageId then some 0x08
  else if x.modes ≠ m.modes then some 0x12
  else if x.packageCount ≠ m.packageCount ∨ m.packageCount.toNat ≠ count then some 0x14
  else if x.positions ≠ m.positions then some 0x16
  else none

/-- Ports that the shape does not use are powered off once the board has formed (R227). -/
def unusedOff (s : State) : State :=
  (List.range 8).foldl (fun x n => if portExpected x n then x else portOff n x) s

/-- Step 6 of R230: COX.WALL is aligned and the board is FORMED (R161, R230, R240, R241). The grant balance, of which every
package keeps the master's figure, is what a new master goes on with (R235). A run taken in FORMING ends in HALTED, its cause
unchanged, where TETHERED meets a stretch (R217). -/
def boardAligned (b : BoardMeas) (m : Nat) (rs : List PkgReport) (reach stretch : Nat) (s : State) : State :=
  let old := fld s fStretch
  let (c, r) := shape s
  let moved := s.cox.moving || s.cox.carried
  let v : Word := match worstOf rs with
    | some w => BitVec.ofNat 32 (w.worstDelta.toNat * 2 ^ 16 + w.position.toNat * 2 ^ 12 + w.worstPort.toNat * 2 ^ 9 + stretch)
    | none => BitVec.ofNat 32 stretch
  let s1 := iff (m != position s) (setWide 0xB0018 b.wall) s
  let s2 := setReg 0xB0084 v (setFld fPackages (rs.length - 1) (setFld fBoardMaster m s1))
  let s3 := setFld fBoardCols c (setFld fBoardRows r (setFlag fIsolated false
    (setFld fBoardRate (if rs.any (·.slow) then 8 else 10) s2)))
  let again := s.cox.formedOnce
  let s5 := logEvent evBoardFormed (locUnit stretch 0) ((c - 1) * 2 ^ 14 + (r - 1) * 2 ^ 12 + reach * 2 ^ 6 + reach)
    { s3 with cox := { s3.cox with board := .formed, formedOnce := true, moving := false, carried := false } }
  let s6 := iff (again && old != stretch) (logEvent evStretchChange locNone stretch) s5
  let s7 := iff (s.cox.mode == .tethered && stretch != 0) (logEvent evTetherStretch locNone stretch) s6
  let s8 := iff moved (logEvent evMasterMoved locNone m) (setDroutes b.droutes (unusedOff s7))
  let s9 := iff s.cox.moving (mbxEnd (mbxRes ccDone 0)) s8
  if s9.cox.st == .wait && stretchBars s9 then enterHalted (fld s9 fHaltCause) true s9 else retryStart s9

/-- The position of the first package in a list of reports, and the detail of the event that it brings. -/
def failsAt (ev : Nat) (rs : List PkgReport) (detail : PkgReport → Nat) (s : State) : Option State :=
  rs.head?.map fun x => boardFails (logEvent ev (locUnit x.position.toNat 0) (detail x) s)

/-- BOARD_FORMED (R230): the steps of the measurement, in order. DESIGN CHOICE (notes/assumptions/92.md): of the checks of
R156 one that fails is logged alone, L's first. -/
def boardFormed (b : BoardMeas) (s : State) : State :=
  let m := masterOf s
  let (c, r) := shape s
  let rs := allReports b m s
  let reach := reachOf rs c r m
  let s1 := (List.range 8).foldl (measurePort b) s
  let s2 := setFld ⟨0xB0060, 8, 8⟩ (reach + 4) (setFld fReachUp reach (setFld fReachDown reach s1))
  let slack := latencyClass (match worstOf rs with
    | some w => w.worstDelta.toNat
    | none => 0)
  let ref := (rs.find? fun x => x.position.toNat == m).getD (ownReport b m s)
  let field := fun x => fieldDiffers ref x rs.length
  if 56 < 2 * reach then boardFails (logEvent evCoxReachFail locNone (2 * reach) s2)
  else if slack = 3 then boardFails s2
  else
    (failsAt evCourseMismatch (rs.filter fun x => x.courseLength != ref.courseLength) (·.courseLength.toNat) s2 <|>
     failsAt evBoardMismatch (rs.filter fun x => (field x).isSome) (fun x => (field x).getD 0) s2 <|>
     failsAt evCourseSplit (rs.filter fun x => x.course != ref.course) (·.position.toNat) s2).getD
      (boardAligned b m rs reach (if slack = 2 then 32 else 0) s2)

/-- The formed board measures again for another package's sake (R229, R235): a MOVE_MASTER given there, which names the new
master, or its LOAD_FULL, by which this package passes FORMING with every port of its own ACTIVE. -/
def remeasure (m : Nat) (s : State) : State :=
  if onShape s m && m != fld s fBoardMaster then
    setFld fBoardMaster m (toMeasuring { s with cox := { s.cox with carried := true } })
  else toMeasuring s

/-- BOARD_FORMED (R229, R230): in MEASURING the measurement ends; in FORMED another begins. -/
def execBoardFormed (b : BoardMeas) (s : State) : Res :=
  if s.cox.board == .measuring then whenever (!inCourse s) s (boardFormed b s)
  else whenever (s.cox.board == .formed && !inCourse s && s.cox.st != .wait) s (remeasure b.master.toNat s)

/-- BOARD_INCOMPLETE (R229): the link timeout; 0 means none. -/
def execBoardIncomplete (s : State) : Res :=
  whenever ((s.cox.board == .forming || s.cox.board == .measuring) && bits (reg s 0xB0088) 0 16 != 0) s
    (logEvent evBoardIncomplete locNone (missingPorts s) { s with cox := { s.cox with board := .incomplete } })

/-! SET_MODE (R204 to R206). -/

/-- The argument word of SET_MODE; none where a reserved bit or code, or an option outside its mode, is set. -/
def modeArg (v : Word) : Option ModeSet :=
  match modeOf (bits v 0 4) with
  | some m =>
    let l := v.getLsbD 4
    let f := v.getLsbD 5
    if bits v 6 26 = 0 ∧ (l = true → m = .comodel) ∧ (f = true → m = .fleet) then
      some { mode := m, lockstep := l, fleetPins := f, course := 0 }
    else none
  | none => none

/-- R206 refuses the target mode. -/
def modeRefused (m : ModeSet) (s : State) : Bool :=
  m.mode != .service &&
    (s.cox.st == .noImage || !(match header s with
      | some h => h.modes.getLsbD m.mode.code
      | none => false) ||
     (m.mode == .tethered && (fld s fStretch != 0 || decide (fld s fThrLevel < 16))))

/-- The mode in force with its options is the one named (R217). -/
def modeSame (m : ModeSet) (s : State) : Bool :=
  m.mode == s.cox.mode && m.lockstep == s.cox.lockstep && m.fleetPins == s.cox.fleetPins

/-- Completion of SET_MODE: bits [31:0] of the course of the boundary. -/
def modeDone (c : Nat) (s : State) : State × MbxRes := (s, mbxRes ccDone (c % 2 ^ 32))

/-- Before release (R205): the mode replaces start_mode; lock-step begins, or one that had begun is left (R207), at
once. -/
def modeBefore (m : ModeSet) (s : State) : State :=
  let s1 := { s with cox := { s.cox with startMode := some m, lockPre := m.lockstep, tether := none } }
  retryStart (iff (m.lockstep || s.cox.lockPre) (setFld fGrantBal 0) s1)

/-- An accepted SET_MODE (R205, R207). -/
def modeAccept (m : ModeSet) (s : State) : State × MbxRes :=
  let c := course s
  if s.ldr.stage = 0 then modeDone c (if m.mode == .service then s else modeBefore m s)
  else if inCourse s then
    let b := haltBefore s (raiseAt s)
    modeDone b (setFld fModeAt b { s with cox := { s.cox with pend := some { m with course := b } } })
  else if m.mode == .service && s.cox.st == .wait then
    let own : HaltReq := { cause := BitVec.ofNat 4 hcCommand, before := c, raised := gOf s }
    modeDone c (enterHalted (causeOfHalts (s.cox.halts ++ [own])) (s.cox.mode == .tethered) (applyMode m s))
  else modeDone c (retryStart (applyMode m s))

/-- SET_MODE. -/
def setMode (v : Word) (s : State) : State × MbxRes :=
  match modeArg v with
  | none => (s, mbxFail ccRefusedMode 0)
  | some m =>
    if s.cox.pend.isSome then (s, mbxFail ccRefusedMode 0)
    else if modeSame m s then modeDone (course s) s
    else if modeRefused m s then (s, mbxFail ccRefusedMode 0)
    else modeAccept m s

/-- SET_MODE (R204). -/
def execSetMode (m : MbxArgs) (s : State) : Res := .next (mbxShort 0x10 m (setMode m.a0) s)

/-! MOVE_MASTER (R235). -/

/-- MOVE_MASTER: it completes at once, or when the board has formed again under the new master. -/
def moveMaster (v : Word) (s : State) : State :=
  let p := bits v 0 4
  let belongs := onShape s p
  if bits v 4 28 ≠ 0 then mbxEnd (mbxFail ccInternal 0x14) s
  else if s.cox.board != .formed || inCourse s || s.cox.st == .wait then mbxEnd (mbxRes ccBusyInUse 0) s
  else if !belongs then mbxEnd (mbxRes ccDeadTarget 0) s
  else if fld s fBoardMaster = p then mbxEnd (mbxRes ccDone 0) s
  else setFld fBoardMaster p (toMeasuring { s with cox := { s.cox with moving := true } })

/-- MOVE_MASTER. -/
def execMoveMaster (m : MbxArgs) (s : State) : Res := .next (mbxWrite 0x11 false false m (moveMaster m.a0) s)

end Sys2Proof.Machine
end

