-- ==== Sys2Proof/Machine/Power.lean ====
section
/-! DEFINITION. Package states, domains and wake (R461 to R487). -/

namespace Sys2Proof.Machine

/-! Dies (R130, R131, R471). -/

/-- Sets the wake latch of a die. -/
def setLatch (d : Nat) (l : List Packet) (s : State) : State := { s with net := { s.net with latch := upd [] s.net.latch d l } }

/-- A register of BP logic or crew wires of die `d` (R45 to R49, R71 to R73). -/
def dieReg (d a : Nat) : Bool := (pavsOfDie d).any fun p => decide (pavA p + 0x200 ≤ a ∧ a < pavA p + 0x310)

/-- A die's domain leaves reset: its registers hold their reset values (R8). -/
def dieReset (d : Nat) (s : State) : State :=
  { s with regs := s.regs.filter fun e => !dieReg d e.1, ctrs := s.ctrs.filter fun e => !dieReg d e.1,
           snaps := s.snaps.filter fun e => !dieReg d e.1 }

/-- A register of the network of die `d` (R132 to R135). -/
def netReg (d a : Nat) : Bool := (pavsOfDie d).any fun p => decide (pavA p + 0x500 ≤ a ∧ a < pavA p + 0x600)

/-- NET[d] leaves reset (R8). -/
def netReset (d : Nat) (s : State) : State :=
  { s with regs := s.regs.filter fun e => !netReg d e.1, ctrs := s.ctrs.filter fun e => !netReg d e.1,
           snaps := s.snaps.filter fun e => !netReg d e.1 }

/-- The domains of a die come on; its ports leave DOWN once the wake latch is empty (R126). -/
def dieOn (d : Nat) (s : State) : State :=
  let bit : BitVec 4 := BitVec.ofNat 4 (2 ^ d)
  let s1 := setFld (fDomDie d) 0 (setFld (fDomStore d) 0 (iff (fld s (fDomDie d) == 3) (dieReset d) s))
  let s2 := { s1 with pwr := { s1.pwr with dieOff := s1.pwr.dieOff &&& ~~~bit },
                      net := { s1.net with fenced := s1.net.fenced &&& ~~~bit } }
  iff ((look [] s.net.latch d).isEmpty) (portsUp d) s2

/-- The pavilions of a die are DEAD, and each request in its wake latch is answered (R126, R130). -/
def diePavsDead (d : Nat) (s : State) : State :=
  let bit : BitVec 4 := BitVec.ofNat 4 (2 ^ d)
  let s1 := { s with pwr := { s.pwr with dieDead := s.pwr.dieDead ||| bit } }
  let s2 := (pavsOfDie d).foldl (fun x p => iff (enabled x p) (setPort p .dead) x) s1
  (look [] s.net.latch d).foldl (fun x pk => replyStatus (pkDstPav pk.head) ccWakeTimeout pk.head x) (setLatch d [] s2)

/-- A die that is woken alone fails to wake: its domains are off and its pavilions DEAD (R130, R471). -/
def dieFails (d : Nat) (s : State) : State := diePavsDead d (setFld (fDomDie d) 3 (setFld (fDomStore d) 3 s))

/-- The die has BPs powered. -/
def dieIsOn (s : State) (d : Nat) : Bool := fld s (fDomDie d) == 0 && fld s (fDomStore d) == 0

/-- Die down (R130). -/
def dieDown (d : Nat) (s : State) : State × MbxRes :=
  if (pavsOfDie d).any fun p => usedPav s p || portState s p == .reconf then (s, mbxRes ccBusyInUse 0)
  else
    let bit : BitVec 4 := BitVec.ofNat 4 (2 ^ d)
    let s1 := (pavsOfDie d).foldl (fun x p => iff (enabled x p) (portDowns p) x)
      { s with net := { s.net with fenced := s.net.fenced ||| bit } }
    let s2 := setFld (fDomDie d) 3 (setFld (fDomStore d) 3 s1)
    ({ s2 with pwr := { s2.pwr with dieOff := s2.pwr.dieOff ||| bit } }, mbxRes ccDone 0)

/-- Die up (R465); refused after a failed clock self-test (R522). -/
def dieUp (d : Nat) (ready : Bool) (s : State) : State × MbxRes :=
  if s.hlt.clocksBad then (s, mbxFail ccInternal 0x17)
  else if dieIsOn s d then (s, mbxRes ccDone 0)
  else if ready then (dieOn d s, mbxRes ccDone 0)
  else (dieFails d s, mbxRes ccWakeTimeout 0)

/-- Port down (R465). -/
def portDown (n : Nat) (s : State) : State × MbxRes :=
  if portExpected s n && s.cox.board != .none then (s, mbxRes ccBusyInUse 0) else (portOff n s, mbxRes ccDone 0)

/-- Port up (R465): the port begins at OFF. -/
def portUp (n : Nat) (s : State) : State × MbxRes :=
  (if fld s (fDomLnk n) = 3 then leaveOff (setFld (fDomLnk n) 0 (lnkReset n s)) n else s, mbxRes ccDone 0)

/-! Entering a package state (R464 to R466). -/

/-- The package state that ARG[0] names. -/
def argState (v : Word) : PkgState :=
  match bits v 4 2 with
  | 0 => .p0 | 1 => .p1 | 2 => .p2 | _ => .p3

/-- ARG[0] obeys R464. -/
def powerArgOk (v : Word) : Bool := decide (bits v 0 3 ≤ 4) && (v &&& 0xFFFC8CC8 == 0)

/-- A package-state operation (R465). -/
def packageState (v : Word) (s : State) : State × MbxRes :=
  let t := argState v
  let e : Entry := { target := t, resume := v.getLsbD 16, tclkWake := v.getLsbD 17 }
  if v.getLsbD 17 && (t != .p2 || s.cox.mode != .tethered) then (s, mbxRes ccRefusedMode 0)
  else if t == s.pwr.st then (s, mbxRes ccDone 0)
  else if t == .p0 then (wakeP1 s, mbxRes ccDone 0)
  else if s.pwr.entry.isSome || s.pwr.entering then (s, mbxRes ccBusyInUse 0)
  else if s.cox.board != .formed && s.cox.board != .none then (s, mbxRes ccBusyInUse 0)
  else
    let s1 := { s with pwr := { s.pwr with entry := some e, resuming := false } }
    if inCourse s then (raiseHalt hcCommand s1, mbxRes ccDone (haltBefore s (raiseAt s) % 2 ^ 32))
    else if s.cox.st == .wait then (haltHereAll hcCommand s1, mbxRes ccDone (course s % 2 ^ 32))
    else (s1, mbxRes ccDone (course s % 2 ^ 32))

/-- A POWER_DOMAIN command with operation `op` (R464). -/
def powerDomain (op : Nat) (m : MbxArgs) (f : State → State × MbxRes) (s : State) : State :=
  if op = bits m.a0 0 3 ∨ (op = 0 ∧ 4 < bits m.a0 0 3) then
    mbxShort 0x13 m (fun x => if powerArgOk m.a0 then f x else (x, mbxFail ccInternal 0x14)) s
  else s

/-- PACKAGE_STATE (R465). -/
def execPackageState (m : MbxArgs) (s : State) : Res := .next (powerDomain 0 m (packageState m.a0) s)
/-- DIE_DOWN (R130). -/
def execDieDown (m : MbxArgs) (s : State) : Res := .next (powerDomain 1 m (dieDown (bits m.a0 8 2)) s)
/-- DIE_UP (R465): `ready` says whether the die is ready within 50 ms. -/
def execDieUp (m : MbxArgs) (ready : Bool) (s : State) : Res := .next (powerDomain 2 m (dieUp (bits m.a0 8 2) ready) s)
/-- PORT_DOWN (R465). -/
def execPortDown (m : MbxArgs) (s : State) : Res := .next (powerDomain 3 m (portDown (bits m.a0 12 3)) s)
/-- PORT_UP (R465). -/
def execPortUp (m : MbxArgs) (s : State) : Res := .next (powerDomain 4 m (portUp (bits m.a0 12 3)) s)

/-- Writes every committed packet to the sink: a flush that completes (R451). -/
def flushAll : Nat → State → State
  | 0, s => s
  | k + 1, s => if s.trc.committed.isEmpty then s else flushAll k (sinkWrite false s)

/-- The target banks are latched as they stand (R475). -/
def latchPads (s : State) : State :=
  let x := takeSample s
  let v := (x.lev &&& ~~~x.float) ||| (Config.freePins s.free &&& x.float)
  setFld fPadLatched 0xFFFF (draw { s with pins := { s.pins with
    padLev := s.pins.drv, padOn := s.pins.drvOn, padUp := s.pins.up, padDn := s.pins.dn, padIn := v } })

/-- The banks of a pavilion that are on. -/
def onBanks (s : State) (p : Nat) : BitVec 64 :=
  BitVec.ofNat 64 ((List.range 64).foldl (fun a b => a + (if bankState s p b = 0 then 2 ^ b else 0)) 0)

/-- On banks go to retention; the others are unchanged (R462). -/
def banksRetain (s : State) : State :=
  let s1 := { s with pwr := { s.pwr with kept := [] } }
  allPavs.foldl (fun x p => if enabled x p then
    (List.range 64).foldl (fun y b => iff (bankState y p b == 0) (setBank p b 1) y)
      { x with pwr := { x.pwr with kept := upd 0 x.pwr.kept p (onBanks x p) } } else x) s1

/-- A port that is on keeps its state in retention in P2; on a board, one that the shape does not use is off (R227,
R462). -/
def portRetain (s : State) (n : Nat) : State :=
  if fld s (fDomLnk n) = 3 then s
  else if (lnkPort s n).st == .sleep || portExpected s n || s.cox.board == .none then setFld (fDomLnk n) 2 s
  else portOff n s

/-- The domains of P2 (R462). -/
def domainsP2 (s : State) : State :=
  let s1 := (List.range 4).foldl (fun x n => iff (fld x (fDomNet n) != 3) (setFld (fDomNet n) 2) x)
    (setDies 2 (banksRetain (setFld fDomDmem 2 s)))
  setFld fDomIod 2 ((List.range 8).foldl portRetain s1)

/-- Registers of AON, which survive P3: PWR but its CFG, SMBUS and SEQ, and the position latch (R463, R478). -/
def aonReg (a : Nat) : Bool :=
  a == 0x100 || (decide (0x20000 ≤ a ∧ a < 0x20040) && a != 0x20018 && a != 0x2001C)

/-- Everything but AON, the fuses, the flash and the target's own levels is lost (R463). -/
def loseState (s : State) : State :=
  let r := State.reset
  let s1 : State :=
    { r with fuses := s.fuses, out := s.out, free := s.free, pending := s.pending, jtag := s.jtag,
             regs := s.regs.filter fun e => aonReg e.1, ctrs := s.ctrs.filter fun e => e.1 == 0x20080,
             wide := s.wide.filter fun e => e.1 == 0x70008, net := { r.net with latch := s.net.latch, sent := s.out.length },
             cox := { r.cox with ticks := s.cox.ticks },
             trc := { r.trc with frac := s.trc.frac, bref := s.trc.bref },
             ldr := { r.ldr with dir0 := s.ldr.dir0, dir1 := s.ldr.dir1, lmsRec := s.ldr.lmsRec },
             hlt := { r.hlt with soft := s.hlt.soft }, hif := { r.hif with d3 := s.hif.d3 },
             pwr := { s.pwr with dieOff := 0, dieDead := 0, smPtr := 0, kept := [], resuming := false, linksOpen := false },
             pins := { r.pins with land := s.pins.land, landOn := s.pins.landOn, padLev := s.pins.padLev,
                                   padOn := s.pins.padOn, padUp := s.pins.padUp, padDn := s.pins.padDn,
                                   padIn := s.pins.padIn } }
  setFld fPackages 0 s1

/-- The domains of P3 (R462). -/
def domainsP3 (s : State) : State := setReg 0x20004 0xFFFFFFFC (setReg 0x20008 0x0000FFFF s)

/-- Steps 2 to 4 of R466, and the wake of a source that was latched (R472). -/
def finishEntry (e : Entry) (s : State) : State :=
  let old := s.pwr.st
  let s1 := logEvent evPkgState locNone (old.code * 4 + e.target.code) s
  let s2 := keeperDown s1
  let s3 := flushAll (s2.trc.committed.length + 1) s2
  let s4 := latchPads (if e.target == .p3 then pinsOff s3 else s3)
  let s5 := if e.target == .p3 then domainsP3 (loseState s4) else domainsP2 s4
  let s6 := setFld fPwrPrev old.code (iff (e.target == .p2) (setFlag fPwrResume e.resume) s5)
  let s7 := { s6 with pwr := { s6.pwr with st := e.target, entry := none, entering := false, tclkWake := e.tclkWake,
                                           boot := if e.target == .p3 then .supply else s6.pwr.boot, asleep := true } }
  match s.pwr.latched with
  | some src => if wakesFrom s7 src.toNat then beginWake src.toNat true s7
      else { s7 with pwr := { s7.pwr with latched := none } }
  | none => s7

/-- No port still waits for its far end's SLEEP_ACK (R466). -/
def linksAsleep (s : State) : Bool := (List.range 8).all fun n => (lnkPort s n).st != .active

/-- Entry begins at its boundary (R466): P1 at once; for P2 and P3 the links first. -/
def startEntry (e : Entry) (s : State) : State :=
  if e.target == .p1 then
    setPkg .p1 0 (setDies 1 { s with pwr := { s.pwr with entry := none } })
  else
    let s1 := { s with pwr := { s.pwr with entering := true } }
    let s2 := (List.range 8).foldl (fun x n => if e.target == .p2 then sleepOp n x else portOff n x) s1
    if linksAsleep s2 then finishEntry e s2 else s2

/-- POWER_ENTRY (R466): at the entry boundary, and again once the links are asleep. -/
def execPowerEntry (s : State) : Res :=
  match s.pwr.entry with
  | none => .next s
  | some e =>
    if s.pwr.entering then whenever (linksAsleep s) s (finishEntry e s)
    else whenever (!(inCourse s || s.cox.st == .wait)) s (startEntry e s)

/-! Wake (R470 to R474). -/

/-- PCIE_WAKE (R467). -/
def execPcieWake (s : State) : Res := .next (packageWake 2 s)

/-- DAXAIR_WAKE (R266, R467): clock-lane activity on a port in SLEEP. -/
def execDaxairWake (n : DPort) (s : State) : Res :=
  whenever ((lnkPort s n.toNat).st == .sleep) s (portWakes n.toNat s)

/-- A bank that the entry to P2 put in retention, and that is still there (R462). -/
def bankKept (s : State) (p b : Nat) : Bool := enabled s p && (look 0 s.pwr.kept p).getLsbD b && bankState s p b == 1

/-- Banks of a die that the wake is to turn on. -/
def retained (s : State) (d : Nat) : Bool :=
  (pavsOfDie d).any fun p => (List.range 64).any fun b => bankKept s p b

/-- The banks of a die that the entry to P2 put in retention take a state. -/
def setKept (d st : Nat) (s : State) : State :=
  (pavsOfDie d).foldl (fun x p => (List.range 64).foldl (fun y b => iff (bankKept y p b) (setBank p b st) y) x) s

/-- Step `k` of PWR.SEQ is skipped: its domain is on, or held off (R470). -/
def stepSkipped (s : State) (k : Nat) : Bool :=
  let d := k % 4
  match k / 4 with
  | 0 => fld s (fDomStore d) == 0 || s.pwr.dieOff.getLsbD d
  | 1 => fld s (fDomDie d) == 0 || s.pwr.dieOff.getLsbD d
  | 2 => fld s (fDomNet d) == 0
  | _ => !retained s d

/-- Step `k` of PWR.SEQ turns its domain on. -/
def stepOn (k : Nat) (s : State) : State :=
  let d := k % 4
  match k / 4 with
  | 0 => setFld (fDomStore d) 0 s
  | 1 => setFld (fDomDie d) 0 (iff (fld s (fDomDie d) == 3) (dieReset d) s)
  | 2 => setFld (fDomNet d) 0 (iff (fld s (fDomNet d) == 3) (netReset d) s)
  | _ => setKept d 0 s

/-- The step that comes next: 0 IOD and PCIE, 1 to 16 PWR.SEQ, 17 DMEM, 18 the links. -/
def nextStep (s : State) (n : Nat) : Nat :=
  if n = 0 then 0
  else match (List.range (17 - min n 17)).find? fun i => !stepSkipped s (n - 1 + i) with
    | some i => n + i
    | none => max n 17

/-- The next LMS leaf: the greater of the flash record and 512 × the fuses blown (R356, R392). -/
def startLeaf (next : Nat) (s : State) : State :=
  let n := max next (512 * s.fuses.lms)
  setReg 0x40054 (if n < 32768 then BitVec.ofNat 32 n else 0x80008000) s

/-- IOD is ready (R469, R470): the SMBus transaction goes on, and the Keeper wakes; from P3 the boot
begins, with a nonce drawn anew (R357). -/
def iodReady (p3 : Bool) (s : State) : State :=
  let s1 := setFld fDomIod 0 (setFld fDomPcie 0 s)
  let s2 := iff s1.pwr.sclHeld (fun x => emit (.scl false) { x with pwr := { x.pwr with sclHeld := false } }) s1
  let s3 := if p3 then
      draw (setWide 0x40044 (Config.freeNonce s2.free) { startLeaf 0 s2 with pwr := { s2.pwr with boot := .selfTest, asleep := false } })
    else keeperUp s2
  iff s3.pwr.lateLog (fun x => logEvent evSmbusWakeLate locNone 0 { x with pwr := { x.pwr with lateLog := false } }) s3

/-- The links wake: a port in SLEEP sends WAKE blocks and goes to LOCK, and any other that was in retention goes on where it stood; one that
was powered off for want of a SLEEP_ACK counts as lost (R463, R466, R470). -/
def wakeLink (s : State) (n : Nat) : State :=
  let x := lnkPort s n
  if x.st == .sleep then setFld (fDomLnk n) 0 (wakeOp n s)
  else if x.st == .off && x.sleeping then
    leaveOff (boardLoses n .off (setFld (fDomLnk n) 0 (lnkReset n s))) n
  else if fld s (fDomLnk n) = 2 then setFld (fDomLnk n) 0 s
  else s

/-- The package is awake (R470, R473): after P2 in P1, or with resume = 1 in P0; after P3 in P0. -/
def awake (src us : Nat) (p3 : Bool) (s : State) : State :=
  let s1 := setFld fWakeUs (min us 0xFFFFFFFF) { s with pwr := { s.pwr with waking := none, lost := false } }
  if p3 then
    let s2 := setReg 0x20008 0 s1
    setPkg .p0 src { s2 with pwr := { s2.pwr with st := .p3 } }
  else if flag s fPwrResume then
    setPkg .p0 src { s1 with pwr := { s1.pwr with resuming := true } }
  else setPkg .p1 src (setDies 1 s1)

/-- One step of the wake order, which took `us` microseconds (R470). -/
def wakeStep (src us total n : Nat) (p3 : Bool) (s : State) : State :=
  let k := nextStep s n
  let t := total + us
  let go := fun (m : Nat) (x : State) =>
    { x with pwr := { x.pwr with waking := some (BitVec.ofNat 4 src, m, t, p3) } }
  if k = 0 then go 1 (iodReady p3 s)
  else if k ≤ 16 then go (k + 1) (stepOn (k - 1) s)
  else if k = 17 then go 18 (setFld fDomDmem 0 s)
  else awake src t p3 ((List.range 8).foldl wakeLink s)

/-- A die that a packet in its wake latch wakes (R471). -/
def latchWaits (s : State) : Option Nat :=
  (List.range 4).find? fun d => !(look [] s.net.latch d).isEmpty && !dieIsOn s d

/-- WAKE_STEP (R470): the next step of a package wake, or of a die woken on demand (R471). -/
def execWakeStep (us : BitVec 32) (s : State) : Res :=
  match s.pwr.waking with
  | some (src, n, total, p3) => .next (wakeStep src.toNat us.toNat total n p3 s)
  | none =>
    match latchWaits s with
    | some d => .next (dieOn d s)
    | none => .next s

/-- The domain of a step that is not ready goes off; the pavilions of a failed DIE, STORE or NET domain are DEAD
(R474). -/
def stepFails (k : Nat) (s : State) : State :=
  let d := (k - 1) % 4
  if k = 0 then setFld fDomIod 3 s
  else if k ≤ 4 then diePavsDead d (setFld (fDomStore d) 3 s)
  else if k ≤ 8 then diePavsDead d (setFld (fDomDie d) 3 s)
  else if k ≤ 12 then diePavsDead d (setFld (fDomNet d) 3 s)
  else if k ≤ 16 then setKept d 2 s
  else setFld fDomDmem 3 s

/-- WAKE_FAIL (R474): the domain in `k` of the wake order is named by its step. -/
def execWakeFail (s : State) : Res :=
  match s.pwr.waking with
  | some (src, n, total, _) =>
    let k := nextStep s n
    let s1 := logEvent evWakeFail (locUnit k 0) k (stepFails k s)
    let s2 := setFlag fPwrFailed true (setFld fWakeUs (min total 0xFFFFFFFF) s1)
    .next (setPkg .p1 src.toNat { s2 with pwr := { s2.pwr with waking := none, faultPin := true } })
  | none =>
    match latchWaits s with
    | some d => .next (dieFails d s)
    | none => .next s

/-- RESUME_AFTER_WAKE (R473): the run that an entry with resume = 1 asked for. -/
def execResumeAfterWake (s : State) : Res :=
  whenever (s.pwr.resuming && startable s) s (startLead none s)

/-- PAD_RELEASE (R475): the banks named return to the design. -/
def padRelease (v : Word) (s : State) : State :=
  retryStart (setFld fPadLatched (fld s fPadLatched &&& (0xFFFF - bits v 0 16)) s)

/-- PAD_RELEASE. -/
def execPadRelease (v : Word) (s : State) : Res := whenever (hostUp s) s (padRelease v s)

/-- RETENTION_RAIL_LOSS (R477): in P2 the retained state is lost with any rail but VDD_AON. -/
def execRetentionRailLoss (rail : BitVec 3) (s : State) : Res :=
  forUnit (decide (rail.toNat < 6))
    (whenever (s.pwr.st == .p2 && rail != 4) s
      (let s1 := loseState s
       { s1 with pwr := { s1.pwr with lost := true, boot := .supply } }))

end Sys2Proof.Machine
end

