-- ==== Sys2Proof/Machine/View.lean ====
section
/-! DEFINITION. What a read of each register returns: the stored value with the fields that the machine computes laid
over it. A read here has no side effect; those stand in Machine/Access.lean. -/

namespace Sys2Proof.Machine

/-! State codes. -/

def CoxState.code : CoxState → Nat
  | .noImage => 0 | .ready => 1 | .run => 2 | .easy => 3 | .wait => 4 | .halted => 5
def BoardState.code : BoardState → Nat
  | .none => 0 | .forming => 1 | .measuring => 2 | .formed => 3 | .incomplete => 4 | .failed => 5
def NetState.code : NetState → Nat
  | .live => 0 | .dead => 1 | .reconf => 2 | .down => 3
def ChState.code : ChState → Nat
  | .disabled => 0 | .active => 1 | .draining => 2 | .error => 3

def TrgState.code : TrgState → Nat
  | .idle => 0 | .arming => 1 | .armed => 2 | .fired => 3 | .done => 4
def PodState.code : PodState → Nat
  | .off => 0 | .check => 1 | .on => 2 | .podFault => 3

/-- A word with fields laid over: (low bit, width, value). -/
def laid (v : Word) (fs : List (Nat × Nat × Nat)) : Word := fs.foldl (fun a f => put a f.1 f.2.1 f.2.2) v

/-- Word `i` of two of a 64-bit value. -/
def half (v : BitVec 64) (i : Nat) : Word := if i % 2 = 0 then v.extractLsb' 0 32 else v.extractLsb' 32 32

/-- Word `i` of a configuration word. -/
def cfgHalf (s : State) (k i : Nat) : Word := half (BitVec.ofNat 64 (cfgData s k)) i

/-! GLB, HLT, SEC and CFG. -/

/-- Channel and port that CH_SEL and PORT_SEL select. -/
def chSel (s : State) : Nat := bits (reg s 0xA0000) 0 13
def portSel (s : State) : Nat := bits (reg s 0x90008) 0 12

/-- GLB.STATUS (R534). -/
def viewStatus (s : State) : Word :=
  laid (reg s 0x10) [(31, 1, s.pwr.replacePin.toNat), (30, 1, s.pwr.faultPin.toNat),
    (29, 1, (fld s fAlert &&& fld s fAlertEn != 0).toNat)]

/-- GLB.PART (R161). -/
def viewPart (s : State) : Word :=
  laid (reg s 0x100) [(24, 8, s.fuses.partPavs.toNat), (16, 8, s.fuses.grade.toNat), (12, 4, s.fuses.stepping.toNat)]

/-- GLB.ENABLED[i] (R162). -/
def viewEnabled (s : State) (i : Nat) : Word :=
  BitVec.ofNat 32 ((List.range 32).foldl (fun a j => a + (enabled s (32 * i + j)).toNat * 2 ^ j) 0)

/-- GLB.IMAGE_ID (R163). -/
def viewImageId (s : State) (i : Nat) : Word :=
  match header s with
  | some h => half h.imageId i
  | none => 0

/-- GLB.MODE (R218). DESIGN CHOICE (notes/assumptions/92.md): a SET_MODE accepted before release is not pending. -/
def viewMode (s : State) : Word :=
  let pend := match s.cox.pend with
    | some m => [(31, 1, 1), (21, 1, m.fleetPins.toNat), (20, 1, m.lockstep.toNat), (16, 4, m.mode.code)]
    | none => []
  laid 0 (pend ++ [(5, 1, s.cox.fleetPins.toNat), (4, 1, s.cox.lockstep.toNat), (0, 4, s.cox.mode.code)])

/-- GLB.MODE_AT (R219). -/
def viewModeAt (s : State) : Word :=
  match s.cox.pend with
  | some m => BitVec.ofNat 32 m.course
  | none => reg s 0x304

/-- A word of GLB.EVLOG (R535): word 0 as it stands, words 1 to 3 as snapshotted. -/
def viewEvlog (s : State) (o : Nat) : Word :=
  if o / 4 % 4 = 0 then (look 0 s.evlog (o / 16)).extractLsb' 0 32 else look 0 s.snaps (0x1000 + o)

/-- MBX.STATUS (R309). -/
def viewMbx (s : State) : Word :=
  laid (reg s 0x10004) ([(31, 1, s.hif.busy.toNat), (30, 1, s.hif.long.toNat)] ++
    if s.hif.busy then [(0, 8, ccMbxBusy)] else [])

/-- Spare crews of the enabled pavilions (R541); 0 until the Keeper has applied the repairs. -/
def viewSpares (s : State) : Word :=
  if s.hlt.applied then
    let ps := allPavs.filter (enabled s)
    let sp := fun p => reg s (pavA p + 0x310)
    let used := (ps.filter fun p => (sp p).getLsbD 31).length
    let free := (ps.filter fun p => !(sp p).getLsbD 31 && !(sp p).getLsbD 30).length
    let gone := (allPavs.filter fun p => s.fuses.retired.contains p || s.hlt.retired.contains p).length
    laid 0 [(16, 8, gone), (8, 8, used), (0, 8, free)]
  else 0

/-- SEC.KEY_SLOT[k] (R389). -/
def viewKey (s : State) (k : Nat) : Word :=
  laid 0 [(31, 1, (s.fuses.keyUse.getLsbD k).toNat), (30, 1, (s.fuses.keyRev.getLsbD k).toNat),
    (29, 1, (s.fuses.keyVote.getLsbD k).toNat), (28, 1, (decide (6 ≤ k)).toNat)]

/-- SEC.TOKEN (R390). -/
def viewToken (s : State) : Word :=
  match s.ldr.token with
  | some r => laid 0 [(31, 1, 1), (0, 2, r.toNat)]
  | none => 0

/-- CFG.STATUS (R382). -/
def viewCfgStatus (s : State) : Word :=
  let job := match s.ldr.job with
    | some j => [(12, 4, j.op.toNat), (10, 2, j.object.toNat), (9, 1, (j.store && s.ldr.passB).toNat),
        (8, 1, s.ldr.passB.toNat), (0, 6, j.region.toNat)]
    | none => []
  laid (reg s 0x50000) ((24, 8, s.ldr.st.code) :: job)

/-- CFG.RELEASE (R385). -/
def viewRelease (s : State) : Word :=
  let ver := match image s with
    | some i => i.man.version.toNat
    | none => 0
  laid 0 [(30, 2, s.ldr.stage), (28, 2, s.ldr.target), (27, 1, s.ldr.auto.toNat), (0, 8, ver)]

/-- CFG.REGION[r] (R386): a region with no partial image shows the stages of the base image that declares it. -/
def viewRegion (s : State) (r : Nat) : Word :=
  let g := match find s.ldr.regions r with
    | some g => [(30, 2, g.stage), (28, 2, g.target), (27, 1, g.partial_.toNat), (26, 1, g.dead.toNat), (0, 8, g.version.toNat)]
    | none => if declared s r then [(30, 2, s.ldr.stage), (28, 2, s.ldr.target)] else []
  laid 0 ((25, 1, (rollbackFinds s r).toNat) :: g)

/-! DSP and HIF. -/

/-- Messages of a port and instance that stand in staging. -/
def stagedOf (s : State) (k : Nat) : List Nat := look [] s.dsp.staged k

/-- Entries of the matching store in use (R331). -/
def storeUsed (s : State) : Nat := (s.dsp.msgs.filter fun m => m.replay.isNone).length

/-- Messages of a port in the matching store (R343). -/
def inStore (s : State) (p : Nat) : Nat := (s.dsp.msgs.filter fun m => m.port.toNat == p && m.replay.isNone).length

/-- DSP.PORT_BIND of the selected port (R342). -/
def viewBind (s : State) : Word :=
  match find s.dsp.bind (portSel s) with
  | some c => laid 0 [(31, 1, 1), (0, 13, c.toNat)]
  | none => laid 0 [(0, 13, (look 0 s.dsp.unbound (portSel s)).toNat)]

/-- DSP.PORT_STATE (R343). -/
def viewPort (s : State) : Word :=
  let p := portSel s
  laid 0 [(31, 1, (find s.dsp.bind p).isSome.toNat), (24, 4, niCredits s (piKey p 0)),
    (20, 4, if fleet s then niCredits s (piKey p 1) else 0), (18, 2, (stagedOf s (piKey p 0)).length),
    (16, 2, (stagedOf s (piKey p 1)).length), (0, 7, inStore s p)]

/-- Length of ready list `k` (R344). -/
def readyLen (s : State) (k : Nat) : Nat :=
  (match k with | 0 => s.dsp.readyT | 1 => s.dsp.readyB | _ => s.dsp.readyG).length

/-- HIF.CH_BUDGET of a channel as last written (R6, R285). -/
def budgetWritten (s : State) (c : Nat) : Nat :=
  match (s.hif.budNext.filter fun e => e.1.toNat == c).getLast? with
  | some e => e.2.toNat
  | none => (look 0 s.hif.budget c).toNat

/-- CHN[c].STATE (R322). -/
def viewChan (s : State) (c : Nat) : Word :=
  let x := chan s c
  laid 0 [(28, 4, x.st.code), (24, 4, x.err.toNat), (23, 1, (bpCq s c).toNat), (22, 1, (bpTags s c).toNat),
    (21, 1, x.bpD.toNat), (0, 16, x.sqHead.toNat)]

/-- CHN[c].CAUSE (R323). -/
def viewCause (s : State) (c : Nat) : Word := if bpCq s c || bpTags s c || (chan s c).bpD then BitVec.ofNat 32 ccQueueFull else 0

/-! COX. -/

/-- COX.STATUS (R96). easy_open reads 0 as soon as the open request's figure is known, before the resume (DESIGN CHOICE,
notes/assumptions/82.md). -/
def viewCox (s : State) : Word :=
  let opn := s.cox.st == .easy && (match stopAt s (gOf s) with | some r => r.opn && r.figure.isNone | none => false)
  laid (reg s 0xB0004) [(28, 4, s.cox.st.code), (23, 1, (isMaster s).toNat), (22, 1, opn.toNat)]

/-- COX.BOARD (R243). -/
def viewBoard (s : State) : Word :=
  laid (reg s 0xB0080) [(28, 4, s.cox.board.code), (8, 8, if fld s fBoardRate = 0 then s.fuses.grade.toNat else fld s fBoardRate)]

/-! PAV. -/

/-- A PAV register of an enabled pavilion, by its offset (R545). -/
def viewPav (s : State) (p o : Nat) : Word :=
  if o = 0x500 then
    laid 0 ((28, 4, (portState s p).code) :: match gatewayOf p with
      | some g => [(27, 1, 1), (24, 3, g)]
      | none => [])
  else if 0x8000 ≤ o ∧ o < 0xA000 then half (sroute s p ((o - 0x8000) / 8)) (o / 4)
  else if 0xA000 ≤ o ∧ o < 0xA400 then droute s p ((o - 0xA000) / 4)
  else if 0xB000 ≤ o ∧ o < 0xD000 then (if (gatewayOf p).isSome then ingress s p ((o - 0xB000) / 4) &&& 0xFFFFF000 else 0)
  else if 0xD000 ≤ o ∧ o < 0xE000 then
    let w := o - 0xD000
    BitVec.ofNat 32 ((List.range 4).foldl (fun a i => a + mapByte s.cfg p (w / 4 * 4 + i) * 256 ^ i) 0)
  else if 0xE000 ≤ o ∧ o < 0xE200 then half (BitVec.ofNat 64 (descriptor s p ((o - 0xE000) / 8))) (o / 4)
  else if 0xF000 ≤ o then cfgHalf s (cfgKey (frameKey 6 p 0 0 0) ((o - 0xF000) / 8)) (o / 4)
  else reg s (pavA p + o)

/-! The whole map. -/

/-- The fields of PWR.DOM_B of the ports in SLEEP, whose domain stands in retention (R461). -/
def sleepingPorts (s : State) : List (Nat × Nat × Nat) :=
  ((List.range 8).filter fun n => (lnkPort s n).st == .sleep && fld s (fDomLnk n) != 3).map fun n => (2 * n, 2, 2)

/-- An occupancy register: what is in use now, and the most since the last read, the use at the read included (R317,
R344). -/
def viewPeak (s : State) (a now : Nat) : Word :=
  let n := min now 0x7FFF
  laid (reg s a) [(0, 15, n), (16, 15, max (bits (reg s a) 16 15) n)]

/-- Word of a pending-bit array (R283, R284): PF0's at HIF + 0xF000, a VF's in its BAR0 at 0x8000. -/
def viewPending (s : State) (a : Nat) : Option Word :=
  if inRow a 0xAF000 4 33 then some ((s.hif.msix >>> (8 * (a - 0xAF000))).setWidth 32)
  else if 0x50010000 ≤ a ∧ a < 0x50200000 ∧ a % 0x10000 = 0x8000 then
    some ((s.hif.msix >>> msixIndex ((a - 0x50000000) / 0x10000) 0).setWidth 32)
  else none

/-- The registers with computed fields outside the LNK, PAV and channel blocks. -/
def viewGlobal (s : State) (a : Nat) : Word :=
  if a = 0x10 then viewStatus s
  else if a = 0x100 then viewPart s
  else if inRow a 0x104 4 4 then viewEnabled s ((a - 0x104) / 4)
  else if a = 0x114 ∨ a = 0x118 then viewImageId s ((a - 0x114) / 4)
  else if a = 0x300 then viewMode s
  else if a = 0x304 then viewModeAt s
  else if a = 0x400 then laid (reg s a) [(31, 1, s.winLow.isSome.toNat)]
  else if 0x1000 ≤ a ∧ a < 0x2000 then viewEvlog s (a - 0x1000)
  else if a = 0x10004 then viewMbx s
  else if a = 0x20000 then laid (reg s a) [(30, 2, s.pwr.st.code), (23, 1, s.pwr.entering.toNat),
    (19, 1, (s.pwr.entry.isSome && !s.pwr.entering).toNat)]
  else if a = 0x20008 then laid (reg s a) (sleepingPorts s)
  else if a = 0x2001C then laid (reg s a) [(0, 7, 0x40 + position s)]
  else if inRow a 0x20030 4 4 then BitVec.ofNat 32 (look [] s.net.latch ((a - 0x20030) / 4)).length
  else if inRow a 0x30400 4 128 then laid (reg s a) [(16, 16, s.fuses.procRef.toNat)]
  else if a = 0x30610 then viewSpares s
  else if a = 0x40000 then laid 0 [(16, 6, s.fuses.fwFloor.toNat), (8, 6, s.fuses.shFloor.toNat), (0, 6, s.fuses.dsFloor.toNat)]
  else if inRow a 0x40010 4 8 then viewKey s ((a - 0x40010) / 4)
  else if a = 0x40040 then viewToken s
  else if a = 0x50000 then viewCfgStatus s
  else if a = 0x50020 then viewRelease s
  else if inRow a 0x50100 4 64 then viewRegion s ((a - 0x50100) / 4)
  else if a = 0x60050 then laid (reg s a) [(28, 4, s.scb.st.code), (21, 5, s.scb.queue.length)]
  else if a = 0x70004 then laid (reg s a) [(28, 1, (decide (4 ≤ s.trc.hostQ.length)).toNat), (27, 1, s.pwr.asleep.toNat)]
  else if a = 0x80004 then laid (reg s a) [(28, 4, s.trg.st.code), (25, 3, s.trg.seq), (0, 17, maxDepth s)]
  else if a = 0x9000C then viewBind s
  else if a = 0x90010 then viewPort s
  else if a = 0x90014 then viewPeak s a (storeUsed s)
  else if inRow a 0x90020 4 3 then viewPeak s a (readyLen s ((a - 0x90020) / 4))
  else if a = 0xA0004 then ownOf s (chSel s)
  else if a = 0xA0008 then BitVec.ofNat 32 (budgetWritten s (chSel s))
  else if a = 0xA000C then laid (reg s a) [(16, 16, 4 * s.cox.length)]
  else if a = 0xA0010 then viewPeak s a (tagsInUse s)
  else if a = 0xB0004 then viewCox s
  else if a = 0xB0008 then (match s.cox.stepping with | some n => BitVec.ofNat 32 n | none => reg s a)
  else if a = 0xB000C then laid 0 [(16, 11, s.cox.length), (0, 10, s.cox.stroke)]
  else if a = 0xB0054 then laid (reg s a) [(31, 1, s.cox.throttle.isSome.toNat)]
  else if a = 0xB0058 then (if s.cox.st == .easy then laid (reg s a) [(0, 18, min 0x3FFFF s.cox.easyK)] else reg s a)
  else if a = 0xB0080 then viewBoard s
  else if a = 0xC0004 then laid (reg s a) [(30, 1, (s.cox.mode == .tethered).toNat)]
  else if inRow a 0x200000 4 16 then
    let b := (a - 0x200000) / 4
    let v := expectedVolt s b
    laid (reg s a) ([(28, 4, (podState s b).code), (20, 4, v)] ++ if v = 0 then [(18, 1, 0)] else [])
  else (viewPending s a).getD (reg s a)

/-- What a 32-bit read of the register at a key returns, without its side effects. A reserved address reads 0, and so
do a LNK block whose domain is off and the PAV block of a pavilion that is not enabled (R543). -/
def view (s : State) (a : Nat) : Word :=
  if isCtr a then BitVec.ofNat 32 (ctr s a % 2 ^ 32)
  else if 4 ≤ a ∧ isCtr (a - 4) then
    laid 0 [(31, 1, ((look 0 s.ctrs (a - 4)).getLsbD 48).toNat), (0, 16, (look 0 s.snaps a).toNat)]
  else if a = 0x4004C then half s.fuses.deviceId 0
  else if isWide a then half (wideReg s a) 0
  else if a = 0x40050 ∨ (4 ≤ a ∧ isWide (a - 4)) then look 0 s.snaps a
  else match lnkOf a, pavOf a, chnOf a with
  | some (n, o), _, _ =>
    if o = 4 then laid (reg s a) [(28, 4, (lnkPort s n).st.code)]
    else if o = 0x108 then laid (reg s a) [(0, 17, (prbsSynced s n).toNat)]
    else reg s a
  | _, some (p, o), _ => viewPav s p o
  | _, _, some (c, o) => if o = 0x24 then viewChan s c else if o = 0x28 then viewCause s c else reg s a
  | _, _, _ => viewGlobal s a

/-- A register block answers at all: a LNK block whose domain is off and the PAV block of a pavilion that is not
enabled read 0 and ignore writes (R543). -/
def answers (s : State) (a : Nat) : Bool :=
  match lnkOf a, pavOf a with
  | some (n, _), _ => fld s (fDomLnk n) != 3
  | _, some (p, _) => enabled s p
  | _, _ => true

/-- A read of BAR0 without its side effects. -/
def readReg (s : State) (a : Nat) : Word := if answers s a then view s a else 0

end Sys2Proof.Machine
end

