-- ==== Sys2Proof/Machine/Access.lean ====
section
/-! DEFINITION. Register accesses from outside (R4 to R7, R283, R532, R535, R543 to R549): which register an address
names for a host function, the side effects of a read, plain writes, and the bank-memory window. Writes with further
effects stand in Machine/HostWrite.lean. -/

namespace Sys2Proof.Machine

/-! The bank-memory window (R546, R547). -/

/-- The pavilion and codeword that a window offset names. -/
def windowCw (s : State) (off : Nat) : Nat × Nat := (32 * fld s fBankPage + off / 524288 % 32, off % 524288 / 8)

/-- The memory behind a window offset is there: SERVICE, the pavilion enabled, the bank on. -/
def windowOpen (s : State) (off : Nat) : Bool :=
  let (p, i) := windowCw s off
  s.cox.mode == .service && enabled s p && bankState s p (i / 1024) == 0

/-- A write to the window. -/
def windowWrite (off : Nat) (v : Word) (s : State) : State :=
  let (p, i) := windowCw s off
  let k := bankKey p i
  if !windowOpen s off then { s with winLow := none }
  else if off / 4 % 2 = 0 then { s with winLow := some (k, v) }
  else match s.winLow with
    | some (k', lo) => iff (k' == k) (writeFree k (v ++ lo)) { s with winLow := none }
    | none => s

/-- A read through the window. -/
def windowRead (off : Nat) (s : State) : Word × State :=
  let (p, i) := windowCw s off
  if !windowOpen s off then (0, s)
  else
    let (e, s1) := bankRead p i 3 s
    (if e.cls == .bad then 0xFFFFFFFF else half (BitVec.ofNat 64 e.data) (off / 4), s1)

/-! Reads. -/

/-- The bits of the bytes that the byte enables select. -/
def byteMask (be : BitVec 4) : Word :=
  BitVec.ofNat 32 ((List.range 4).foldl (fun a i => a + (be.getLsbD i).toNat * 0xFF * 256 ^ i) 0)

/-- The snapshot that a read of a low word takes (R532, R535, R99). -/
def snapshot (a : Nat) (s : State) : State :=
  let put' := fun (k : Nat) (v : Word) (x : State) => { x with snaps := upd 0 x.snaps k v }
  if isCtr a then put' (a + 4) (BitVec.ofNat 32 (ctr s a / 2 ^ 32)) s
  else if a = 0x4004C then put' (a + 4) (half s.fuses.deviceId 1) s
  else if isWide a then put' (a + 4) (half (wideReg s a) 1) s
  else if 0x1000 ≤ a ∧ a < 0x2000 ∧ a % 16 = 0 then
    let e := look 0 s.evlog ((a - 0x1000) / 16)
    [1, 2, 3].foldl (fun x i => put' (a + 4 * i) (e.extractLsb' (32 * i) 32) x) s
  else s

/-- A peak counts from its read on: what is in use at the read is in use since (R317, R344). -/
def rebasePeak (a : Nat) (s : State) : State :=
  let from_ := fun n => setFld ⟨a, 16, 15⟩ (min n 0x7FFF) s
  if a = 0x90014 then from_ (storeUsed s)
  else if inRow a 0x90020 4 3 then from_ (readyLen s ((a - 0x90020) / 4))
  else if a = 0xA0010 then from_ (tagsInUse s)
  else s

/-- RC fields of which a read returns a byte clear as a whole (R4, R6). -/
def readClears (a : Nat) (m : Word) (s : State) : State :=
  if rcMask a &&& m == 0 then s else rebasePeak a (setReg a (reg s a &&& ~~~rcMask a) s)

/-- The side effects of a read of the register at a key. -/
def readEffects (a : Nat) (be : BitVec 4) (s : State) : State :=
  if be == 0 || !answers s a then s else readClears a (byteMask be) (snapshot a s)

/-- A read of the register at a key: its side effects, and the bytes returned. -/
def readKey (a : Nat) (be : BitVec 4) (s : State) : State :=
  emit (.readData (readReg s a &&& byteMask be)) (readEffects a be s)

/-- A 32-bit word of BAR4 (R549): the capture record, then the on-chip trace ring. -/
def readBar4 (s : State) (o : Nat) : Word :=
  if o < 0x80000 then half (recordWord s (o / 8)) (o / 4)
  else if o < 0x90000 then half (look 0 s.trc.ring ((o - 0x80000) / 8)) (o / 4)
  else 0

/-- The channel whose page a function sees at a page number of its BAR2 (R283). -/
def chanAt (s : State) (fn pg : Nat) : Option Nat :=
  if fn = 0 then (if assigned s pg && fnOf s pg == 0 then some pg else none)
  else if 256 ≤ pg then none
  else (knownChans s).find? fun c => assigned s c && fnOf s c == fn && pageOf s c == pg

/-- The register key that an address of a BAR names; none past the end of BAR0, and where the page shows no channel
(R283). -/
def keyOf (s : State) (bar : Bar) (addr : Nat) : Option Nat :=
  match bar with
  | .bar0 => if addr < 0x4000000 then some (addr / 4 * 4) else none
  | .vf0 fn => if fn = 0 then none else some (0x50000000 + 0x10000 * fn.toNat + addr % 0x10000 / 4 * 4)
  | .bar2 fn => (chanAt s fn.toNat (addr / 0x1000)).map fun c => chnA c + addr % 0x1000 / 4 * 4
  | .bar4 => none

/-- An access of PF0's BAR0 to a PAV register goes as a REG_RD or REG_WR packet, unless the router serves the register
itself (R544). -/
def asPacket (s : State) (a : Nat) : Option Nat :=
  match pavOf a with
  | some (p, o) => if enabled s p && !(0x500 ≤ o && o < 0x600) && !(0x8000 ≤ o && o < 0xE000) then some p else none
  | none => none

/-- An access answered with a code by the network (R544). -/
def accessFails (p code : Nat) (s : State) : State := logEvent evRegAccessFail (locPav p 0) code s

/-- A DOWN die is woken for a host access, and its wake latch replays the packets that came before (R130). -/
def wakeFor (d : Nat) (s : State) : State :=
  let s1 := dieOn d s
  (look [] s1.net.latch d).foldl (fun x _ => replayLatch d x) s1

/-- An access to a PAV register: served by a LIVE pavilion, that of a DOWN die once it is woken. A DEAD pavilion answers with
a code, and so does the hold of a RECONF router on the way (R127, R128, R131, R471, R544). `ok` performs the access and
`bad` answers it. -/
def pavAccess (p : Nat) (ok bad : State → State) (s : State) : State :=
  if routeReconf s p then bad (accessFails p ccRouteBusy s)
  else
    let s1 := iff (portState s p == .down) (wakeFor (dieOf p)) s
    if portState s1 p == .dead then bad (accessFails p ccDeadTarget s1) else ok s1

/-- A host read of a register. -/
def readAccess (bar : Bar) (addr : Word) (be : BitVec 4) (s : State) : State :=
  match bar, keyOf s bar addr.toNat with
  | .bar4, _ => emit (.readData (readBar4 s addr.toNat &&& byteMask be)) s
  | .bar0, some a =>
    if 0x1000000 ≤ a ∧ a < 0x2000000 then
      let (v, x) := windowRead (a - 0x1000000) s
      emit (.readData (v &&& byteMask be)) x
    else
      (match asPacket s a with
       | some p => pavAccess p (readKey a be) (emit (.readData (byteMask be))) s
       | none => readKey a be s)
  | _, some a => readKey a be s
  | _, none => emit (.readData 0) s

/-- READ_CLEAR (R6): a read of a register, after which its RC fields are clear. -/
def execReadClear (bar : Bar) (addr : Word) (be : BitVec 4) (s : State) : Res :=
  whenever (hostUp s) s (readAccess bar addr be s)

/-- SNAPSHOT_READ (R532, R535): a read of a low word, which snapshots the high words. -/
def execSnapshotRead (bar : Bar) (addr : Word) (be : BitVec 4) (s : State) : Res :=
  whenever (hostUp s) s (readAccess bar addr be s)

/-! Plain writes. -/

/-- A write of a 48-bit counter's low or high word (R532). -/
def writeCtr (a : Nat) (v : Word) (s : State) : State :=
  if isCtr a then
    if v = 0 then { s with ctrs := upd 0 s.ctrs a (put (look 0 s.ctrs a) 0 32 0) } else s
  else if v = 0x80000000 then
    { s with ctrs := upd 0 s.ctrs (a - 4) (put (look 0 s.ctrs (a - 4)) 32 17 0), snaps := upd 0 s.snaps a 0 }
  else s

/-- A word of a counter. -/
def ctrWord (a : Nat) : Bool := isCtr a || (decide (4 ≤ a) && isCtr (a - 4))

/-- A register that is writable only in some state: MBX.ARG while MBX is idle (R305), STEP_COUNT outside a step (R97),
the bases of the record, replay and density rings while their ring is disabled, also by its size (R346, R347, R425), the ring
bases and sizes of a DISABLED channel (R320). -/
def writable (s : State) (a : Nat) : Bool :=
  let sizeIn := fun (s : State) (r lo hi : Nat) => decide (lo ≤ bits (reg s r) 0 5 ∧ bits (reg s r) 0 5 ≤ hi)
  if inRow a 0x10010 4 8 then !s.hif.busy
  else if a = 0xB0008 then s.cox.stepping.isNone
  else if a = 0x80034 ∨ a = 0x80038 then !((reg s 0x80030).getLsbD 31 && sizeIn s 0x80030 8 16)
  else if a = 0x90030 ∨ a = 0x90034 then !((reg s 0x90038).getLsbD 31 && sizeIn s 0x90038 10 20)
  else if a = 0x90050 ∨ a = 0x90054 then !((reg s 0x90058).getLsbD 31 && sizeIn s 0x90058 10 20)
  else match chnOf a with
    | some (c, o) => !(0x10 ≤ o && o < 0x20) || (chan s c).st == .disabled
    | none => true

/-- A plain write: counters clear, a valid bit written 1 empties its record, RW fields are set and W1C bits written 1
are cleared (R5, R6). -/
def writePlain (a : Nat) (v : Word) (s : State) : State :=
  if ctrWord a then writeCtr a v s
  else if !writable s a then s
  else if validGroup a != [] then iff (v.getLsbD 31) (fun x => (validGroup a).foldl (fun y k => setReg k 0 y) x) s
  else if rwMask a == 0 && w1cMask a == 0 then s
  else setReg a ((reg s a &&& ~~~rwMask a &&& ~~~(w1cMask a &&& v)) ||| (v &&& rwMask a)) s

/-- COUNTER_CLEAR (R532): the write that clears a word of a 48-bit counter, 0x8000_0000 to a high word or 0 to a low
word. -/
def execCounterClear (addr : Word) (s : State) : Res :=
  let a := addr.toNat
  let clear := fun x => writeCtr a (if isCtr a then 0 else 0x80000000) x
  whenever (hostUp s && ctrWord a && answers s a) s
    (match asPacket s a with
     | some p => pavAccess p clear id s
     | none => clear s)

/-- A write of GLB.EVLOG_PTR with clear = 1 (R535). -/
def clearLog (s : State) : State := setReg 0x20 0 { s with evlog := [], evIn := 0 }

/-- EVLOG_CLEAR. -/
def execEvlogClear (s : State) : Res := whenever (hostUp s) s (clearLog s)

/-- A write of PAV[p].SCHED_INJECT (R49). -/
def writeInject (p : Nat) (v : Word) (s : State) : State := writePlain (pavA p + 0x214) v s

/-- SCHED_INJECT (R49). -/
def execSchedInject (p : Pav) (v : Word) (s : State) : Res :=
  whenever (hostUp s && enabled s p.toNat) s (pavAccess p.toNat (writeInject p.toNat v) id s)

/-! The window's commands. -/

/-- BANK_WINDOW_WRITE (R546). -/
def execBankWindowWrite (off : BitVec 24) (v : Word) (s : State) : Res := whenever (hostUp s) s (windowWrite off.toNat v s)

/-- BANK_WINDOW_READ (R546). -/
def execBankWindowRead (off : BitVec 24) (s : State) : Res := 
  let (v, x) := windowRead off.toNat s
  whenever (hostUp s) s (emit (.readData v) x)

/-- A write of GLB.BANK_PAGE (R547). -/
def writeBankPage (v : Word) (s : State) : State := { writePlain 0x400 v s with winLow := none }

/-- BANK_PAGE. -/
def execBankPage (v : Word) (s : State) : Res := whenever (hostUp s) s (writeBankPage v s)

end Sys2Proof.Machine
end

