-- ==== Sys2Proof/Machine/Serve.lean ====
section
/-! DEFINITION. What the local port and the I/O die do with the packets that reach them (R122, R125, R127, R179,
R191, R332): the services of VN1 and VN3, and the responses of VN2. -/

namespace Sys2Proof.Machine

/-- The packet that a pavilion serves next on a virtual network. -/
def nextPacket (s : State) (p vn : Nat) : Option Packet :=
  (look [] s.net.inbox p).find? fun pk => pk.vn.toNat == vn

/-- Removes a packet from a pavilion's inbox. -/
def takeInbox (p : Nat) (pk : Packet) (s : State) : State :=
  { s with net := { s.net with inbox := upd [] s.net.inbox p ((look [] s.net.inbox p).erase pk) } }

/-- A pavilion serves its next packet if it has the opcode: a packet marked bad is discarded and answered `INTERNAL`
(R122). The NI of a fenced die completes the transfers it has begun, those of the packets delivered to it (R130). -/
def serve (p op vn : Nat) (f : Packet → State → State) (s : State) : State :=
  match nextPacket s p vn with
  | some pk =>
    if pkOpcode pk.head ≠ op then s
    else if pk.bad then replyStatus p ccInternal pk.head (takeInbox p pk s)
    else f pk (takeInbox p pk s)
  | none => s

/-! Bank memory (R179, R191, R302). -/

/-- Reads `n` codewords from `i` up; the code of the first that fails stops it. -/
def readCws (p : Nat) : Nat → Nat → State → List (BitVec 64) × Option Nat × State
  | 0, _, s => ([], none, s)
  | n + 1, i, s =>
    match bankRefuses s p i with
    | some c => ([], some c, s)
    | none =>
      let (e, s1) := bankRead p i 3 s
      if e.cls == .bad then ([], some ccUePoison, s1)
      else
        let (ws, c, s2) := readCws p n (i + 1) s1
        (BitVec.ofNat 64 e.data :: ws, c, s2)

/-- BANK_RD at a pavilion. -/
def bankRdService (p : Nat) (pk : Packet) (s : State) : State :=
  match readCws p (pkCount pk.head) (pkAddr pk.head) s with
  | (_, some c, s1) => replyStatus p c pk.head s1
  | (ws, none, s1) => reply p 8 0 ws pk.head s1

/-- The bank of the BANK_RD or BANK_WR that a pavilion serves next has no cycle free for it (R176). -/
def bankBusy (s : State) (p : Nat) : Bool :=
  (nextPacket s p 1).any fun pk => (packetBank pk).any fun b => !bankGrants s p b (packetRank s pk)

/-- A packet's access takes a bank cycle (R176). -/
def packetCycle (p : Nat) (pk : Packet) (s : State) : State :=
  takeFor p (pkAddr pk.head / 1024) (packetRank s pk) s

/-- BANK_RD_REQUEST (R125): served once its bank has a free cycle. -/
def execBankRdRequest (p : Pav) (s : State) : Res :=
  whenever (!bankBusy s p.toNat) s
    (serve p.toNat 1 1 (fun pk x => bankRdService p.toNat pk (packetCycle p.toNat pk x)) s)

/-- BANK_WR at a pavilion. -/
def bankWrService (p : Nat) (pk : Packet) (s : State) : State :=
  match hostWrite p pk.data (pkAddr pk.head) s with
  | (_, some c, s1) => replyStatus p c pk.head s1
  | (_, none, s1) => reply p 9 0 [] pk.head s1

/-- The BANK_WR that a pavilion serves next waits for a free cycle (R192). -/
def wrWaits (s : State) (p : Nat) (same : Bool) : Bool :=
  (nextPacket s p 1).any fun pk => pkOpcode pk.head == 2 && hostWaits s p pk.data.length (pkAddr pk.head) same

/-- BANK_WR_REQUEST (R125): held at the NI during Easy (R86), for a scheduled write of its codeword (R192), and until its
bank has a free cycle (R176). -/
def execBankWrRequest (p : Pav) (same : Bool) (s : State) : Res :=
  whenever (s.cox.st != .easy && !wrWaits s p.toNat same && !bankBusy s p.toNat) s
    (serve p.toNat 2 1 (fun pk x => bankWrService p.toNat pk (packetCycle p.toNat pk x)) s)

/-! Registers (R125, R544). -/

/-- The register that a packet names: a word index within the PAV block. -/
def pkReg (p : Nat) (pk : Packet) : Nat := pavA p + 4 * (pkAddr pk.head % 16384)

/-- REG_RD at a pavilion. -/
def regRdService (p : Nat) (pk : Packet) (s : State) : State :=
  let a := pkReg p pk
  reply p 8 0 [(readReg s a).setWidth 64] pk.head (readEffects a 15 s)

/-- REG_RD (R125). -/
def execRegRd (p : Pav) (s : State) : Res := .next (serve p.toNat 3 1 (regRdService p.toNat) s)

/-- REG_WR at a pavilion. -/
def regWrService (p : Nat) (pk : Packet) (s : State) : State :=
  reply p 9 0 [] pk.head (writePlain (pkReg p pk) ((pk.data.headD 0).setWidth 32) s)

/-- REG_WR (R125). -/
def execRegWr (p : Pav) (s : State) : Res := .next (serve p.toNat 4 1 (regWrService p.toNat) s)

/-! Messages (R332). -/

/-- The message that an engine has sent and whose answer has not come: the engine is the packet's tag. -/
def sentBy (s : State) (e : Nat) : Option Msg :=
  (look [] s.dsp.engines e).findSome? fun o => (msgOf s o).filter fun m => m.stage == 2

/-- The first decision of a port and instance that waits for a message has one (R333). -/
def settleWait (k : Nat) : List Decision → List Decision
  | [] => []
  | d :: ds =>
    if piKey d.port.toNat d.inst.toNat = k ∧ d.wait ∧ !d.land then { d with land := true } :: ds
    else d :: settleWait k ds

/-- Stages a message beside its port: a free credit is spent at the NI (R330, R332). -/
def stageMsg (m : Msg) (s : State) : State :=
  let k := msgKey m
  let s1 := setMsg { m with stage := 3 } s
  setCredits k (niCredits s1 k - 1)
    { s1 with dsp := { s1.dsp with decided := settleWait k s1.dsp.decided,
                                   staged := upd [] s1.dsp.staged k (look [] s1.dsp.staged k ++ [m.order]) } }

/-- DELIVER at a pavilion: it stages the message of the engine that sent it. -/
def deliverService (p : Nat) (pk : Packet) (s : State) : State :=
  match (if pkSrcPos pk.head = position s ∧ pkSrcIo pk.head then sentBy s (pkTag pk.head) else none) with
  | some m =>
    if m.port.toNat = pkAddr pk.head then reply p 9 0 [] pk.head (stageMsg m s)
    else replyStatus p ccPortClosed pk.head s
  | none => replyStatus p ccPortClosed pk.head s

/-- DELIVER (R332). -/
def execDeliver (p : Pav) (s : State) : Res := .next (serve p.toNat 5 1 (deliverService p.toNat) s)

/-! Responses (R122, R125). -/

/-- The VN2 packet that a requester takes next. -/
def nextReply (s : State) (io : Bool) (p : Nat) : Option Packet :=
  if io then s.net.ioIn.find? fun pk => pk.vn == 2 else nextPacket s p 2

/-- Takes a response from where it waits. -/
def takeReply (io : Bool) (p : Nat) (pk : Packet) (s : State) : State :=
  if io then { s with net := { s.net with ioIn := s.net.ioIn.erase pk } } else takeInbox p pk s

/-- An engine is free again for its next slot (R332). -/
def freeEngine (e : Nat) (s : State) : State :=
  let os := (look [] s.dsp.engines e).filter fun o => match msgOf s o with
    | some m => m.stage == 1
    | none => false
  { s with dsp := { s.dsp with engines := upd [] s.dsp.engines e os } }

/-- The message of an engine whose DELIVER was answered with a code other than an acknowledgement ends with it. -/
def engineFails (e code detail : Nat) (s : State) : State :=
  match (look [] s.dsp.engines e).findSome? fun o => (msgOf s o).filter fun m => m.stage != 1 with
  | some m => cancelMsg code detail s m
  | none => s

/-- A response completes its requester's tag (R125): the I/O die's tags 0 to 63 are its message engines. -/
def respond (op : Nat) (io : Bool) (p : Nat) (s : State) : State :=
  match nextReply s io p with
  | some pk =>
    if pkOpcode pk.head ≠ op then s
    else
      let s1 := takeReply io p pk s
      let code := if pk.bad then ccInternal else if op = 0xA then pkAddr pk.head % 256 else ccDone
      let detail := if code = ccInternal then 1 else 0
      let tag := pkTag pk.head
      let data := if pk.bad then [] else pk.data
      let s2 := emit (.tagDone io (BitVec.ofNat 7 p) (BitVec.ofNat 10 tag) (BitVec.ofNat 8 code) data)
        (iff (!io) (setOwed p (look 0 s1.net.owed p - 1)) s1)
      if io && decide (tag < 64) then freeEngine tag (iff (code != ccDone) (engineFails tag code detail) s2) else s2
  | none => s

/-- RESP_DATA (R125). -/
def execRespData (io : Bool) (p : Pav) (s : State) : Res := .next (respond 8 io p.toNat s)
/-- RESP_ACK (R125). -/
def execRespAck (io : Bool) (p : Pav) (s : State) : Res := .next (respond 9 io p.toNat s)
/-- RESP_STATUS (R125). -/
def execRespStatus (io : Bool) (p : Pav) (s : State) : Res := .next (respond 0xA io p.toNat s)

/-! Configuration and management (R125, R127, R128). -/

/-- Writes a configuration word of a frame: a type 3 frame of a RECONF pavilion goes to the shadow maps (R373). -/
def writeCfgWord (k : Nat) (shadow : Bool) (d : BitVec 64) (s : State) : State :=
  if shadow then { s with shadow := upd 0 s.shadow k (encode72 d) } else setCfg k d s

/-- CFG_WR at a pavilion: `addr` and `word` name the first configuration word. They come as operands of the command, since
R125 gives the head's 16-bit address field no meaning for CFG_WR and CFG_RD (DESIGN CHOICE, notes/assumptions/82.md). -/
def cfgWrService (p : Nat) (addr : BitVec 32) (word : Nat) (pk : Packet) (s : State) : State :=
  if framePav addr ≠ p then replyStatus p ccOutOfRegion pk.head s
  else
    let sh := frameType addr == 3 && portState s p == .reconf
    let s1 := (pk.data.zipIdx).foldl (fun x e =>
      if word + e.2 < 512 then writeCfgWord (cfgKey (addr.toNat / 128) (word + e.2)) sh e.1 x else x) s
    reply p 9 0 [] pk.head s1

/-- CFG_WR (R125). -/
def execCfgWr (p : Pav) (addr : BitVec 32) (word : BitVec 9) (s : State) : Res :=
  .next (serve p.toNat 0xC 3 (cfgWrService p.toNat addr word.toNat) s)

/-- CFG_RD at a pavilion: `n` + 1 words from `word` up. -/
def cfgRdService (p : Nat) (addr : BitVec 32) (word n : Nat) (pk : Packet) (s : State) : State :=
  if framePav addr ≠ p then replyStatus p ccOutOfRegion pk.head s
  else
    let ws := (List.range (n + 1)).map fun i =>
      if word + i < 512 then BitVec.ofNat 64 (cfgData s (cfgKey (addr.toNat / 128) (word + i))) else 0
    reply p 8 0 ws pk.head s

/-- CFG_RD (R125). -/
def execCfgRd (p : Pav) (addr : BitVec 32) (word : BitVec 9) (n : BitVec 2) (s : State) : Res :=
  .next (serve p.toNat 0xD 3 (cfgRdService p.toNat addr word.toNat n.toNat) s)

/-- The I/O die takes its oldest MGMT packet and acknowledges it (R125): a credit of this package's NI enters the matching
store (R330); a landing has completed its message already (R333). -/
def takeNotice (s : State) : State :=
  match s.net.ioIn.find? fun pk => pk.vn == 3 with
  | some pk =>
    let s1 := ioAnswer 9 0 pk.head { s with net := { s.net with ioIn := s.net.ioIn.erase pk } }
    let d := pk.data.headD 0
    let k := piKey (bits d 0 12) (bits d 12 1)
    iff (noticeOf s (fun _ => true) pk && d.getLsbD 13) (setUnclaimed k (unclaimed s1 k + 1)) s1
  | none => s

/-- MGMT (R125). -/
def execMgmt (s : State) : Res := .next (takeNotice s)

end Sys2Proof.Machine
end

