-- ==== Sys2Proof/Machine/Channels.lean ====
section
/-! DEFINITION. Host channels (R283 to R303, R313 to R323): registers, fetching in the order of the service classes,
the checks of an entry, memory operations, messages entering the matching store, aborts and completions. -/

namespace Sys2Proof.Machine

/-! A submission entry (R288). -/

def enTag (e : BitVec 512) : BitVec 16 := e.extractLsb' 0 16
def enOp (e : BitVec 512) : Nat := bits e 16 8
def enIrq (e : BitVec 512) : Bool := e.getLsbD 24
def enInst (e : BitVec 512) : BitVec 1 := e.extractLsb' 25 1
def enFrag (e : BitVec 512) : BitVec 2 := e.extractLsb' 26 2
def enFrags (e : BitVec 512) : BitVec 2 := e.extractLsb' 28 2
def enUnit (e : BitVec 512) : Nat := bits e 32 16
def enLen (e : BitVec 512) : Nat := bits e 48 16
def enDev (e : BitVec 512) : Nat := bits e 64 64
def enHost (e : BitVec 512) : BitVec 64 := e.extractLsb' 128 64
/-- The payload bytes of a SEND_MSG. -/
def enBytes (e : BitVec 512) : List (BitVec 8) := (List.range (min (enLen e) 32)).map fun i => e.extractLsb' (256 + 8 * i) 8

/-- Codeword bytes of a memory operation: 8 in bank memory, 32 in deep memory (R289). -/
def enWord (e : BitVec 512) : Nat := if enOp e = 2 ∨ enOp e = 3 then 8 else 32
/-- The entry is a memory operation. -/
def enMem (e : BitVec 512) : Bool := decide (2 ≤ enOp e ∧ enOp e ≤ 5)
/-- The entry writes device memory. -/
def enWrites (e : BitVec 512) : Bool := enOp e == 3 || enOp e == 5
/-- A write that is not a whole number of codewords (R290). -/
def enNarrow (e : BitVec 512) : Bool := enWrites e && enLen e % enWord e != 0

/-- Bits that must be 0 for the entry's opcode are 0 (R288). -/
def enZeros (e : BitVec 512) : Bool :=
  let z := fun (lo w : Nat) => bits e lo w == 0
  z 30 2 && z 192 64 &&
    (if enOp e = 0 then z 25 5 && z 32 160 && z 256 256
     else if enOp e = 1 then
       decide (enUnit e < 4096) && z 64 128 && z (256 + 8 * min (enLen e) 32) (256 - 8 * min (enLen e) 32)
     else z 25 5 && z 256 256 && decide (enUnit e < if enWord e = 8 then 128 else 4))

/-! Registers of a channel (R285, R286). -/

/-- Function `fn` sees the page of channel `c` (R283). -/
def ownsPage (s : State) (fn c : Nat) : Bool := assigned s c && fnOf s c == fn

/-- Sets a register of a channel page. -/
def setChn (c off : Nat) (v : Word) (s : State) : State := setReg (chnA c + off) v s

/-- A write of SQ_TAIL. -/
def writeSqTail (c v : Nat) (s : State) : State := setChn c 0 (BitVec.ofNat 32 (v % 65536 % sqSize s c)) s
/-- A write of CQ_HEAD. -/
def writeCqHead (c v : Nat) (s : State) : State := setChn c 4 (BitVec.ofNat 32 (v % 65536 % cqSize s c)) s

/-- SQ_TAIL (R287). -/
def execSqTail (c : Chan) (fn : Fn) (v : BitVec 16) (s : State) : Res :=
  whenever (hostUp s && ownsPage s fn.toNat c.toNat) s (writeSqTail c.toNat v.toNat s)

/-- CQ_HEAD (R291). -/
def execCqHead (c : Chan) (fn : Fn) (v : BitVec 16) (s : State) : Res :=
  whenever (hostUp s && ownsPage s fn.toNat c.toNat) s (writeCqHead c.toNat v.toNat s)

/-- The configuration with which a channel starts obeys R286. -/
def cfgOk (s : State) (c : Nat) (v : Word) : Bool :=
  let k := fun lo => decide (4 ≤ bits v lo 5 ∧ bits v lo 5 ≤ 16)
  let vectors := if fnOf s c = 0 then 1056 else 32
  k 24 && k 16 && decide (bits v 0 11 < vectors) && bits (chnReg s c 0x10) 0 12 == 0 && bits (chnReg s c 0x18) 0 12 == 0

/-- A write of CFG with enable = 1 (R286, R321, R322): a DISABLED channel starts, or goes to ERROR; in ERROR the write has
no effect; in any other state the fields take the values written and the channel goes on (notes/assumptions/17.md). -/
def enableChannel (c : Nat) (v : Word) (s : State) : State :=
  match (chan s c).st with
  | .disabled =>
    let s1 := setChn c 0x20 (v &&& 0x9F1F07FF) s
    if cfgOk s c v then setChan c { ChanSt.off with st := .active } (setChn c 0 0 (setChn c 4 0 s1))
    else setChan c { chan s1 c with st := .error, err := 3 } s1
  | .error => s
  | _ => setChn c 0x20 (v &&& 0x9F1F07FF) s

/-- A write of CFG with enable = 0 (R303, R322). -/
def disableChannel (c : Nat) (v : Word) (s : State) : State :=
  match (chan s c).st with
  | .disabled => setChn c 0x20 (v &&& 0x1F1F07FF) s
  | .error => chanOff c (setChn c 0x20 (v &&& 0x1F1F07FF) s)
  | _ =>
    let s1 := setChn c 0x20 (v &&& 0x1F1F07FF) s
    drained c (setChan c { chan s1 c with st := .draining, bpD := false } s1)

/-- A write of CHN[c].CFG. -/
def writeChnCfg (c : Nat) (v : Word) (s : State) : State :=
  if v.getLsbD 31 then enableChannel c v s else disableChannel c v s

/-- CHANNEL_ENABLE (R286): a write of CFG with enable = 1. -/
def execChannelEnable (c : Chan) (fn : Fn) (v : Word) (s : State) : Res :=
  whenever (hostUp s && ownsPage s fn.toNat c.toNat) s (enableChannel c.toNat v s)

/-- CHANNEL_DISABLE (R303): CFG.enable is written 0, the other fields as they stand. -/
def execChannelDisable (c : Chan) (fn : Fn) (s : State) : Res :=
  whenever (hostUp s && ownsPage s fn.toNat c.toNat) s (disableChannel c.toNat (chnReg s c.toNat 0x20) s)

/-- A write of CH_OWN that R285 ignores: the channel is not DISABLED, another channel of the VF names the page, or a
VF would get the MANAGEMENT class. -/
def ownRefused (s : State) (c : Nat) (v : Word) : Bool :=
  let fn := bits v 26 5
  let vf := v.getLsbD 31 && fn != 0
  (chan s c).st != .disabled || (vf && bits v 24 2 == 3) ||
    (vf && (knownChans s).any fun k => k != c && assigned s k && fnOf s k == fn && pageOf s k == bits v 8 8)

/-- A write of HIF.CH_OWN (R285, R314). -/
def writeOwn (v : Word) (s : State) : State :=
  let c := chSel s
  if ownRefused s c v then setFlag ⟨0xA0000, 31, 1⟩ true s
  else { s with hif := { s.hif with owner := upd 0 s.hif.owner c (v &&& 0xFFF0FF00) } }

/-- CH_OWN (R285). -/
def execChOwn (v : Word) (s : State) : Res := whenever (hostUp s) s (writeOwn v s)

/-- A write of HIF.CH_BUDGET (R285): from the next course boundary on, or at once outside a course. -/
def writeBudget (v : Word) (s : State) : State :=
  let c := chSel s
  let b : BitVec 13 := v.setWidth 13
  if inCourse s then { s with hif := { s.hif with budNext := s.hif.budNext ++ [(BitVec.ofNat 13 c, b)] } }
  else { s with hif := { s.hif with budget := upd 0 s.hif.budget c b } }

/-- CH_BUDGET (R285). -/
def execChBudget (v : Word) (s : State) : Res := whenever (hostUp s) s (writeBudget v s)

/-! Fetching (R287, R294, R295). -/

/-- The channel has an entry that the VX4 may fetch, bp_dispatch apart; one whose BANK_WR is held during Easy waits
(notes/assumptions/18.md). -/
def mayFetch (s : State) (c : Nat) : Bool :=
  let x := chan s c
  x.st == .active && assigned s c && !s.hif.d3.getLsbD (fnOf s c) && x.sqHead.toNat != sqTail s c && !bpCq s c && !bpTags s c &&
    !s.hif.parked.any fun w => w.chan.toNat == c

/-- Channels of a class with fetchable work; one that waits for dispatch room has none. -/
def working (s : State) (cls : Nat) : List Nat :=
  (knownChans s).filter fun c => classOf s c == cls && mayFetch s c && !(chan s c).bpD

/-- Turns in a row of a channel: *w* + 1 for a BULK channel (R295). -/
def turnsOf (s : State) (c : Nat) : Nat := if classOf s c = 1 then bits (ownOf s c) 20 4 + 1 else 1

/-- It is the turn of channel `c` among those of its class: the one served last keeps its turns; otherwise the next
higher channel with work, or the lowest. -/
def hasTurn (s : State) (c : Nat) : Bool :=
  let cs := working s (classOf s c)
  let (last, n) := look (8192, 0) s.hif.turns (classOf s c)
  let next := match cs.filter fun x => decide (last < x) with
    | [] => cs.head?
    | x :: _ => some x
  if cs.contains last && decide (n < turnsOf s last) then c == last
  else match next with
    | some x => c == x || !cs.contains c
    | none => true

/-- Prefetch slots filled, or promised to TIMED messages still on their ready list (R332, R336). -/
def slotsTaken (s : State) : Nat := (s.dsp.engines.map fun e => e.2.length).sum + s.dsp.readyT.length

/-- A TIMED message waits for a prefetch slot (R336). -/
def slotWaits (s : State) : Bool := decide (128 < slotsTaken s)

/-- The classes are served in their order (R295): TIMED, MANAGEMENT, BULK, BACKGROUND. -/
def classTurn (s : State) (c : Nat) : Bool :=
  let none_ := fun k => (working s k).isEmpty
  match classOf s c with
  | 0 => true
  | 3 => none_ 0 && hasTurn s c
  | 1 => none_ 0 && none_ 3 && hasTurn s c
  | _ => none_ 0 && none_ 3 && none_ 1 && !slotWaits s && hasTurn s c

/-- The submission head moves on and the turn is counted. -/
def takeEntry (c : Nat) (s : State) : State :=
  let x := chan s c
  let (last, n) := look (8192, 0) s.hif.turns (classOf s c)
  let t := if last = c ∧ n < turnsOf s c then n + 1 else 1
  let s1 := setChan c { x with sqHead := BitVec.ofNat 16 ((x.sqHead.toNat + 1) % sqSize s c), bpD := false } s
  { s1 with hif := { s1.hif with turns := ins s1.hif.turns (classOf s c) (c, t) } }

/-- Data-plane channels answer `NOT_RUNNING` (R295): in SERVICE, and from the start of a LOAD_FULL to the first release
stage. -/
def dataStopped (s : State) : Bool :=
  s.cox.mode == .service || s.ldr.stage == 0 || (match s.ldr.job with
    | some j => !j.regional && (j.op == 1 || j.op == 3 || j.op == 4)
    | none => false)

/-- Completes the entry just fetched. -/
def endEntry (c : Nat) (f : FetchIn) (status detail hostBytes devWords : Nat) (s : State) : State :=
  complete c
    { entryOf (enTag f.entry) status detail (chan s c).sqHead f.waitUs (enIrq f.entry) with
      hostBytes := BitVec.ofNat 32 hostBytes, devWords := BitVec.ofNat 32 devWords } s

/-! Checks (R290). -/

/-- The message of which the entry is a further fragment: same channel and tag, not complete. -/
def furtherOf (s : State) (c : Nat) (e : BitVec 512) : Option Msg :=
  if enOp e = 1 then
    s.dsp.msgs.find? fun m => m.chan.toNat == c && m.replay.isNone && m.tag == enTag e &&
      decide (m.got.length ≤ m.frags.toNat)
  else none

/-- The tag is in flight (R287); one whose message a failing fragment has ended may begin a new message (R290). -/
def tagBusy (s : State) (c : Nat) (e : BitVec 512) : Bool :=
  (s.dsp.msgs.any fun m => m.chan.toNat == c && m.replay.isNone && m.tag == enTag e) ||
    (s.hif.parked.any fun w => w.chan.toNat == c && w.done.tag == enTag e) || (chan s c).held.any fun x => x.final && !x.abortF && x.tag == enTag e &&
      !(enOp e == 1 && x.restarts)

/-- The opcode is not allowed in the class (R289). -/
def classRefused (s : State) (c : Nat) (e : BitVec 512) : Bool :=
  let k := classOf s c
  (enOp e == 1 && (k == 3 || (k == 0 && enFrags e != 0))) || (enMem e && k == 0)

/-- The length is wrong (R288): a narrow write is not (R290). -/
def lengthBad (e : BitVec 512) : Bool :=
  if enOp e = 1 then !decide (1 ≤ enLen e ∧ enLen e ≤ 32)
  else enMem e && !enNarrow e && !(decide (8 ≤ enLen e ∧ enLen e ≤ 4096) && enLen e % enWord e == 0)

/-- The fragment fields are inconsistent (R290). -/
def fragsBad (s : State) (c : Nat) (e : BitVec 512) : Bool :=
  enOp e == 1 && (decide (enFrags e < enFrag e) || (match furtherOf s c e with
    | some m => m.port.toNat != enUnit e || m.frags != enFrags e || m.inst != enInst e || m.got.any fun g => g.1 == enFrag e
    | none => false))

/-- The lowest detail of `BAD_ENTRY` that applies (R290). -/
def entryFault (s : State) (c : Nat) (e : BitVec 512) : Option Nat :=
  if 5 < enOp e then some 1
  else if !enZeros e then some 2
  else if classRefused s c e then some 3
  else if lengthBad e then some 4
  else if enMem e && enHost e % 64 != 0 then some 5
  else if tagBusy s c e && (furtherOf s c e).isNone then some 6
  else if fragsBad s c e then some 7
  else if enOp e == 1 && enInst e == 1 && !fleet s then some 8
  else none

/-- The entry of the command named by its opcode; a reserved opcode comes with NOP_ENTRY. -/
def entryIs (op : Nat) (e : BitVec 512) : Bool := enOp e == op || (op == 0 && decide (5 < enOp e))

/-- A failing entry (R290): a further fragment ends its whole message. -/
def badEntry (c : Nat) (f : FetchIn) (detail : Nat) (s : State) : State :=
  match furtherOf s c f.entry with
  | some m => breakMsg detail s m
  | none => endEntry c f ccBadEntry detail 0 0 s

/-- Updates the peaks of DSP.MATCH and DSP.READY (R344). -/
def notePeaks (s : State) : State :=
  let up := fun (a n : Nat) (x : State) => let g : Fld := ⟨a, 16, 15⟩; setFld g (max (fld x g) (min n 0x7FFF)) x
  (List.range 3).foldl (fun x k => up (0x90020 + 4 * k) (readyLen x k) x) (up 0x90014 (storeUsed s) s)

/-- What is still to come of a message whose first fragment is the entry. -/
def restOfEntry (e : BitVec 512) : Rest :=
  { port := BitVec.ofNat 12 (enUnit e), inst := enInst e, frags := enFrags e, seen := [enFrag e] }

/-- The ended message of which the entry is a further fragment, to be discarded (R292). An entry that carries other
fields, or an index that has come, begins a new message (DEDUCED, notes/assumptions/92.md). -/
def restFound (s : State) (c : Nat) (e : BitVec 512) : Option Rest :=
  if enOp e == 1 && (furtherOf s c e).isNone then
    (find s.dsp.dropped (tagKey c (enTag e))).filter fun r =>
      r.port.toNat == enUnit e && r.inst == enInst e && r.frags == enFrags e && decide (enFrag e ≤ r.frags) &&
        !r.seen.contains (enFrag e)
  else none

/-- One entry of channel `c` is fetched and performed by `act` (R287). -/
def fetchEntry (c op : Nat) (f : FetchIn) (act : State → State) (s : State) : State :=
  if f.bus = 1 then
    logEvent evHostDmaErr (locUnit c 0) 1 (chanError c 1 s)
  else if !entryIs op f.entry then s
  else
    let s1 := takeEntry c s
    let s2 :=
      if classOf s c ≠ 3 ∧ dataStopped s then
        iff (enOp f.entry == 1) (dropRest c (enTag f.entry) (restOfEntry f.entry)) (endEntry c f ccNotRunning 1 0 0 s1)
      else match entryFault s c f.entry with
        | some d => badEntry c f d s1
        | none => act s1
    notePeaks (noteTags s2)

/-- The channel can be served now. -/
def canServe (s : State) (c : Nat) : Bool := hostUp s && mayFetch s c && classTurn s c

/-- NOP_ENTRY (R289): a NOP, or an entry with a reserved opcode. -/
def execNopEntry (c : Chan) (f : FetchIn) (s : State) : Res :=
  whenever (canServe s c.toNat) s (fetchEntry c.toNat 0 f (endEntry c.toNat f ccDone 0 0 0) s)

/-! Memory operations (R179, R289, R302). -/

/-- A die whose domains are off or gated is woken by a host data access; if it is not `ready` within 50 ms, the access ends
(R302, R471). -/
def reachDie (d : Nat) (ready : Bool) (s : State) : Option Nat × State :=
  if dieIsOn s d then (none, s)
  else if ready then (none, dieOn d s)
  else (some ccWakeTimeout, dieFails d s)


/-- A pavilion that host data accesses cannot reach (R302): a RECONF router on the way holds the access for the 4,096 cycles
of R128, and a pavilion that wakes DEAD is dead (R131). -/
def reachPav (p : Nat) (ready : Bool) (s : State) : Option Nat × State :=
  if portState s p == .dead then (some ccDeadTarget, s)
  else if routeReconf s p then (some ccRouteBusy, s)
  else
    let (c, s1) := reachDie (dieOf p) ready s
    (if c.isNone && portState s1 p == .dead then some ccDeadTarget else c, s1)

/-- Reads `n` deep codewords of a stack from `i` up; `glitch` meets the first reading of the first. -/
def readDeepCws (st : Nat) (glitch : BitVec 288) : Nat → Nat → State → List (BitVec 64) × Option Nat × State
  | 0, _, s => ([], none, s)
  | n + 1, i, s =>
    if 2 ^ 29 ≤ i then ([], some ccOutOfAlloc, s)
    else
      let (es, s1) := deepRead (deepKey st i) 2 glitch s
      if deepClass es == .bad then ([], some ccUePoison, s1)
      else
        let (ws, c, s2) := readDeepCws st 0 n (i + 1) s1
        (splitWords (BitVec.ofNat 256 (deepData es)) 4 ++ ws, c, s2)

/-- Writes `n` deep codewords of a stack from `i` up, four words of data each. -/
def writeDeepCws (st : Nat) : Nat → List (BitVec 64) → Nat → State → Nat × Option Nat × State
  | 0, _, _, s => (0, none, s)
  | n + 1, ws, i, s =>
    if 2 ^ 29 ≤ i then (0, some ccOutOfAlloc, s)
    else
      let (k, c, s1) := writeDeepCws st n (ws.drop 4) (i + 1) (writeDeep (deepKey st i) (joinWords 256 (ws.take 4)) s)
      (k + 1, c, s1)

/-- Pass B of a LOAD_FULL is in progress. -/
def writingBase (s : State) : Bool := s.ldr.passB && s.ldr.job.any fun j => !j.regional

/-- A memory operation passes the checks that come before its first codeword: MANAGEMENT in pass B (R295), the host
buffer on the bus (R302). -/
def memStart (c : Nat) (f : FetchIn) (act : State → State) (s : State) : State :=
  if writingBase s && classOf s c == 3 then endEntry c f ccNotRunning 3 0 0 s
  else if f.bus = 2 then endEntry c f ccInternal 2 0 0 s
  else act s

/-- The words of a host buffer, `n` of them; words that the command does not bring are 0. -/
def hostWords (n : Nat) (data : List (BitVec 64)) : List (BitVec 64) := (List.range n).map fun i => data.getD i 0

/-- A read ends: its data is written to the host buffer. -/
def readEnds (c : Nat) (f : FetchIn) (ws : List (BitVec 64)) (code : Option Nat) (s : State) : State :=
  endEntry c f (code.getD ccDone) 0 (8 * ws.length) 0
    (if ws.isEmpty then s else emit (.hostWrite (enHost f.entry) ws) s)

/-- A write ends: `NARROW_WRITE` where its last bytes were dropped and nothing else stopped it (R290); one dropped in
favour of a scheduled write has detail 4 (R177, R302). -/
def writeEnds (c : Nat) (f : FetchIn) (n : Nat) (code : Option Nat) (s : State) : State :=
  endEntry c f (code.getD (if enNarrow f.entry then ccNarrowWrite else ccDone)) (if code = some ccInternal then 4 else 0) 0 n s

/-- The body of BANK_RD. -/
def bankRdEntry (c : Nat) (f : FetchIn) (s : State) : State :=
  let p := enUnit f.entry
  match reachPav p f.ready s with
  | (some code, s1) => readEnds c f [] (some code) s1
  | (none, s1) =>
    let (ws, code, s2) := readCws p (enLen f.entry / 8) (enDev f.entry) (takeFor p (enDev f.entry / 1024) 3 s1)
    readEnds c f ws code s2

/-- The bank that a sound entry accesses first has no cycle free for it (R176). -/
def entryBusy (s : State) (c : Nat) (f : FetchIn) : Bool :=
  (entryFault s c f.entry).isNone && !bankGrants s (enUnit f.entry) (enDev f.entry / 1024) 3

/-- BANK_RD (R289): performed once its bank has a free cycle (R176). -/
def execBankRd (c : Chan) (f : FetchIn) (s : State) : Res :=
  whenever (canServe s c.toNat && !entryBusy s c.toNat f) s (fetchEntry c.toNat 2 f (memStart c.toNat f (bankRdEntry c.toNat f)) s)

/-- The body of BANK_WR. -/
def bankWrEntry (c : Nat) (f : FetchIn) (data : List (BitVec 64)) (s : State) : State :=
  let p := enUnit f.entry
  match reachPav p f.ready s with
  | (some code, s1) => writeEnds c f 0 (some code) s1
  | (none, s1) =>
    let ws := hostWords (enLen f.entry / 8) data
    if s.cox.st == .easy then
      let w : HeldWrite :=
        { chan := BitVec.ofNat 13 c, pav := BitVec.ofNat 7 p, index := enDev f.entry, words := ws,
          narrow := enNarrow f.entry,
          done := entryOf (enTag f.entry) ccDone 0 (chan s c).sqHead f.waitUs (enIrq f.entry) }
      { s1 with hif := { s1.hif with parked := s1.hif.parked ++ [w] } }
    else
      let (n, code, s2) := hostWrite p ws (enDev f.entry) (takeFor p (enDev f.entry / 1024) 3 s1)
      writeEnds c f n code s2

/-- A sound BANK_WR entry waits for a free cycle before it is fetched (R192). -/
def entryWaits (s : State) (c : Nat) (f : FetchIn) (same : Bool) : Bool :=
  s.cox.st != .easy && (entryFault s c f.entry).isNone &&
    hostWaits s (enUnit f.entry) (enLen f.entry / 8) (enDev f.entry) same

/-- BANK_WR (R289): its writes are held during Easy, and the channel with them (R86; notes/assumptions/18.md); a
write that meets a scheduled one waits for a later cycle (R192), and every write for a free one (R176). -/
def execBankWr (c : Chan) (f : FetchIn) (data : List (BitVec 64)) (same : Bool) (s : State) : Res :=
  whenever (canServe s c.toNat && !entryWaits s c.toNat f same && (s.cox.st == .easy || !entryBusy s c.toNat f)) s
    (fetchEntry c.toNat 3 f (memStart c.toNat f (bankWrEntry c.toNat f data)) s)

/-- The body of DEEP_RD. -/
def deepRdEntry (c : Nat) (f : FetchIn) (glitch : BitVec 288) (s : State) : State :=
  let d := enUnit f.entry
  match reachDie d f.ready s with
  | (some code, s1) => readEnds c f [] (some code) s1
  | (none, s1) =>
    let (ws, code, s2) := readDeepCws d glitch (enLen f.entry / 32) (enDev f.entry) s1
    readEnds c f ws code s2

/-- DEEP_RD (R289): `glitch` holds the flips that the first reading meets. -/
def execDeepRd (c : Chan) (f : FetchIn) (glitch : BitVec 288) (s : State) : Res :=
  whenever (canServe s c.toNat) s (fetchEntry c.toNat 4 f (memStart c.toNat f (deepRdEntry c.toNat f glitch)) s)

/-- The body of DEEP_WR. -/
def deepWrEntry (c : Nat) (f : FetchIn) (data : List (BitVec 64)) (s : State) : State :=
  let d := enUnit f.entry
  let n := enLen f.entry / 32
  match reachDie d f.ready s with
  | (some code, s1) => writeEnds c f 0 (some code) s1
  | (none, s1) =>
    let (k, code, s2) := writeDeepCws d n (hostWords (4 * n) data) (enDev f.entry) s1
    writeEnds c f k code s2

/-- DEEP_WR (R289). -/
def execDeepWr (c : Chan) (f : FetchIn) (data : List (BitVec 64)) (s : State) : Res :=
  whenever (canServe s c.toNat) s (fetchEntry c.toNat 5 f (memStart c.toNat f (deepWrEntry c.toNat f data)) s)

/-! SEND_MSG (R289, R296, R331, R334 to R336). -/


/-- Bytes of the fragments fetched. -/
def gotBytes (m : Msg) : Nat := (m.got.map fun g => g.2.length).sum

/-- The message is longer than 32 bytes or than its port holds (R331). -/
def tooLong (s : State) (m : Msg) : Bool :=
  decide (min 32 (portBytes s (portEntry s m.port.toNat)) < gotBytes m)

/-- Fragments of a message that have not been fetched. -/
def fragsLeft (m : Msg) : Nat := m.frags.toNat + 1 - m.got.length

/-- Courses from admission to promise (R316). -/
def timedLead (s : State) : Nat := max 1 (bits (reg s 0xA000C) 0 2)

/-- The detail with which a TIMED message is refused, if it is (R296, R334). -/
def timedRefused (s : State) (m : Msg) (pr : Nat) : Option Nat :=
  let l := s.cox.length
  let d := peStroke (portEntry s m.port.toNat)
  let budget := (look 0 s.hif.budget m.chan.toNat).toNat
  if budget ≤ (s.hif.admits.filter fun a => a.1 == m.chan && a.2.2.2 == pr).length then some 1
  else if 4 * l ≤ (s.hif.admits.filter fun a => a.2.2.2 == pr).length then some 2
  else if unclaimed s (msgKey m) = 0 ∨ (s.hif.admits.any fun a => a.2.1 == m.port && a.2.2.1 == m.inst && a.2.2.2 == pr) ∨
      l < 96 ∨ (timedLead s - 1) * l + d < 192 then some 3
  else none

/-- The BACKGROUND message that a TIMED admission sheds: the one fetched last of those that no engine has begun to
send, `inSlot` for a prefetch slot (R336). -/
def shedPick (s : State) (inSlot : Bool) : Option Msg :=
  (s.dsp.msgs.filter fun m => m.cls == 2 && (m.stage == 1 || (!inSlot && m.stage == 0))).foldl
    (fun b m => match b with
      | some x => if x.order < m.order then some m else some x
      | none => some m) none

/-- Sheds one BACKGROUND message, if one can be shed. -/
def shed (inSlot : Bool) (s : State) : State :=
  match shedPick s inSlot with
  | some m => cancelMsg ccShed 0 s m
  | none => s

/-- Makes room for a TIMED admission (R336). -/
def makeRoom (s : State) : State :=
  let s1 := iff (decide (16384 ≤ storeUsed s)) (shed false) s
  iff (decide (128 ≤ slotsTaken s1)) (shed true) s1

/-- Appends a message to the matching store. -/
def addMsg (m : Msg) (s : State) : State :=
  { s with dsp := { s.dsp with msgs := s.dsp.msgs ++ [m], nextOrd := s.dsp.nextOrd + 1 } }

/-- A TIMED message is admitted or refused (R296): admitted, it claims its credit and waits on the TIMED list. -/
def admitTimed (m : Msg) (s : State) : State :=
  let pr := course s + timedLead s
  match timedRefused s m pr with
  | some d => complete m.chan.toNat (entryOf m.tag ccRefusedBudget d m.sqHead m.waitUs m.irq) s
  | none =>
    let s1 := makeRoom s
    let k := msgKey m
    let s2 := setUnclaimed k (unclaimed s1 k - 1) s1
    let s3 := addMsg { m with promise := some pr, claimed := true, ready := true } s2
    let s4 := { s3 with hif := { s3.hif with admits := s3.hif.admits ++ [(m.chan, m.port, m.inst, pr)] },
                        dsp := { s3.dsp with readyT := s3.dsp.readyT ++ [m.order] } }
    complete m.chan.toNat
      { entryOf m.tag ccAccepted 0 m.sqHead m.waitUs m.irq with final := false, course := BitVec.ofNat 64 pr } s4

/-- The message that a first fragment begins. -/
def newMsg (s : State) (c : Nat) (f : FetchIn) : Msg :=
  let e := f.entry
  { chan := BitVec.ofNat 13 c, tag := enTag e, port := BitVec.ofNat 12 (enUnit e), inst := enInst e,
    cls := BitVec.ofNat 2 (classOf s c), frags := enFrags e, got := [(enFrag e, enBytes e)], promise := none,
    claimed := false, ready := false, stage := 0, order := s.dsp.nextOrd, irq := enIrq e, sqHead := (chan s c).sqHead,
    waitUs := f.waitUs, replay := none, late := 0 }

/-- A first fragment that ends its message at once with a code; its other fragments are discarded. -/
def refuseMsg (m : Msg) (f : FetchIn) (code detail : Nat) (s : State) : State :=
  dropRest m.chan.toNat m.tag (restOfMsg m) (endEntry m.chan.toNat f code detail 0 0 s)

/-- A first fragment (R290, R331, R338, R339). -/
def firstFrag (c : Nat) (f : FetchIn) (s : State) : State :=
  let m := newMsg s c f
  let p := m.port.toNat
  if (reg s 0x90000).getLsbD 0 then refuseMsg m f ccRefusedMode 0 s
  else if (find s.dsp.bind p).map (·.toNat) ≠ some c then refuseMsg m f ccPortClosed 0 s
  else if s.dsp.deadPav.contains (pePav (portEntry s p)) then refuseMsg m f ccDeadTarget 0 s
  else if tooLong s m then refuseMsg m f ccBadEntry 4 s
  else if classOf s c = 0 then admitTimed m s
  else addMsg m s

/-- A further fragment joins its message (R331). -/
def nextFrag (m : Msg) (f : FetchIn) (s : State) : State :=
  let n := { m with got := m.got ++ [(enFrag f.entry, enBytes f.entry)], irq := m.irq || enIrq f.entry,
                    sqHead := (chan s m.chan.toNat).sqHead }
  if tooLong s n then dropRest m.chan.toNat m.tag (restOfMsg n) (breakMsg 4 s n) else setMsg n s

/-- The body of SEND_MSG. -/
def sendEntry (c : Nat) (f : FetchIn) (s : State) : State :=
  match furtherOf s c f.entry with
  | some m => nextFrag m f s
  | none => firstFrag c f s

/-- Message dispatch has no room for the entry's message (R335). -/
def noRoom (s : State) (c : Nat) (e : BitVec 512) : Bool :=
  (classOf s c == 1 || classOf s c == 2) &&
    (decide (64 ≤ inStore s (enUnit e)) || decide (16384 ≤ storeUsed s))

/-- SEND_MSG on a channel that can be served: a discarded fragment, back-pressured without room, or an entry. -/
def sendMsg (c : Nat) (f : FetchIn) (s : State) : State :=
  let e := f.entry
  if f.bus = 1 ∨ enOp e ≠ 1 then fetchEntry c 1 f (sendEntry c f) s
  else match restFound s c e with
    | some r => dropRest c (enTag e) { r with seen := enFrag e :: r.seen } (takeEntry c s)
    | none =>
      if !(classOf s c != 3 && dataStopped s) && noRoom s c e then setChan c { chan s c with bpD := true } s
      else fetchEntry c 1 f (sendEntry c f) s

/-- SEND_MSG (R289). -/
def execSendMsg (c : Chan) (f : FetchIn) (s : State) : Res :=
  whenever (canServe s c.toNat) s (sendMsg c.toNat f s)

/-! Aborts (R300). -/


/-- A write of CHN[c].ABORT. -/
def abortTag (c : Nat) (tag : BitVec 16) (s : State) : State :=
  match (chan s c).st with
  | .active | .draining =>
    (match s.dsp.msgs.find? fun m => m.chan.toNat == c && m.replay.isNone && m.tag == tag with
     | some m => if m.stage = 0 then drained c (cancelMsg ccAborted 0 s m) else setMsg { m with late := m.late + 1 } s
     | none =>
       match s.hif.parked.find? fun w => w.chan.toNat == c && w.done.tag == tag with
       | some w => endHeld w ccAborted 0 0 s
       | none => tooLate c tag s)
  | _ => s

/-- ABORT (R300). -/
def execAbort (c : Chan) (fn : Fn) (tag : BitVec 16) (s : State) : Res :=
  whenever (hostUp s && ownsPage s fn.toNat c.toNat) s (abortTag c.toNat tag s)

/-! Completions (R291, R303). -/

/-- The completion ring has room (R291). -/
def ringRoom (s : State) (c : Nat) : Bool := decide (0 < ringSpace s c)

/-- A completion entry as it stands in host memory (R291), with its phase bit. -/
def completionWords (phase : Bool) (e : Completion) : List (BitVec 64) :=
  let flags := phase.toNat + e.final.toNat * 2 + e.abortF.toNat * 4
  [e.detail ++ BitVec.ofNat 8 flags ++ e.status ++ e.tag, e.course, e.devWords ++ e.hostBytes,
   e.waitUs ++ (0 : BitVec 16) ++ e.sqHead]

/-- The address of the completion tail (R291, R320). -/
def cqAddr (s : State) (c : Nat) : BitVec 64 :=
  (chnReg s c 0x1C ++ chnReg s c 0x18 : BitVec 64) + BitVec.ofNat 64 (32 * (chan s c).cqTail.toNat)

/-- The oldest completion of a channel is written to its ring. -/
def writeCompletion (c : Nat) (e : Completion) (s : State) : State :=
  let x := chan s c
  let t := (x.cqTail.toNat + 1) % cqSize s c
  let s1 := setChan c { x with cqTail := BitVec.ofNat 16 t, phase := x.phase ^^ (t == 0), held := x.held.drop 1 } s
  let s2 := emit (.completion (BitVec.ofNat 13 c) (cqAddr s c) (completionWords x.phase e)) s1
  let s3 := iff (e.irq && e.final) (interrupt (fnOf s c) (chnVector s c)) s2
  drained c s3

/-- COMPLETION_WRITE (R291): held while the ring is full or the function is in D3hot; a ring that cannot be accessed
takes the channel to ERROR (R303). -/
def execCompletionWrite (c : Chan) (busErr : Bool) (s : State) : Res :=
  let n := c.toNat
  match (chan s n).held with
  | [] => .next s
  | e :: _ =>
    whenever (hostUp s && ((chan s n).st == .active || (chan s n).st == .draining) && !s.hif.d3.getLsbD (fnOf s n) &&
        ringRoom s n) s
      (if busErr then logEvent evHostDmaErr (locUnit n 0) 2 (chanError n 2 s) else writeCompletion n e s)

/-! Functions (R303). -/

/-- Channels of a function. -/
def chansOf (s : State) (fn : Nat) : List Nat := (knownChans s).filter fun c => assigned s c && fnOf s c == fn

/-- A function's MSI-X table and pending bits are as at reset (PRESUMED, notes/assumptions/66.md). -/
def vectorsOff (fn : Nat) (s : State) : State :=
  let mine := fun (a : Nat) => match msixOf a with
    | some (f, _, _) => f == fn
    | none => false
  { s with regs := s.regs.filter fun e => !mine e.1,
           hif := { s.hif with msix := s.hif.msix &&& ~~~maskAt 2048 (msixIndex fn 0) (if fn = 0 then 1056 else 32) } }

/-- Every channel of a function is disabled, with nothing written to host memory (R303), and its vectors are as at
reset. -/
def functionOff (fn : Nat) (s : State) : State :=
  vectorsOff fn ((chansOf s fn).foldl (fun x c => chanOff c (setChn c 0x20 (put (chnReg x c 0x20) 31 1 0) x)) s)

/-- Sets or clears a function's D3 bit. -/
def setD3 (fn : Nat) (b : Bool) (s : State) : State := { s with hif := { s.hif with d3 := putBit s.hif.d3 fn b } }

/-- FUNCTION_LEVEL_RESET (R303). -/
def execFunctionLevelReset (fn : Fn) (s : State) : Res := whenever (hostUp s) s (functionOff fn.toNat s)

/-- D3HOT_ENTRY (R303): fetching stops and completions are held. -/
def execD3hotEntry (fn : Fn) (s : State) : Res := whenever (hostUp s) s (setD3 fn.toNat true s)

/-- WAKE# is released once PF0 answers its request: the link is in L0 with its return to D0, or PERST# is asserted with
its D3cold (R467). -/
def wakeSeen (fn : Nat) (s : State) : State := if fn = 0 then { s with pwr := { s.pwr with wakePin := false } } else s

/-- D3COLD_ENTRY (R303): the function's channels are disabled. -/
def execD3coldEntry (fn : Fn) (s : State) : Res :=
  whenever (hostUp s) s (wakeSeen fn.toNat (setD3 fn.toNat true (functionOff fn.toNat s)))

/-- D0_RETURN (R303): fetching goes on, and completions that were held can be written. -/
def execD0Return (fn : Fn) (s : State) : Res := whenever (hostUp s) s (wakeSeen fn.toNat (setD3 fn.toNat false s))

end Sys2Proof.Machine
end

