-- ==== Sys2Proof/Machine/Messages.lean ====
section
/-! DEFINITION. Message dispatch (R324 to R349): binding ports, credits, ready messages, engines, the decisions and
landings of ports, the delivery record and replay. -/

namespace Sys2Proof.Machine

/-! Binding (R324). -/

/-- The cause for which a write of PORT_BIND is ignored, if it is. -/
def bindRefused (s : State) (p : Nat) (v : Word) : Option Nat :=
  if s.dsp.msgs.any fun m => m.port.toNat == p then some 1
  else if assigned s (bits v 0 13) && classOf s (bits v 0 13) == 3 then some 2
  else if !peValid (portEntry s p) then some 3
  else none

/-- A write of DSP.PORT_BIND (R324, R342). -/
def writeBind (v : Word) (s : State) : State :=
  let p := portSel s
  match bindRefused s p v with
  | some k => setReg 0x90008 (put (reg s 0x90008) 26 6 (k + 32)) s
  | none =>
    let c : BitVec 13 := v.setWidth 13
    if v.getLsbD 31 then { s with dsp := { s.dsp with bind := ins s.dsp.bind p c, unbound := del s.dsp.unbound p } }
    else { s with dsp := { s.dsp with bind := del s.dsp.bind p, unbound := upd 0 s.dsp.unbound p c } }

/-- PORT_BIND (R324). -/
def execPortBind (v : Word) (s : State) : Res := whenever (hostUp s) s (writeBind v s)

/-! Credits (R330). -/

/-- What a port needs to act in the stroke in progress: the controller in RUN, a valid entry, and the write-enable stage
of its pavilion (R328). -/
def portLive (s : State) (p : Nat) : Bool :=
  let e := portEntry s p
  running s && peValid e && decide (2 ≤ stageOf s (pePav e))

/-- The take signal grants a credit to instance `i` (R330). -/
def takes (s : State) (e : BitVec 64) (i : Nat) : Bool :=
  let v := slot s (pePav e) (peCrew e) (peBp e) (peTake e)
  if fourState s then v == v1 else v.getLsbD i

/-- A credit is granted: it is reported to the matching store, or discarded at the limit (R330). -/
def grantCredit (p i : Nat) (s : State) : State :=
  let k := piKey p i
  if 15 ≤ niCredits s k then count 0x90088 s
  else
    let s1 := sendNotice (pePav (portEntry s p)) p i true (setCredits k (niCredits s k + 1) s)
    { s1 with fab := { s1.fab with marks := (51, k) :: s1.fab.marks } }

/-- CREDIT_GRANT (R330): after stroke take, once the take signal's BP has executed in it; once per course. -/
def execCreditGrant (p : MPort) (s : State) : Res :=
  let n := p.toNat
  let e := portEntry s n
  whenever (portLive s n && s.cox.stroke == peTake e &&
      s.fab.retired.contains (bpIndex (pePav e) (peCrew e) (peBp e)) && !s.fab.marks.contains (52, n)) s
    ((List.range (instances s)).foldl (fun x i => iff (takes s e i) (grantCredit n i) x)
      { s with fab := { s.fab with marks := (52, n) :: s.fab.marks } })

/-! Ready messages and engines (R331, R332). -/

/-- A message that becomes ready: complete, a credit unclaimed, and every earlier message of its port and instance
ready. -/
def becomesReady (s : State) (m : Msg) : Bool :=
  !m.ready && fragsLeft m == 0 && decide (0 < unclaimed s (msgKey m)) &&
    s.dsp.msgs.all fun x => msgKey x != msgKey m || decide (m.order ≤ x.order) || x.ready

/-- A message claims its credit and joins its ready list. -/
def makeReady (m : Msg) (s : State) : State :=
  let s1 := setUnclaimed (msgKey m) (unclaimed s (msgKey m) - 1) (setMsg { m with ready := true, claimed := true } s)
  notePeaks (match m.cls.toNat with
    | 0 => { s1 with dsp := { s1.dsp with readyT := s1.dsp.readyT ++ [m.order] } }
    | 1 => { s1 with dsp := { s1.dsp with readyB := s1.dsp.readyB ++ [m.order] } }
    | _ => { s1 with dsp := { s1.dsp with readyG := s1.dsp.readyG ++ [m.order] } })

/-- MESSAGE_READY (R331). -/
def execMessageReady (c : Chan) (tag : BitVec 16) (s : State) : Res :=
  match s.dsp.msgs.find? fun m => m.chan == c && m.tag == tag && m.replay.isNone with
  | some m => whenever (becomesReady s m) s (makeReady m s)
  | none => .next s

/-- Takes the first message of the ready lists, in the order of R295. -/
def popReady (s : State) : Option (Nat × State) :=
  match s.dsp.readyT, s.dsp.readyB, s.dsp.readyG with
  | o :: r, _, _ => some (o, { s with dsp := { s.dsp with readyT := r } })
  | [], o :: r, _ => some (o, { s with dsp := { s.dsp with readyB := r } })
  | [], [], o :: r => some (o, { s with dsp := { s.dsp with readyG := r } })
  | [], [], [] => none

/-- Orders in an engine's prefetch slots. -/
def engine (s : State) (e : Nat) : List Nat := look [] s.dsp.engines e

/-- Fills one prefetch slot of an engine, if it is free and a message is ready. -/
def fillSlot (e : Nat) (s : State) : State :=
  if 2 ≤ (engine s e).length then s
  else match popReady s with
    | some (o, s1) =>
      let s2 := { s1 with dsp := { s1.dsp with engines := upd [] s1.dsp.engines e (engine s1 e ++ [o]) } }
      (match msgOf s2 o with
       | some m => setMsg { m with stage := 1 } s2
       | none => s2)
    | none => s


/-- A message of an engine that it may send now: one of the port's two staging slots is free for its instance, and no
earlier message of the same port and instance has still to be sent (R292, R332). -/
def maySend (s : State) (m : Msg) : Bool :=
  m.stage == 1 &&
    decide ((s.dsp.msgs.filter fun x => msgKey x == msgKey m && decide (2 ≤ x.stage.toNat)).length < 2) &&
    s.dsp.msgs.all fun x => msgKey x != msgKey m || decide (m.order ≤ x.order) || decide (2 ≤ x.stage.toNat)

/-- The payload of a message: its fragments joined in index order (R331). -/
def payload (m : Msg) : List (BitVec 8) :=
  (List.range 4).flatMap fun i => match m.got.find? fun g => g.1.toNat == i with
    | some g => g.2
    | none => []

/-- Payload bytes as 64-bit words, byte 8*f* + *m* in bits [8*m* + 7:8*m*] of word *f* (R332). -/
def byteWords (k : Nat) (bs : List (BitVec 8)) : List (BitVec 64) :=
  (List.range k).map fun f => (List.range 8).foldl (fun a i =>
    a ||| ((bs.getD (8 * f + i) 0).setWidth 64 <<< (8 * i))) 0

/-- An engine sends a message as a DELIVER packet (R332). -/
def sendDeliver (e : Nat) (m : Msg) (s : State) : State :=
  let bs := payload m
  let k := (bs.length + 7) / 8
  let h := mkHead 5 (position s) false (pePav (portEntry s m.port.toNat)) (position s) true 0 e k m.port.toNat 0
  let pk : Packet :=
    { head := h, data := byteWords k bs, vn := 1, legs := 0, endG := false, nextPort := 0, bad := false, held := 0,
      cls := false }
  atIo pk (setMsg { m with stage := 2 } s)

/-- An engine waits for the answer to a message it has sent, whatever has become of the message (R332). -/
def engineBusy (s : State) (e : Nat) : Bool :=
  (engine s e).any fun o => match msgOf s o with
    | some m => m.stage != 1
    | none => true

/-- ENGINE_SEND (R332): the engine fills its prefetch slots and sends the first message that it may. With stall = 1
none is sent while the record ring is full (R337). -/
def engineSend (e : Nat) (s : State) : State :=
  let s1 := fillSlot e (fillSlot e s)
  let ms := (engine s1 e).filterMap (msgOf s1)
  if recStalled s1 || engineBusy s1 e then s1
  else match ms.find? fun m => m.cls == 0 && maySend s1 m with
    | some m => sendDeliver e m s1
    | none => match ms.find? (maySend s1) with
      | some m => sendDeliver e m s1
      | none => s1

/-- ENGINE_SEND. -/
def execEngineSend (e : BitVec 6) (s : State) : Res := .next (engineSend e.toNat s)

/-- ENGINE_LOAD_WINDOW (R345): each engine's load over the window that has ended. -/
def execEngineLoadWindow (busy : List (BitVec 8)) (s : State) : Res :=
  .next ((List.range 64).foldl (fun x e => setReg (0x90100 + 4 * e) ((busy.getD e 0).setWidth 32) x) s)

/-! Decisions (R333, R338). -/

/-- The copy of the replay record that lands on a port and instance in course `c`. -/
def replayCopy (s : State) (k c : Nat) : Option Msg :=
  s.dsp.msgs.find? fun m => m.replay == some c && msgKey m == k

/-- Dispatch delivers from the replay ring (R338). -/
def replaying (s : State) : Bool := (reg s 0x90000).getLsbD 0

/-- The replay reader has not yet read past course `c` (R338). -/
def replayBehind (s : State) (c : Nat) : Bool :=
  !s.dsp.rplEnd && (match s.dsp.rplLast with
    | some x => decide (x ≤ c)
    | none => true)

/-- Messages staged for a port and instance that no decision has taken yet. -/
def unplanned (s : State) (k : Nat) : Nat :=
  (look [] s.dsp.staged k).length - (s.dsp.decided.filter fun d => piKey d.port.toNat d.inst.toNat == k && d.land).length

/-- Free credits that count in the stroke in progress: not one granted in it (R330, R339). -/
def creditsNow (s : State) (e : BitVec 64) (k : Nat) : Nat :=
  niCredits s k - (if s.cox.stroke == peTake e && s.fab.marks.contains (51, k) then 1 else 0)

/-- Records a decision. -/
def addDecision (d : Decision) (s : State) : State := { s with dsp := { s.dsp with decided := s.dsp.decided ++ [d] } }

/-- A port asks for Easy, cause HOST, open (R83, R333); `free` says whether it has a free credit (R338). -/
def askHost (p i g : Nat) (free : Bool) (s : State) : State :=
  let r : EasyReq := { origin := BitVec.ofNat 4 (position s), cause := 3, unit := p, p := g, kind := .opn none }
  addDecision { port := BitVec.ofNat 12 p, inst := BitVec.ofNat 1 i, due := g, land := false, wait := true, free := free }
    { s with cox := { s.cox with raised := s.cox.raised ++ [r] } }

/-- A recorded message that found no free credit at its decision stroke is not delivered (R338). -/
def diverge (m : Msg) (s : State) : State :=
  raiseHalt hcOther (logEvent evReplayDiverged (locUnit m.port.toNat 0) 0 (removeMsg m.order s))

/-- The decision of a port in replay: its copy for the course lands if a credit is free, else the run has diverged. -/
def decideReplay (p i g : Nat) (e : BitVec 64) (s : State) : State :=
  let k := piKey p i
  let free := decide (0 < creditsNow s e k)
  let d : Decision :=
    { port := BitVec.ofNat 12 p, inst := BitVec.ofNat 1 i, due := g, land := true, wait := false, free := free }
  match replayCopy s k (g / s.cox.length) with
  | some m => if free then addDecision d (setCredits k (niCredits s k - 1) s) else diverge m s
  | none => if replayBehind s (g / s.cox.length) && s.cox.mode == .comodel then askHost p i g free s else s

/-- In TETHERED with the record ring full and stall = 1, ports land nothing (R339). -/
def landsNothing (s : State) : Bool := s.cox.mode == .tethered && recStalled s

/-- The decision of a port for one instance (R333). -/
def decidePort (p g : Nat) (e : BitVec 64) (s : State) (i : Nat) : State :=
  let k := piKey p i
  if replaying s then decideReplay p i g e s
  else if 0 < unplanned s k then
    addDecision
      { port := BitVec.ofNat 12 p, inst := BitVec.ofNat 1 i, due := g, land := true, wait := false, free := true } s
  else if s.cox.mode == .comodel && pePaced e && decide (0 < creditsNow s e k) then askHost p i g true s
  else s

/-- PORT_DECISION (R333): at stroke *d* − 64, counted under R82; once for each landing. -/
def execPortDecision (p : MPort) (s : State) : Res :=
  let n := p.toNat
  let e := portEntry s n
  let g := gOf s + 64
  whenever (portLive s n && g % s.cox.length == peStroke e && !s.fab.marks.contains (54, n)) s
    ((List.range (instances s)).foldl (decidePort n g e) { s with fab := { s.fab with marks := (54, n) :: s.fab.marks } })

/-! Landings (R327, R328, R333, R337). -/

/-- Values of a receive register: 8, or 4 of two bits (R327). -/
def lanesPer (s : State) : Nat := if twoBit s then 4 else 8

/-- The bits of lane `j` that instance `i` writes. -/
def laneMask (s : State) (i j : Nat) : Nat :=
  if fleet s then 2 ^ (2 * j + i) else if fourState s then 3 * 4 ^ j else 2 ^ j

/-- A lane's value as it stands in the register. -/
def laneBit (s : State) (i j : Nat) (b : Bool) : Nat :=
  if b then (if fleet s then 2 ^ (2 * j + i) else if fourState s then 4 ^ j else 2 ^ j) else 0

/-- Bit `n` of a payload. -/
def payloadBit (bs : List (BitVec 8)) (n : Nat) : Bool := (bs.getD (n / 8) 0).getLsbD (n % 8)

/-- A port's write of one receive register in cycle *d*.0: the lanes named. -/
def portWrite (e : BitVec 64) (r i : Nat) (lanes : List Nat) (v : Nat → Bool) (s : State) : State :=
  let w : RxWrite :=
    { key := pePav e * 64 + r, mask := BitVec.ofNat 8 (lanes.foldl (fun a j => a + laneMask s i j) 0),
      val := BitVec.ofNat 8 (lanes.foldl (fun a j => a + laneBit s i j (v j)) 0), half := false }
  { s with fab := { s.fab with rxNext := s.fab.rxNext ++ [w] } }

/-- A message's values enter the port's registers (R327). -/
def landValues (e : BitVec 64) (i : Nat) (bs : List (BitVec 8)) (s : State) : State :=
  let v := lanesPer s
  let s1 := portWrite e (peVreg e) i (List.range v) (fun j => j == 0) s
  (List.range (peDcount e + 1)).foldl (fun x r =>
    portWrite e (peDreg e + r) i (List.range v) (fun j => payloadBit bs (r * v + j)) x) s1

/-- The record entry of a landing (R337). -/
def recordEntry (s : State) (m : Msg) (bs : List (BitVec 8)) : List (BitVec 64) :=
  [BitVec.ofNat 64 (course s),
   BitVec.ofNat 64 (m.port.toNat + m.inst.toNat * 2 ^ 16 + bs.length * 2 ^ 24 + m.chan.toNat * 2 ^ 32 + m.tag.toNat * 2 ^ 48),
   BitVec.ofNat 64 s.cox.stroke, 0] ++ byteWords 4 bs

/-- The record of a landing is made; the entries of a stroke are written, in increasing port order, as it passes (R337). -/
def recordLanding (m : Msg) (bs : List (BitVec 8)) (s : State) : State :=
  iff (recOn s) (fun x => { x with dsp := { x.dsp with
    recHeld := ins x.dsp.recHeld (gOf s * 8192 + msgKey m) (recordEntry s m bs) } }) s

/-- The bin of WAIT_HIST for a wait of `w` microseconds (R349). -/
def waitBin (w : Nat) : Nat := min 15 (Nat.log2 (w + 1))

/-- The message that lands: the earliest staged, or in replay the copy for the course (R333, R338). -/
def landingMsg (s : State) (k : Nat) : Option Msg :=
  if replaying s then replayCopy s k (course s) else (look [] s.dsp.staged k).head?.bind (msgOf s)

/-- The next copy of the replay record of a port takes the staging slot that has become free. -/
def promoteReplay (k : Nat) (s : State) : State :=
  match s.dsp.msgs.find? fun m => m.replay.isSome && msgKey m == k && m.stage == 0 with
  | some m =>
    if (look [] s.dsp.staged k).length < 2 then
      let s1 := setMsg { m with stage := 3 } s
      { s1 with dsp := { s1.dsp with staged := upd [] s1.dsp.staged k (look [] s1.dsp.staged k ++ [m.order]) } }
    else s
  | none => s

/-- A message lands (R327, R333): its registers, its completion, the record, the counts and the notice. -/
def landMsg (p i : Nat) (e : BitVec 64) (waitUs : Nat) (m : Msg) (s : State) : State :=
  let bs := payload m
  let s1 := count 0x90090 (landValues e i bs s)
  let s2 := iff m.replay.isNone (count (0x90200 + 0x80 * m.cls.toNat + 8 * waitBin waitUs)) s1
  let s3 := recordLanding m bs s2
  let s4 := sendNotice (pePav e) p i false
    { s3 with trg := { s3.trg with landings := s3.trg.landings ++ [(m.port, m.inst, gOf s)] } }
  promoteReplay (piKey p i) (endMsg m ccDelivered 0 (course s) 1 s4)

/-- A port's landing for one instance (R328): the message decided for it, or valid 0; `waits` holds the time of each
instance's message from the fetch of its first fragment (R349). -/
def landPort (p : Nat) (e : BitVec 64) (waits : BitVec 32 × BitVec 32) (s : State) (i : Nat) : State :=
  let k := piKey p i
  let d := s.dsp.decided.find? fun d => d.port.toNat == p && d.inst.toNat == i && d.due == gOf s
  match (if d.any (·.land) && !landsNothing s then landingMsg s k else none) with
  | some m => landMsg p i e (if i = 0 then waits.1 else waits.2).toNat m s
  | none => portWrite e (peVreg e) i [0] (fun _ => false) s

/-- PORT_LANDING (R328): in cycle *d*.0 of every course. -/
def execPortLanding (p : MPort) (waits : BitVec 32 × BitVec 32) (s : State) : Res :=
  let n := p.toNat
  let e := portEntry s n
  whenever (portLive s n && s.cox.stroke == peStroke e && !s.fab.marks.contains (53, n)) s
    (let s1 := (List.range (instances s)).foldl (landPort n e waits)
        { s with fab := { s.fab with marks := (53, n) :: s.fab.marks } }
     { s1 with dsp := { s1.dsp with decided := s1.dsp.decided.filter fun d => d.port != p || decide (gOf s < d.due) } })

/-! Replay and the rings (R338, R340, R347, R348). -/

/-- A write of DSP.CTRL (R340): it takes effect only while no design image is released. -/
def writeDspCtrl (on : Bool) (s : State) : State :=
  if s.ldr.stage = 0 then
    let s1 := setReg 0x90000 (if on then 1 else 0) s
    { s1 with dsp := { s1.dsp with rplLast := none, rplEnd := false,
                                   msgs := s1.dsp.msgs.filter fun m => m.replay.isNone } }
  else s

/-- REPLAY_ENABLE (R338). -/
def execReplayEnable (on : Bool) (s : State) : Res := whenever (hostUp s) s (writeDspCtrl on s)

/-- The replay ring is in use. -/
def rplOn (s : State) : Bool :=
  let v := reg s 0x90058
  v.getLsbD 31 && decide (10 ≤ bits v 0 5 ∧ bits v 0 5 ≤ 20)
/-- Entries of the replay ring. -/
def rplSize (s : State) : Nat := 2 ^ bits (reg s 0x90058) 0 5

/-- The message that a replay entry gives (R337, R338). -/
def replayMsg (s : State) (e : BitVec 512) : Msg :=
  let n := min 32 (bits e 88 8)
  let bs := (List.range n).map fun i => e.extractLsb' (256 + 8 * i) 8
  { chan := BitVec.ofNat 13 (bits e 96 16), tag := e.extractLsb' 112 16, port := BitVec.ofNat 12 (bits e 64 16),
    inst := e.extractLsb' 80 1, cls := 1, frags := 0, got := [(0, bs)], promise := none, claimed := false, ready := false,
    stage := 0, order := s.dsp.nextOrd, irq := false, sqHead := 0, waitUs := 0, replay := some (bits e 0 64), late := 0 }

/-- A waiting decision is settled. -/
def setLand (d : Decision) (s : State) : State :=
  { s with dsp := { s.dsp with decided := s.dsp.decided.map fun x => if x = d then { x with land := true } else x } }

/-- A port that waits in replay has its copy, which lands if a credit was free at the decision stroke and diverges the run
if none was, or the reader has read past its course: the port can send CLEAR (R338). -/
def settleReplay (s : State) (d : Decision) : State :=
  let k := piKey d.port.toNat d.inst.toNat
  match replayCopy s k (d.due / s.cox.length) with
  | some m => setLand d (if d.free then setCredits k (niCredits s k - 1) s else diverge m s)
  | none => iff (!replayBehind s (d.due / s.cox.length)) (setLand d) s

/-- Every port that waits in replay is settled, where it can be. -/
def settleWaits (s : State) : State := (s.dsp.decided.filter fun d => d.wait && !d.land).foldl settleReplay s

/-- A replay entry is read (R338). -/
def readReplay (e : BitVec 512) (s : State) : State :=
  let h := (bits (reg s 0x90060) 0 20 + 1) % rplSize s
  let s1 := setReg 0x90060 (BitVec.ofNat 32 h) s
  if bits e 64 16 = 0xFFFF then settleWaits { s1 with dsp := { s1.dsp with rplEnd := true } }
  else
    let m := replayMsg s e
    let s2 := { s1 with dsp := { s1.dsp with rplLast := some (bits e 0 64) } }
    settleWaits (if bits e 64 16 < 4096 then promoteReplay (msgKey m) (notePeaks (addMsg m s2)) else s2)

/-- REPLAY_ENTRY_READ (R338): the entry at RPL_HEAD. -/
def execReplayEntryRead (entry : BitVec 512) (s : State) : Res :=
  whenever (hostUp s && replaying s && rplOn s && !s.dsp.rplEnd &&
      bits (reg s 0x90060) 0 20 % rplSize s != bits (reg s 0x9005C) 0 20 % rplSize s) s
    (readReplay entry s)

/-- A write of REC_CFG or RPL_CFG: enabling sets both indices to 0 (R347). -/
def writeRing (replay : Bool) (v : Word) (s : State) : State :=
  let a := if replay then 0x90058 else 0x90038
  let was := (reg s a).getLsbD 31
  let s1 := setReg a (v &&& rwMask a) s
  iff (v.getLsbD 31 && !was) (fun x => setReg (a + 4) 0 (setReg (a + 8) 0 x)) s1

/-- REC_ENABLE (R347). -/
def execRecEnable (replay : Bool) (v : Word) (s : State) : Res := whenever (hostUp s) s (writeRing replay v s)

end Sys2Proof.Machine
end

