-- ==== Sys2Proof/Machine/Check.lean ====
section
/-! DEFINITION. The checks of pass A on a design part (R150, with R24, R54, R61, R66, R119, R129, R146 to R156, R170,
R171, R226, R236, R326, R364, R366, R397, R412, R413, R498, R499): each check lists its offences, and the first in the
order of R150 is reported. -/

namespace Sys2Proof.Machine

/-- An offence: its frame address, its check code, and the chunk in which it is found (notes/assumptions/61.md). -/
structure Offence where
  addr  : Nat
  code  : Nat
  chunk : Nat
  deriving DecidableEq, Repr

/-- An instruction below L of a part: BP p.c.b, stroke, word, and its frame's address and chunk. -/
structure Placed where
  p : Nat
  c : Nat
  b : Nat
  st : Nat
  w : Nat
  addr : Nat
  chunk : Nat
  deriving DecidableEq, Repr

/-! Check codes (R150). -/
def ckHeader : Nat := 0x01
def ckLength : Nat := 0x02
def ckModes : Nat := 0x03
def ckPavDisabled : Nat := 0x04
def ckPavUndeclared : Nat := 0x05
def ckResource : Nat := 0x06
def ckRegion : Nat := 0x07
def ckAlloc : Nat := 0x08
def ckBoard : Nat := 0x09
def ckBase : Nat := 0x0B
def ckOutOfRegion : Nat := 0x0C
def ckPinMap : Nat := 0x0D
def ckFrame : Nat := 0x0E
def ckOp : Nat := 0x10
def ckSource : Nat := 0x11
def ckSendUnscheduled : Nat := 0x12
def ckSendClash : Nat := 0x13
def ckPinoutClash : Nat := 0x14
def ckLogClash : Nat := 0x15
def ckQuad : Nat := 0x16
def ckDoubleDrive : Nat := 0x17
def ckWirePolicy : Nat := 0x18
def ckDescriptor : Nat := 0x20
def ckPort : Nat := 0x21
def ckNarrow : Nat := 0x22
def ckTether : Nat := 0x23
def ckRoute : Nat := 0x30
def ckLaunch : Nat := 0x31
def ckMap : Nat := 0x32
def ckThrough : Nat := 0x33

/-- The completion code of a check (R150). -/
def checkCompletion (code : Nat) : Nat :=
  if code = ckOutOfRegion then ccOutOfRegion else if code = ckNarrow then ccNarrowWrite else ccImageCheck

/-- Lowest frame address of a pavilion (R150). -/
def pavAddr (p : Nat) : Nat := 0x10000000 + p * 0x200000

/-- One offence if a condition holds. -/
def offend (bad : Bool) (addr code chunk : Nat) : List Offence := if bad then [⟨addr, code, chunk⟩] else []

/-- Body offset at which the payloads of a design body begin (R365). -/
def payloadBase (x : Stream) : Nat := (0xA010 + 8 * x.frames.length + 4095) / 4096 * 4096

/-- The chunk in which the byte before a body offset lies (R351). -/
def chunkAt (x : Stream) (off : Nat) : Nat := (off - 1) / 2 ^ x.man.chunkLog2.toNat

/-- The chunk with which the frame table's entry of a frame has verified (R366). -/
def entryChunk (x : Stream) (f : Frame) : Nat := chunkAt x (0xA010 + 8 * (x.frames.idxOf f + 1))

/-- The chunk with which a frame's contents have verified: that of its payload's last byte. -/
def frameChunk (x : Stream) (f : Frame) : Nat :=
  if f.index = 0xFFFFFFFF then entryChunk x f else chunkAt x (payloadBase x + 4096 * (f.index.toNat + 1))

/-- An offence of a frame's address. -/
def offendEntry (x : Stream) (bad : Bool) (f : Frame) (code : Nat) : List Offence :=
  offend bad f.addr.toNat code (entryChunk x f)

/-- An offence of a frame's contents. -/
def offendFrame (x : Stream) (bad : Bool) (f : Frame) (code : Nat) : List Offence :=
  offend bad f.addr.toNat code (frameChunk x f)

/-! Reading a stream. -/

def frPav (f : Frame) : Nat := framePav f.addr
def frCrew (f : Frame) : Nat := frameCrew f.addr
def frType (f : Frame) : Nat := frameType f.addr
def frBp (f : Frame) : Nat := bits f.addr 11 4
def frPart (f : Frame) : Nat := bits f.addr 7 4

/-- Frames of a type. -/
def ofType (x : Stream) (t : Nat) : List Frame := x.frames.filter fun f => frType f == t

/-- Word `i` of the frame with a key; a frame that is not listed is zero (R367). -/
def streamWord (x : Stream) (key i : Nat) : Nat :=
  match x.frames.find? fun f => f.addr.toNat / 128 == key with
  | some f => (look 0 f.words i).toNat
  | none => 0

/-- Course length of a header. -/
def hdrLen (x : Stream) : Nat := x.hdr.courseLength.toNat

/-- The family of a set of modes (R147): the one-value family, FLEET or FOURSTATE. -/
def familyOf (m : BitVec 8) : Option Vals :=
  if m = 0 then none
  else if m &&& ~~~(0x32 : BitVec 8) = 0 then some .one
  else if m = 0x04 then some .pair
  else if m = 0x08 then some .four
  else none

/-- The family by which a part's instructions are checked. -/
def famOf (x : Stream) : Vals := (familyOf x.hdr.modes).getD .one

/-- Pavilion `p` is marked in used_pav. -/
def hdrUses (x : Stream) (p : Nat) : Bool := x.hdr.usedPav.getLsbD p

/-- A table of the header may name pavilion `p`: its own used_pav marks it, or, as a partial image repeats the base image's
entries outside its region (R149, R326), the base image's does. -/
def declares (s : State) (x : Stream) (p : Nat) : Bool := hdrUses x p || (x.hdr.kind == 1 && usedPav s p)

/-- Instructions below L. -/
def placed (x : Stream) : List Placed :=
  (ofType x 1).flatMap fun f => f.words.filterMap fun e =>
    let st := frPart f * 512 + e.1
    if st < hdrLen x then
      some { p := frPav f, c := frCrew f, b := frBp f, st := st, w := e.2.toNat, addr := f.addr.toNat, chunk := frameChunk x f }
    else none

/-! The header (R146 to R149, R156, R226). -/

/-- A code of pin_banks is reserved. -/
def pinBanksBad (v : BitVec 64) : Bool := (List.range 16).any fun b => decide (5 < bits v (4 * b) 4)

/-- The header breaks R146 as a base part (`kind` 0) or a partial part (1). -/
def headerBad (x : Stream) (kind : Nat) : Bool :=
  let h := x.hdr
  let sm := h.startMode.toNat
  h.magic != 0x48525856 || h.version != 1 || h.sizeKib != 8 || !h.reservedZero || h.flags &&& 0xFFE0 != 0 ||
  pinBanksBad h.pinBanks || decide (7 < sm) || !h.modes.getLsbD sm ||
  h.kind.toNat != kind || decide (63 < h.region.toNat) || (kind == 0 && h.region != 0) || h.imageId != x.man.imageId ||
  decide (h.packageCount.toNat < 1 ∨ 16 < h.packageCount.toNat) || decide (15 < h.position.toNat) ||
  popcount h.positions != h.packageCount.toNat || !h.positions.getLsbD h.position.toNat

/-- The course length breaks R10. -/
def courseLengthBad (l : Nat) : Bool := l % 16 != 0 || decide (l < 16 ∨ 1024 < l)

/-- Columns and rows of the rectangle that positions form (R225); none if they form none. -/
def boardShape (positions : BitVec 16) (count : Nat) : Option (Nat × Nat) :=
  if count = 1 ∧ popcount positions = 1 then some (1, 1)
  else
    ((List.range 16).map fun i => (i % 4 + 1, i / 4 + 1)).find? fun (c, r) =>
      (List.range 16).all fun k => positions.getLsbD k == (decide (k % 4 < c) && decide (k / 4 < r))

/-- The region table breaks R148 for region `r`: it leaves used_pav, or meets an earlier region. -/
def regionWrong (x : Stream) (p : Nat) : Bool :=
  let n := (x.hdr.regions.filter fun e => e.2.getLsbD p).length
  decide (1 < n) || (n == 1 && !hdrUses x p)

/-- Fields of an allocation entry (R149). -/
def alKind (a : BitVec 64) : Nat := bits a 62 2
def alOwner (a : BitVec 64) : Nat := bits a 55 7
def alBase (a : BitVec 64) : Nat := bits a 22 22
def alSize (a : BitVec 64) : Nat := bits a 0 22

/-- Two allocations of one owner and kind overlap. -/
def alMeet (a b : BitVec 64) : Bool :=
  alKind a == alKind b && alOwner a == alOwner b &&
    decide (alBase a < alBase b + alSize b) && decide (alBase b < alBase a + alSize a)

/-- Allocation entry `i` in use breaks R149, or lies on a stack that failed self-test (R522). In a partial image an entry
outside the region repeats the base image's, whose used_pav marks its owner. DESIGN CHOICE (notes/assumptions/82.md):
non-zero bits [54:44] are found here, at the owner's address, and not as `HEADER_MALFORMED`. -/
def allocBad (s : State) (x : Stream) (i : Nat) : Bool :=
  let a := look 0 x.hdr.allocs i
  let cap := if alKind a = 1 then 65536 else 2097152
  !(alKind a == 1 || alKind a == 2) || bits a 44 11 != 0 || alSize a == 0 || decide (cap < alBase a + alSize a) ||
  (alKind a == 1 && !declares s x (alOwner a)) ||
  (alKind a == 2 && (decide (3 < alOwner a) || !(fld s fStackOk).testBit (alOwner a))) ||
  (List.range x.hdr.allocCount.toNat).any fun j => j != i && alMeet a (look 0 x.hdr.allocs j)

/-- Where an offence of an allocation entry is reported: its owner's pavilion, or none (R150). -/
def allocAddr (a : BitVec 64) : Nat := if alKind a = 1 then pavAddr (alOwner a) else 0

/-- Offences of the allocation table. -/
def allocOffences (s : State) (x : Stream) : List Offence :=
  let n := min 512 x.hdr.allocCount.toNat
  ((List.range n).flatMap fun i => offend (allocBad s x i) (allocAddr (look 0 x.hdr.allocs i)) ckAlloc 0) ++
  offend (x.hdr.allocs.any fun e => decide (n ≤ e.1) && e.2 != 0) 0 ckAlloc 0

/-- Offences of the header. -/
def headerOffences (s : State) (x : Stream) (kind : Nat) : List Offence :=
  let h := x.hdr
  let used := popcount h.usedPav
  offend (headerBad x kind) 0 ckHeader 0 ++ offend (courseLengthBad (hdrLen x)) 0 ckLength 0 ++
  offend (familyOf h.modes).isNone 0 ckModes 0 ++
  (allPavs.flatMap fun p => offend (hdrUses x p && !enabled s p) (pavAddr p) ckPavDisabled 0) ++
  offend (decide (512 < h.allocCount.toNat ∨ 4096 < h.messagePorts.toNat ∨ 64 * used < h.probeTaps.toNat ∨
    256 < h.logPorts.toNat)) 0 ckResource 0 ++
  (if kind = 0 then allPavs.flatMap fun p => offend (regionWrong x p) (pavAddr p) ckRegion 0 else []) ++
  allocOffences s x ++
  offend (h.position.toNat != position s || (boardShape h.positions h.packageCount.toNat).isNone) 0 ckBoard 0

/-! The port table (R325, R326). -/

/-- An entry breaks R326. -/
def portBad (x : Stream) (e : BitVec 64) : Bool :=
  if peValid e then
    decide (hdrLen x ≤ peStroke e ∨ hdrLen x ≤ peTake e) || decide (63 < peDreg e + peDcount e) ||
      (decide (peDreg e ≤ peVreg e) && decide (peVreg e ≤ peDreg e + peDcount e)) || bits e 0 8 != 0
  else e != 0

/-- Offences of the port table. -/
def portOffences (s : State) (x : Stream) : List Offence :=
  let valid := x.ports.filter fun e => peValid e.2
  offend (decide (x.hdr.messagePorts.toNat < valid.length)) 0 ckResource 0 ++
  x.ports.flatMap fun e =>
    offend (peValid e.2 && decide (64 < (valid.filter fun o => pePav o.2 == pePav e.2).length)) (pavAddr (pePav e.2))
      ckResource 0 ++
    offend (peValid e.2 && !declares s x (pePav e.2)) (pavAddr (pePav e.2)) ckPavUndeclared 0 ++
    offend (portBad x e.2) (pavAddr (pePav e.2)) ckFrame 0

/-! Partial parts (R129, R148, R149, R326). -/

/-- Fields of a partial part that differ from the base image's. -/
def baseDiffers (b x : Stream) (r : Nat) : Bool :=
  let h := x.hdr
  h.imageId != b.hdr.imageId || h.courseLength != b.hdr.courseLength || h.modes != b.hdr.modes ||
  h.packageCount != b.hdr.packageCount || h.position != b.hdr.position || h.pinBanks != b.hdr.pinBanks ||
  h.regions != b.hdr.regions || h.usedPav != look 0 h.regions r || x.ports != b.ports ||
  (List.range 512).any fun i =>
    let a := look 0 h.allocs i
    a != look 0 b.hdr.allocs i && !(alKind a == 1 && (look 0 h.regions r).getLsbD (alOwner a))

/-- The base image's sample stroke, if it has a type 6 frame (R412). -/
def partSample (x : Stream) : Option Nat := (ofType x 6).head?.map fun f => (look 0 f.words 0).toNat % 1024

/-- A router's map in the part changes a through-slot (R129). -/
def throughChanged (s : State) (x : Stream) (p : Nat) : Bool :=
  (List.range 256).any fun w =>
    let key := frameKey 3 p 0 0 0
    let cur := fun i => BitVec.ofNat 64 (cfgData s (cfgKey key i))
    let new := fun i => BitVec.ofNat 64 (streamWord x key i)
    let foreign := cur (256 + w)
    new (256 + w) != foreign || (new w ^^^ cur w) &&& foreign != 0

/-- Offences of a partial part of region `r`. -/
def partialOffences (s : State) (x : Stream) (r : Nat) : List Offence :=
  let inside := fun p => match header s with
    | some h => (look 0 h.regions r).getLsbD p
    | none => false
  let base := match image s with
    | some b => offend (baseDiffers b x x.hdr.region.toNat) 0 ckBase 0 ++
        (ofType x 6).flatMap fun f => offendFrame x ((partSample b).any fun n =>
          decide ((look 0 f.words 0).toNat % 1024 ≠ n)) f ckBase
    | none => []
  base ++ offend (x.hdr.region.toNat != r) 0 ckOutOfRegion 0 ++
  (x.frames.flatMap fun f => offendEntry x (!inside (frPav f)) f ckOutOfRegion ++ offendEntry x (frType f == 7) f ckPinMap) ++
  (allPavs.filter inside).flatMap fun p => offend (throughChanged s x p) (frameKey 3 p 0 0 0 * 128) ckThrough
    (match x.frames.find? fun f => f.addr.toNat / 128 == frameKey 3 p 0 0 0 with
     | some f => frameChunk x f
     | none => 0)

/-! Frame addresses and order (R364, R366). -/

/-- A frame address that R364, R118 or R170 excludes. -/
def addrBad (f : Frame) : Bool :=
  let c := frCrew f
  let b := frBp f
  let n := frPart f
  bits f.addr 0 7 != 0 ||
  match frType f with
  | 1 => decide (1 < n)
  | 2 | 8 | 9 => b != 0 || n != 0
  | 3 | 6 | 7 => c != 0 || b != 0 || n != 0
  | 4 => c != 0 || b != 0 || decide (3 < n)
  | 5 => b != 0 || !(decide (n ≤ 1) || (n == 15 && c == 0))
  | _ => true

/-- The entry does not stand above the one before it (R366). -/
def orderOffences (x : Stream) : List Frame → List Offence
  | f :: g :: fs => offendEntry x (decide (g.addr.toNat ≤ f.addr.toNat)) g ckFrame ++ orderOffences x (g :: fs)
  | _ => []

/-- The frame table's header breaks R366, or the body's length disagrees with n and m (R365). -/
def tableBad (x : Stream) : Bool :=
  x.tblMagic != 0x4C425446 || x.tblZero != 0 || x.man.bodyLen.toNat != payloadBase x + 4096 * x.payloads.toNat

/-- A payload index that names no payload (R366). -/
def indexBad (x : Stream) (f : Frame) : Bool := f.index != 0xFFFFFFFF && decide (x.payloads ≤ f.index)

/-- Offences of the frame table and of every frame's address. -/
def addressOffences (s : State) (x : Stream) : List Offence :=
  offend (tableBad x) 0 ckFrame 0 ++ orderOffences x x.frames ++
  x.frames.flatMap fun f =>
    offendEntry x (addrBad f || indexBad x f) f ckFrame ++ offendEntry x (!enabled s (frPav f)) f ckPavDisabled ++
    offendEntry x (enabled s (frPav f) && !hdrUses x (frPav f)) f ckPavUndeclared

/-! Frame contents. -/

/-- All words of a frame at index `n` and above are zero. -/
def zeroFrom (f : Frame) (n : Nat) : Bool := f.words.all fun e => decide (e.1 < n) || e.2 == 0

/-- The bank map entry of a codeword holds 0b11 somewhere (R170). -/
def hasThree (v : BitVec 64) : Bool := (List.range 32).any fun i => bits v (2 * i) 2 == 3

/-- A care bit stands where R397 wants 0. -/
def careBad (f : Frame) (l : Nat) : Bool :=
  f.words.any fun e => (List.range 64).any fun i =>
    let j := e.1 % 16 * 64 + i
    e.2.getLsbD i && (if e.1 < 256 then decide (l ≤ j) else decide (j < l))

/-- A type 9 frame breaks R66. -/
def wireBad (f : Frame) (fleetImg : Bool) : Bool :=
  let w := look 0 f.words 0
  !zeroFrom f 1 || bits w 32 32 != 0 ||
  (List.range 4).any fun i => bits w (8 * i) 2 == 3 || bits w (8 * i + 4) 4 != 0 || (!fleetImg && w.getLsbD (8 * i + 3))

/-- A type 3 frame breaks R119. -/
def mapBad (f : Frame) (l : Nat) : Bool :=
  let gate := (gatewayOf (frPav f)).isSome
  f.words.any fun e => (List.range 8).any fun j =>
    let n := 8 * e.1 + j
    let v := bits e.2 (8 * j) 8
    let res := if n < 2048 then v else bits (look 0 f.words (e.1 - 256)) (8 * j) 8
    decide (64 ≤ v) || (!gate && v.testBit 5) || (v != 0 && decide (2 * l ≤ n % 2048)) ||
      (decide (2048 ≤ n) && v &&& res != v)

/-- A type 6 frame breaks R412, or its S is at or beyond L, or differs from another's (R413). -/
def probeBad (x : Stream) (f : Frame) : Bool :=
  let st := (look 0 f.words 0).toNat
  decide (hdrLen x ≤ st) || !zeroFrom f 40 || (List.range 8).any (fun i => 2 ≤ i && look 0 f.words i != 0) ||
  (f.words.any fun e => decide (8 ≤ e.1) && e.2 &&& 0x7C00FC007C00FC00 != 0) ||
  (ofType x 6).any fun g => (look 0 g.words 0).toNat % 1024 != st % 1024

/-- Valid taps of a part. -/
def tapsOf (x : Stream) : Nat :=
  ((ofType x 6).map fun f => (f.words.map fun e =>
    if 8 ≤ e.1 ∧ e.1 < 40 then (e.2.getLsbD 31).toNat + (e.2.getLsbD 63).toNat else 0).sum).sum

/-- A capture bank is covered by an allocation, or is not on in the bank power map (R413). -/
def capBankBad (x : Stream) (f : Frame) : Bool :=
  let p := frPav f
  (List.range 64).any fun b => (look 0 f.words 1).getLsbD b &&
    (streamWord x (frameKey 5 p 0 0 15) (64 + b / 32) / 4 ^ (b % 32) % 4 != 0 ||
     (ofType x 5).all (fun g => !(frPav g == p && frPart g == 15)) ||
     (List.range x.hdr.allocCount.toNat).any fun i =>
       let a := look 0 x.hdr.allocs i
       alKind a == 1 && alOwner a == p && decide (alBase a < 1024 * (b + 1)) && decide (1024 * b < alBase a + alSize a))

/-- A descriptor of a part 15 frame names an allocation that its pavilion may not use (R149, R150). -/
def descBad (x : Stream) (p d : Nat) : Bool :=
  let i := d / 2 ^ 51 % 512
  let a := look 0 x.hdr.allocs i
  descOk d && (decide (x.hdr.allocCount.toNat ≤ i) ||
    !(if d / 2 ^ 60 % 4 = 2 then alKind a == 2 && alOwner a == dieOf p else alKind a == 1 && alOwner a == p))

/-- Offences of the contents of one frame, schedule words, routes and pin maps apart. -/
def contentOffences (x : Stream) (f : Frame) : List Offence :=
  let l := hdrLen x
  match frType f with
  | 2 => offendFrame x (famOf x == .one && f.words.any fun e => e.2 &&& 0xAAAAAAAAAAAAAAAA != 0) f ckFrame
  | 3 => offendFrame x (mapBad f l) f ckMap
  | 5 =>
    if frPart f = 15 then
      offendFrame x (!zeroFrom f 66 || hasThree (look 0 f.words 64) || hasThree (look 0 f.words 65)) f ckFrame ++
      offendFrame x (f.words.any fun e => decide (e.1 < 64) && descBad x (frPav f) e.2.toNat) f ckDescriptor
    else []
  | 6 =>
    offendFrame x (probeBad x f) f ckFrame ++ offendFrame x (decide (x.hdr.probeTaps.toNat < tapsOf x)) f ckResource ++
    offendFrame x (capBankBad x f) f ckAlloc
  | 8 => offendFrame x (careBad f l) f ckFrame
  | 9 => offendFrame x (wireBad f (famOf x == .pair)) f ckWirePolicy
  | _ => []

/-! Pin maps (R498, R499). -/

/-- The 32-bit entries of a type 7 frame that are valid: frame, index 0–63 input and 64–127 output, entry. -/
def pinEntries (x : Stream) : List (Frame × Nat × Nat) :=
  (ofType x 7).flatMap fun f => f.words.flatMap fun e =>
    [(f, 2 * e.1, e.2.toNat % 2 ^ 32), (f, 2 * e.1 + 1, e.2.toNat / 2 ^ 32)].filter fun y => y.2.2.testBit 31

/-- An entry breaks R498 or R499 by itself. -/
def pinEntryBad (x : Stream) (i w : Nat) : Bool :=
  let out := decide (64 ≤ i)
  let noPin := !out && w.testBit 24
  w / 2 ^ 27 % 4 == 3 || w / 512 % 2 ^ 15 != 0 ||
  (if out then w / 2 ^ 29 % 4 != 0 || w / 2 ^ 25 % 4 == 3 else w / 2 ^ 25 % 4 != 0) ||
  (noPin && !w.testBit 30) || (!noPin && bits x.hdr.pinBanks (4 * (w % 512 / 32)) 4 == 0)

/-- Two entries name one pin against R499: both outputs, or with different pulls. -/
def pinsClash (a b : Frame × Nat × Nat) : Bool :=
  let pinned := fun (y : Frame × Nat × Nat) => decide (64 ≤ y.2.1) || !y.2.2.testBit 24
  pinned a && pinned b && a.2.2 % 512 == b.2.2 % 512 &&
    (a.2.2 / 2 ^ 27 % 4 != b.2.2 / 2 ^ 27 % 4 ||
     (decide (64 ≤ a.2.1 ∧ 64 ≤ b.2.1) && !(a.1.addr == b.1.addr && a.2.1 == b.2.1)))

/-- Offences of the pin maps. -/
def pinOffences (x : Stream) : List Offence :=
  let es := pinEntries x
  (ofType x 7).flatMap (fun f => offendFrame x (!zeroFrom f 64) f ckFrame) ++
  es.flatMap fun e => offendFrame x (decide (e.2.1 < 128) && (pinEntryBad x e.2.1 e.2.2 || es.any (pinsClash e))) e.1 ckFrame

/-! Routes (R113, R119, R236). -/

/-- Where the legs of a route from pavilion `p` end; none if a used leg follows an unused one (R111). -/
def legsEnd (p legs : Nat) : Option Nat :=
  let move := fun (acc : Option (Nat × Nat × Bool)) (sh : Nat) =>
    match acc with
    | none => none
    | some (r, c, unused) =>
      let leg := legs / 2 ^ sh % 64
      let n := leg % 16
      if n = 0 then some (r, c, true)
      else if unused then none
      else match leg / 16 with
        | 0 => some ((r + 8 * n - n) % 8, c, false)
        | 1 => some (r, (c + n) % 16, false)
        | 2 => some ((r + n) % 8, c, false)
        | _ => some (r, (c + 16 * n - n) % 16, false)
  ([12, 6, 0].foldl move (some (rowOf p, colOf p, false))).map fun x => x.1 * 16 + x.2.1

/-- Ports that the board's shape expects (R227). -/
def shapePorts (x : Stream) (n : Nat) : Bool :=
  match boardShape x.hdr.positions x.hdr.packageCount.toNat with
  | some (c, r) => if n < 4 then decide (1 < c) else decide (1 < r)
  | none => false

/-- Fields of a scheduled entry (R113). -/
def srValid (e : BitVec 64) : Bool := e.getLsbD 63
def srStroke (e : BitVec 64) : Nat := bits e 53 10
def srEnd (e : BitVec 64) : Bool := e.getLsbD 27

/-- Launch cycle of an entry, around the course (R113). -/
def launchOf (l : Nat) (e : BitVec 64) : Nat :=
  if e.getLsbD 52 then 2 * srStroke e + 1 else 2 * (srStroke e + 1) % (2 * l)

/-- The valid scheduled entries of a part: frame, entry number, entry. -/
def scheduled (x : Stream) : List (Frame × Nat × BitVec 64) :=
  ((ofType x 4).filter fun f => decide (frPart f < 2)).flatMap fun f =>
    (f.words.filter fun e => srValid e.2).map fun e => (f, frPart f * 512 + e.1, e.2)

/-- Those that launch: their stroke is below L. -/
def launches (x : Stream) : List (Frame × Nat × BitVec 64) :=
  (scheduled x).filter fun e => decide (srStroke e.2.2 < hdrLen x)

/-- A launching entry's route breaks R119. -/
def routeBad (s : State) (x : Stream) (p : Nat) (e : BitVec 64) : Bool :=
  match legsEnd p (bits e 28 18) with
  | none => true
  | some q => if srEnd e then (gatewayOf q).isNone || x.hdr.packageCount == 1 else !enabled s q

/-- A route from pavilion `p` by `legs` ends at the local port of an enabled pavilion that the image does not use (R150). -/
def endsUndeclared (s : State) (x : Stream) (p legs : Nat) : Bool :=
  (legsEnd p legs).any fun q => enabled s q && !hdrUses x q

/-- The ingress entries of a frame of part 2 or 3, two in a word (R138). -/
def ingressOf (f : Frame) : List Nat :=
  f.words.flatMap fun e => [bits e.2 0 32, bits e.2 32 32].filter (·.testBit 31)

/-- Offences of the route tables: R119, R236 over every valid entry, and the routes' ends (R150, 0x05). -/
def routeOffences (s : State) (x : Stream) : List Offence :=
  let ls := launches x
  (ls.flatMap fun (f, n, e) =>
    offendFrame x (routeBad s x (frPav f) e) f ckRoute ++
    offendFrame x (ls.any fun (g, m, d) => frPav g == frPav f && m != n && launchOf (hdrLen x) d == launchOf (hdrLen x) e)
      f ckLaunch) ++
  ((scheduled x).flatMap fun (f, _, e) =>
    offendFrame x (!srEnd e && endsUndeclared s x (frPav f) (bits e 28 18)) f ckPavUndeclared ++
    offendFrame x (srEnd e && !shapePorts x (bits e 24 3)) f ckRoute) ++
  ((ofType x 4).filter fun f => decide (2 ≤ frPart f)).flatMap fun f =>
    offendFrame x ((ingressOf f).any fun e => endsUndeclared s x (frPav f) (e / 2 ^ 13 % 2 ^ 18)) f ckPavUndeclared ++
    offendFrame x ((gatewayOf (frPav f)).isNone ||
      (ingressOf f).any fun e => e.testBit 12) f ckRoute

/-! Instructions (R24, R54, R61, R153 to R155, R171). -/

/-- tt bits that an op class reserves (R23). -/
def ttReserved (op tt : Nat) : Bool :=
  match op with
  | 0x0 => tt != 0
  | 0x2 => tt / 2 ^ 8 != 0
  | 0x4 => tt / 2 ^ 13 != 0
  | 0x5 => tt / 2 ^ 2 != 0
  | 0x8 => tt / 2 ^ 6 != 0
  | 0x9 => tt / 2 ^ 8 % 2 ^ 7 != 0
  | _ => false

/-- The pin-map input entry that a part gives a pavilion: a partial part keeps the base image's. -/
def partPin (s : State) (x : Stream) (part : Bool) (p e : Nat) : Nat :=
  if part then pinIn s p e else streamWord x (frameKey 7 p 0 0 0) (e / 2) / 2 ^ (32 * (e % 2)) % 2 ^ 32

/-- A selector names a source that exists in the image's family (R26, R38, R39). -/
def sourceThere (k : Vals) (pin : Nat → Bool) (sel : Nat) : Bool :=
  let two := k != .one
  let n := sel - 1024
  decide (sel < 1024) || decide (n < 0x014) || n == 0x020 || n == 0x021 || n == 0x024 ||
  (k == .four && (n == 0x022 || n == 0x023)) ||
  (decide (0x040 ≤ n ∧ n < 0x0C0) && (!two || decide (n % 0x40 < 32))) ||
  (decide (0x0C0 ≤ n ∧ n < 0x100) && pin (n - 0x0C0)) ||
  (decide (0x100 ≤ n ∧ n < 0x200) && (!two || decide (n - 0x100 < 128))) ||
  (decide (0x200 ≤ n ∧ n < 0x400) && (!two || decide (n % 8 < 4)))

/-- Two instructions of different BPs in one pavilion and stroke. -/
def together (i j : Placed) : Bool := i.p == j.p && i.st == j.st && !(i.c == j.c && i.b == j.b)

/-- The route entry that a SEND names. -/
def sendRoute (x : Stream) (i : Placed) : BitVec 64 :=
  let e := ttOf i.w % 1024
  BitVec.ofNat 64 (streamWord x (frameKey 4 i.p 0 0 (e / 512)) (e % 512))

/-- A SEND breaks the third item of R24. -/
def sendBad (x : Stream) (i : Placed) : Bool :=
  let e := sendRoute x i
  !srValid e || srStroke e != i.st || (famOf x != .one && decide (4 ≤ ttOf i.w / 1024 % 8))

/-- An instruction of an op class clashes with another of the class (R24, R61). -/
def clashes (op : Nat) (all : List Placed) (i : Placed) (same : Placed → Bool) : Bool :=
  opOf i.w == op && all.any fun j => opOf j.w == op && !(i.p == j.p && i.c == j.c && i.b == j.b && i.st == j.st) && same j

/-- The op fields of a quad's four words at a stroke; an absent word is a NOP. -/
def quadOps (all : List Placed) (i : Placed) : List Nat :=
  (List.range 4).map fun k =>
    match all.find? fun j => j.p == i.p && j.c == i.c && j.b == i.b / 4 * 4 + k && j.st == i.st with
    | some j => opOf j.w
    | none => 0

/-- A quad is partly WIDE (R53, R54). -/
def quadBad (ops : List Nat) : Bool :=
  let m := (ops.drop 1).map (· == 3)
  m.any id && !(ops.head? == some 3 && m.all id)

/-- A memory contribution. -/
def isMem (i : Placed) : Bool := opOf i.w == 6 || opOf i.w == 7
/-- Role, bit index and descriptor number of a contribution (R23). -/
def ctRole (i : Placed) : Nat := ttOf i.w / 2 ^ 14
def ctIdx (i : Placed) : Nat := ttOf i.w / 64 % 256
def ctDesc (i : Placed) : Nat := ttOf i.w % 64
/-- The descriptor that a contribution names. -/
def ctWord (x : Stream) (i : Placed) : Nat := streamWord x (frameKey 5 i.p 0 0 15) (ctDesc i)
/-- Contributions of one operation (R151). -/
def sameOp (i j : Placed) : Bool := i.p == j.p && i.st == j.st && ctDesc i == ctDesc j
/-- Values of a codeword (R154). -/
def valuesOf (x : Stream) (d : Nat) : Nat :=
  (if d / 2 ^ 60 % 4 = 2 then 256 else 64) / (if famOf x == .one then 1 else 2)

/-- A contribution breaks R171 against its descriptor. -/
def contribBad (x : Stream) (all : List Placed) (i : Placed) : Bool :=
  let d := ctWord x i
  let write := d / 2 ^ 62 % 2 == 1
  !descOk d || (opOf i.w == 7) != write ||
  (match ctRole i with
   | 0 => decide (28 < ctIdx i)
   | 1 => opOf i.w == 6 || decide (valuesOf x d ≤ ctIdx i)
   | 2 => ctIdx i != 0
   | _ => true) ||
  all.any fun j => isMem j && sameOp i j && together i j && ctRole j == ctRole i && ctIdx j == ctIdx i

/-- The deep-memory port or bank port of a contribution: pavilion and port, or terrace (R151). -/
def ctPort (x : Stream) (i : Placed) : Nat × Nat :=
  let k := ctWord x i / 2 ^ 60 % 4
  if k = 2 then (2, terraceOf i.p) else (k, i.p)

/-- Two operations use one port. -/
def samePort (x : Stream) (i j : Placed) : Bool :=
  isMem j && descOk (ctWord x j) && !sameOp i j && ctPort x i == ctPort x j

/-- Strokes apart around the course (R155). -/
def apart (l a b : Nat) : Nat := let d := if a ≤ b then b - a else a - b; min d (l - d)

/-- Offences of a memory contribution. -/
def memOffences (x : Stream) (all : List Placed) (i : Placed) : List Offence :=
  let d := ctWord x i
  let bad := fun (b : Bool) (code : Nat) => offend b i.addr code i.chunk
  if !isMem i then []
  else
    bad (contribBad x all i) ckDescriptor ++
    bad (descOk d && all.any fun j => j.st == i.st && samePort x i j) ckPort ++
    bad (descOk d && d / 2 ^ 62 % 2 == 1 && (List.range (valuesOf x d)).any fun v =>
      !all.any fun j => isMem j && sameOp i j && ctRole j == 1 && ctIdx j == v) ckNarrow ++
    bad (x.hdr.modes.getLsbD 5 && descOk d && (ctPort x i).1 == 2 &&
      all.any fun j => samePort x i j && decide (apart (hdrLen x) i.st j.st < 4)) ckTether

/-- Offences of one instruction. DESIGN CHOICE (notes/assumptions/92.md): the frame address reported for a partly WIDE quad is
that of its leader's type 1 frame, also where the image lists no such frame. -/
def instrOffences (s : State) (x : Stream) (part : Bool) (all : List Placed) (i : Placed) : List Offence :=
  let op := opOf i.w
  let tt := ttOf i.w
  let bad := fun (b : Bool) (code : Nat) => offend b i.addr code i.chunk
  let there := sourceThere (famOf x) fun e => (partPin s x part i.p e).testBit 31
  let ends := decide (2 ^ 15 ≤ tt)
  bad (decide (0xA < op) || ttReserved op tt) ckOp ++
  bad ([opaOf i.w, opbOf i.w, opcOf i.w, opdOf i.w].any fun n => !there n) ckSource ++
  bad (op == 4 && sendBad x i) ckSendUnscheduled ++
  bad (clashes 4 all i fun j => i.p == j.p && tt % 2 ^ 13 == ttOf j.w % 2 ^ 13) ckSendClash ++
  bad (clashes 8 all i fun j => together i j && tt % 64 == ttOf j.w % 64) ckPinoutClash ++
  bad (clashes 9 all i fun j => i.st == j.st && tt % 256 == ttOf j.w % 256 && (ends || decide (2 ^ 15 ≤ ttOf j.w))) ckLogClash ++
  offend (quadBad (quadOps all i)) (frameKey 1 i.p i.c (i.b / 4 * 4) (i.st / 512) * 128) ckQuad i.chunk ++
  bad (opbOf i.w == 0x421 && clashes 5 all i fun j =>
    together i j && i.c == j.c && opbOf j.w == 0x421 && tt % 4 == ttOf j.w % 4) ckDoubleDrive ++
  memOffences x all i

/-! The whole part. -/

/-- Every offence of a base part, or of a partial part of region `r`. -/
def offences (s : State) (x : Stream) (r : Option Nat) : List Offence :=
  let kind := if r.isSome then 1 else 0
  let all := placed x
  headerOffences s x kind ++ portOffences s x ++
  (match r with
   | some n => partialOffences s x n
   | none => []) ++
  addressOffences s x ++ x.frames.flatMap (fun f => if addrBad f then [] else contentOffences x f) ++ pinOffences x ++
  routeOffences s x ++ all.flatMap (instrOffences s x r.isSome all)

/-- An offence stands before another (R150). -/
def before (a b : Offence) : Bool := decide (a.addr < b.addr ∨ (a.addr = b.addr ∧ a.code < b.code))

/-- The first offence (R150). -/
def firstOffence (os : List Offence) : Option Offence :=
  os.foldl (fun m o => match m with
    | some b => if before o b then some o else some b
    | none => some o) none

end Sys2Proof.Machine
end

