-- ==== Sys2Proof/Machine/Loader.lean ====
section
/-! DEFINITION. Loading (R368 to R377): the load commands, pass A and its verdict, pass B of a base part and of a
partial part, the directory update, and the recovery load. -/

namespace Sys2Proof.Machine

/-! Jobs. -/

/-- A job that loads a whole base part. -/
def baseJob (j : Job) : Bool := j.object == 0 && !j.regional

/-- A load is in progress that is not partial: it stops the data plane from its start (R295). -/
def loadStart (j : Job) (s : State) : State :=
  let s1 := setWide 0x50010 0
    { s with ldr := { s.ldr with job := some j, passB := false, stream := none } }
  toLoader .manifest (iff (!j.regional) stopDataPlane s1)

/-- How a load ends (R368): completion code, check code, detail and address. -/
structure Verdict where
  code   : Nat
  check  : Nat
  detail : Nat
  addr   : Nat
  deriving DecidableEq, Repr

/-- A load that succeeds. -/
def okVerdict : Verdict := ⟨ccDone, 0, 0, 0⟩

/-- The result words of a load (R368). -/
def loadResult (v : Verdict) (s : State) : MbxRes :=
  let id := match s.ldr.stream with
    | some x => x.man.imageId.extractLsb' 0 32
    | none => 0
  { code := BitVec.ofNat 8 v.code, r0 := BitVec.ofNat 32 (v.check * 2 ^ 24 + v.detail * 2 ^ 16),
    r1 := BitVec.ofNat 32 v.addr, r2 := id, r3 := BitVec.ofNat 32 s.ldr.st.code }

/-- CFG.CHECK, CFG.CHECK_ADDR and last_code of the last load (R382, R383). -/
def noteVerdict (v : Verdict) (s : State) : State :=
  setFld fCfgLast v.code (setFld fCheck v.check (setFld fCheckDetail v.detail (setFld fCheckAddr v.addr s)))

/-- The loader is IDLE, with no job (R376). A load ends step 5 of R16 if the boot made it or it put an image in place. DESIGN
CHOICE (notes/assumptions/92.md): R16 does not say whether the ports train after a boot load that fails in pass B and whose
recovery load fails too; here they stay OFF until a later load places an image. -/
def loaderIdle (s : State) : State :=
  iff ((s.ldr.job.any fun j => j.op == 4) || (image s).isSome) openLinks
    (toLoader .idle { s with ldr := { s.ldr with job := none, passB := false, stream := none } })

/-- The load ends and the loader goes to IDLE; its completion waits to be written. -/
def endLoad (v : Verdict) (s : State) : State := mbxDue (loadResult v s) (loaderIdle (noteVerdict v s))

/-- The recovery load fails, or no entry exists: `LOAD_ABORTED`, and no image (R375). -/
def abortRecovery (s : State) : State :=
  logEvent evLoadAborted locNone 0 { s with cox := { s.cox with st := .noImage } }

/-- A load fails before pass B has written anything. -/
def failLoad (v : Verdict) (s : State) : State :=
  let rec_ := s.ldr.job.any (·.recovery)
  iff rec_ abortRecovery (endLoad v s)

/-! The commands (R368 to R370). -/

/-- The extent list of HOST, or zeros of NVM (R368). -/
def sourceArgsOk (host : Bool) (m : MbxArgs) : Bool :=
  if host then bits m.a1 0 6 == 0 && decide (1 ≤ m.a3.toNat ∧ m.a3.toNat ≤ 4096)
  else m.a1 == 0 && m.a2 == 0 && m.a3 == 0

/-- Bits of ARG[0] that LOAD_FULL (or LOAD_PARTIAL) leaves 0, and its source and object codes (R368, R369). -/
def loadArgsOk (part : Bool) (m : MbxArgs) : Bool :=
  let named : Word := if part then 0x3FC0F else 0xF0F
  m.a0 &&& ~~~named == 0 && decide (bits m.a0 0 4 ≤ 1) && bits m.a0 8 2 != 3 &&
    sourceArgsOk (bits m.a0 0 4 == 1) m

/-- The role that a LOAD_FULL of an object reads from NVM. -/
def objectRole (object : Nat) : Nat :=
  match object with
  | 0 => roleCurrent
  | 1 => roleShell
  | _ => roleFirmware

/-- What stops every load before it begins: a clock tree that failed self-test (R522), and from NVM a directory in
conflict or without the entry (R360, R368). -/
def loadBars (host : Bool) (entry : Option DirEntry) (s : State) : Option (Nat × Nat) :=
  if s.hlt.clocksBad then some (ccInternal, 0x17)
  else if host then none
  else if flag s fDirConflict then some (ccDirConflict, 0)
  else if entry.isNone then some (ccRollbackDenied, 2)
  else none

/-- A load that is refused at once. -/
def refuseLoad (code detail : Nat) (s : State) : State :=
  mbxDue (loadResult ⟨code, 0, detail, 0⟩ s) (noteVerdict ⟨code, 0, detail, 0⟩ s)

/-- The body of LOAD_FULL. -/
def loadFull (m : MbxArgs) (s : State) : State :=
  let host := bits m.a0 0 4 == 1
  let object := bits m.a0 8 2
  let store := m.a0.getLsbD 10
  let entry := dirEntry s (objectRole object) 0
  if !loadArgsOk false m then refuseLoad ccInternal 0x14 s
  else if object != 0 && !(store && s.cox.mode == .service) then refuseLoad ccRefusedMode 0 s
  else match loadBars host entry s with
  | some (c, d) => refuseLoad c d s
  | none =>
    loadStart { op := 1, host := host, object := BitVec.ofNat 2 object, store := store, auto := m.a0.getLsbD 11,
                region := 0, regional := false, recovery := false,
                role := BitVec.ofNat 8 (if host then 0 else objectRole object) } s

/-- LOAD_FULL (R368); in ROM recovery only firmware from the host, stored (R362). -/
def execLoadFull (m : MbxArgs) (s : State) : Res :=
  let inRom := bits m.a0 0 4 == 1 && bits m.a0 8 2 == 2 && m.a0.getLsbD 10
  .next (mbxWrite 0x20 true inRom m (loadFull m) s)

/-- The body of LOAD_PARTIAL. -/
def loadPartial (m : MbxArgs) (s : State) : State :=
  let host := bits m.a0 0 4 == 1
  let r := bits m.a0 12 6
  if !loadArgsOk true m then refuseLoad ccInternal 0x14 s
  else if s.ldr.stage = 0 then refuseLoad ccNotRunning 0 s
  else if !declared s r then refuseLoad ccOutOfRegion 0 s
  else match loadBars host (dirEntry s rolePartial r) s with
  | some (c, d) => refuseLoad c d s
  | none =>
    loadStart { op := 2, host := host, object := 0, store := m.a0.getLsbD 10, auto := m.a0.getLsbD 11,
                region := BitVec.ofNat 6 r, regional := true, recovery := false,
                role := BitVec.ofNat 8 (if host then 0 else rolePartial) } s

/-- LOAD_PARTIAL (R369). -/
def execLoadPartial (m : MbxArgs) (s : State) : Res := .next (mbxWrite 0x21 true false m (loadPartial m) s)

/-- The body of ROLLBACK; recovery leaves FAILED as it begins (R401). -/
def rollback (m : MbxArgs) (s : State) : State :=
  let regional := m.a0.getLsbD 7
  let r := bits m.a0 0 6
  let entry := if regional then rollbackEntry s r else dirEntry s rolePrevious 0
  if m.a0 &&& 0xFFFFFE40 != 0 then refuseLoad ccInternal 0x14 s
  else match loadBars false entry s with
  | some (c, d) => refuseLoad c d s
  | none =>
    if regional && !declared s r then refuseLoad ccOutOfRegion 0 s
    else
    let s1 := if s.scb.st == .failed then
        setFlag fRecOverflow false { s with scb := { s.scb with st := .idle, queue := [] } }
      else s
    loadStart { op := 3, host := false, object := 0, store := false, auto := m.a0.getLsbD 8,
                region := BitVec.ofNat 6 (if regional then r else 0), regional := regional, recovery := false,
                role := (entry.map (·.role)).getD 0 } s1

/-- ROLLBACK (R370). -/
def execRollback (m : MbxArgs) (s : State) : Res := .next (mbxWrite 0x22 true false m (rollback m) s)

/-! Pass A (R353, R371). -/

/-- The manifest kind that a job loads (R350, R353). -/
def wantedKind (j : Job) : Nat :=
  match j.object.toNat with
  | 1 => 2
  | 2 => 1
  | _ => if j.regional && j.role.toNat != roleCurrent then 4 else 3

/-- The floor that counts for a kind (R355). -/
def floorOf (s : State) (kind : Nat) : Nat :=
  match kind with
  | 1 => s.fuses.fwFloor.toNat
  | 2 => s.fuses.shFloor.toNat
  | _ => s.fuses.dsFloor.toNat

/-- A P-384 public key begins with 0x04 (R352). -/
def ecdsaForm (k : BitVec 776) : Bool := k.extractLsb' 768 8 == 4

/-- An LMS public key names the types LMS_SHA256_M32_H15 and LMOTS_SHA256_N32_W4 (R353). PRESUMED (notes/assumptions/76.md):
their type codes 7 and 3, and their places at its head, are those of SP 800-208. -/
def lmsTypes (k : BitVec 448) : Bool := k.extractLsb' 416 32 == 7 && k.extractLsb' 384 32 == 3

/-- Key slot `k` holds a key hash (R354). -/
def keyHeld (s : State) (k : Nat) (sha : BitVec 384) : Bool := look 0 s.fuses.keyHash k == sha

/-- A manifest obeys R352. -/
def manifestForm (m : Manifest) : Bool :=
  m.magic == 0x464E4D56 && m.format == 1 && m.zero && ecdsaForm m.ecdsaKey && decide (m.ver.toNat < 64) &&
    decide (16 ≤ m.chunkLog2.toNat ∧ m.chunkLog2.toNat ≤ 24) && m.bodyLen != 0 && m.chunks.toNat == chunkCount m

/-- The check of a manifest that fails first, by its detail (R353, details 1 to 5). -/
def manifestDetail (s : State) (kind : Nat) (m : Manifest) : Nat :=
  let k := m.keySlot.toNat
  if !manifestForm m || m.kind.toNat != kind || decide (7 < k) then 1
  else if decide (6 ≤ k) || !s.fuses.keyUse.getLsbD k || s.fuses.keyRev.getLsbD k then 2
  else if !keyHeld s k m.keySha then 3 else if !m.ecdsaOk then 4 else if !m.lmsOk || !lmsTypes m.lmsKey then 5 else 0

/-- The chunk table has the digest that the manifest holds (R353, detail 6). -/
def tableHeld (x : Stream) : Bool := x.tableSha == x.man.tableSha

/-- The first chunk whose digest is not the table's (R353, detail 7). -/
def badChunk (x : Stream) : Option Nat :=
  (List.range (chunkCount x.man)).find? fun i => x.chunkSha[i]? != x.table[i]?

/-- Offences that pass A finds in a design part. -/
def partOffences (s : State) (j : Job) (x : Stream) : List Offence :=
  match wantedKind j with
  | 3 => offences s x none
  | 4 => offences s x (some j.region.toNat)
  | _ => []

/-- A failed signature or digest, with the first offence of the chunks that had verified (R371). -/
def sigVerdict (detail : Nat) (os : List Offence) : Verdict :=
  match firstOffence os with
  | some o => ⟨ccSigFail, o.code, detail, o.addr⟩
  | none => ⟨ccSigFail, 0, detail, 0⟩

/-- What pass A finds: the loader state in which it ends, the bytes it has read, and the failure if there is one. -/
structure PassA where
  st    : LdState
  bytes : Nat
  fails : Option Verdict
  deriving DecidableEq, Repr

/-- Pass A of a stream that can be read (R353, R355, R371). -/
def passA (s : State) (j : Job) (x : Stream) : PassA :=
  let m := x.man
  let d := manifestDetail s (wantedKind j) m
  let head := bodyStart m
  if d ≠ 0 then ⟨.manifest, 4096, some ⟨ccSigFail, 0, d, 0⟩⟩
  else if m.version.toNat < floorOf s (wantedKind j) then ⟨.manifest, 4096, some ⟨ccRollbackDenied, 0, 1, 0⟩⟩
  else if !tableHeld x then ⟨.table, head, some ⟨ccSigFail, 0, 6, 0⟩⟩
  else
    let os := partOffences s j x
    match badChunk x with
    | some k =>
      ⟨.verify, head + min ((k + 1) * 2 ^ m.chunkLog2.toNat) m.bodyLen.toNat,
        some (sigVerdict 7 (os.filter fun o => decide (o.chunk < k)))⟩
    | none =>
      let all := head + m.bodyLen.toNat
      if !j.host && !((dirEntry s j.role.toNat j.region.toNat).any fun e => e.digest == m.digest) then ⟨.verify, all, some (sigVerdict 9 os)⟩
      else match firstOffence os with
      | some o => ⟨.verify, all, some ⟨checkCompletion o.code, o.code, 0, o.addr⟩⟩
      | none => ⟨.verify, all, none⟩

/-- Dies of the region's pavilions that are DOWN (R131). -/
def downDies (s : State) (r : Nat) : List Nat :=
  (List.range 4).filter fun d => (regionPavs s r).any fun p => dieOf p == d && portState s p == .down

/-- Recovery goes to IDLE with an empty queue, and the configuration scrubber starts anew at pavilion 0, as pass B of a
LOAD_FULL has it (R396, R401, R405). -/
def restartScrub (s : State) : State :=
  setReg 0x60004 0 (setFlag fRecHost false (setFlag fRecOverflow false
    { s with scb := { s.scb with st := .idle, queue := [], careUe := [] } }))

/-- Where the loader goes when pass A has passed (R376). -/
def afterPassA (j : Job) (s : State) : State :=
  if baseJob j then
    if inCourse s then raiseHalt hcCommand (toLoader .quiesce s)
    else if s.cox.st == .wait then haltHereAll hcCommand (toLoader .quiesce s)
    else toLoader .write (toLoader .quiesce s)
  else if j.regional then toLoader (if (downDies s j.region.toNat).isEmpty then .write else .wake) s
  else setWide 0x50010 0 (toLoader .write (restartScrub { s with ldr := { s.ldr with passB := true } }))

/-- PASS_A_END (R371): the source has been streamed, or could not be read. -/
def execPassAEnd (x : Option Stream) (s : State) : Res :=
  match s.ldr.job with
  | none => .next s
  | some j =>
    whenever (s.ldr.st == .manifest) s
      (match x with
       | none => failLoad ⟨ccInternal, 0, 2, 0⟩ s
       | some y =>
         let a := passA s j y
         let s1 := secureStep 2 (match a.fails with
           | some v => if v.detail ≠ 0 ∧ v.detail ≤ 5 then v.code else ccDone
           | none => ccDone) s
         let s2 := setWide 0x50010 (BitVec.ofNat 64 a.bytes)
           { s1 with ldr := { s1.ldr with stream := some y } }
         let s3 := if a.st == .manifest then s2 else toLoader .table s2
         let s4 := if a.st == .verify then toLoader .verify s3 else s3
         match a.fails with
         | some v => failLoad v s4
         | none => afterPassA j s4)

/-- QUIESCE_TIMEOUT (R375). -/
def execQuiesceTimeout (s : State) : Res := whenever (s.ldr.st == .quiesce) s (failLoad ⟨ccBusyInUse, 0, 0, 0⟩ s)

/-- LOADER_WAKE_TIMEOUT (R376): the dies that do not wake are DEAD (R126). -/
def execLoaderWakeTimeout (s : State) : Res :=
  match s.ldr.job with
  | some j =>
    whenever (s.ldr.st == .wake) s
      (failLoad ⟨ccWakeTimeout, 0, 0, 0⟩ ((downDies s j.region.toNat).foldl (fun x d => dieFails d x) s))
  | none => .next s

/-! Writing frames (R367, R372, R373). -/

/-- A frame that holds bank memory (R170). -/
def bankFrame (f : Frame) : Bool := frType f == 5 && decide (frPart f < 2)

/-- Writes the words of a frame into a configuration store. -/
def putFrame (m : Sparse (BitVec 72)) (f : Frame) : Sparse (BitVec 72) :=
  f.words.foldl (fun m e => upd 0 m (cfgKey (f.addr.toNat / 128) e.1) (encode72 e.2)) m

/-- Frame type of a configuration key; type 0 holds the dynamic routes, which no frame carries. -/
def keyType (k : Nat) : Nat := k / 512 / 2 ^ 21
/-- Pavilion of a configuration key. -/
def keyPav (k : Nat) : Nat := k / 512 / 2 ^ 14 % 128

/-- Every frame of every enabled pavilion is written; frames not listed are zero (R367). -/
def writeFrames (x : Stream) (s : State) : State :=
  let kept := s.cfg.filter fun e => keyType e.1 == 0
  let fs := x.frames.filter fun f => enabled s (frPav f) && !bankFrame f
  let cfg := fs.foldl putFrame kept
  { s with cfg := cfg, shadow := cfg.filter fun e => keyType e.1 == 3 && portState s (keyPav e.1) == .reconf }

/-- Entry of bank `b` in the bank power map of a stream (R191). -/
def newBankMap (x : Stream) (p b : Nat) : Nat := streamWord x (frameKey 5 p 0 0 15) (64 + b / 32) / 4 ^ (b % 32) % 4

/-- Writes the bank memory of one bank: what its type 5 frames hold, and zero elsewhere (R178). -/
def writeBankFrames (x : Stream) (p b : Nat) (s : State) : State :=
  let s1 := setBank p b 0 (emptyBank p b s)
  (x.frames.filter fun f => bankFrame f && frPav f == p && frCrew f == b).foldl (fun y f =>
    f.words.foldl (fun z e => writeBank (bankKey p (1024 * b + 512 * frPart f + e.1)) e.2 z) y) s1

/-- Bank memory of the pavilions that the stream uses and `p` selects: banks that the new map does not set off (R178). -/
def writeBanks (x : Stream) (sel : Nat → Bool) (s : State) : State :=
  (x.frames.filter fun f => frType f == 5 && frPart f == 15).foldl (fun y f =>
    let p := frPav f
    if hdrUses x p && enabled s p && sel p then
      (List.range 64).foldl (fun z b => if newBankMap x p b = 2 then z else writeBankFrames x p b z) y
    else y) s

/-- Deep memory named by the allocations of the new image is zeroed (R182). -/
def zeroDeep (x : Stream) (s : State) : State :=
  (x.hdr.allocs.filter fun e => alKind e.2 == 2).foldl (fun y e =>
    let lo := deepKey (alOwner e.2) (256 * alBase e.2)
    { y with deep := y.deep.filter fun w => !(decide (lo ≤ w.1) && decide (w.1 < lo + 256 * alSize e.2)) }) s

/-! Pass B of a base part (R372). -/

/-- SERVICE, pins released, flits discarded, ports unbound, the board left (R372 step 2). -/
def leaveRun (s : State) : State :=
  let s1 := applyMode { mode := .service, lockstep := false, fleetPins := false, course := 0 } s
  let s2 := dropNotices (fun _ => true) (leaveBoard (serviceEffects s1))
  { s2 with
    cox := { s2.cox with startMode := none, lockPre := false, moving := false, length := 0, stroke := 0, halts := [],
                         raised := [], reqs := [], stops := [] },
    net := { s2.net with flits := [], held := [] },
    dsp := { s2.dsp with bind := [], unbound := [], credits := [], unclaimed := [], staged := [], decided := [],
                         deadPav := [] },
    trc := { s2.trc with asm := [] },
    trg := { s2.trg with landings := [] },
    pins := { s2.pins with taken := 0, held := [] } }

/-- Data stores, wires, keepers, receive registers and read-data sources as a load leaves them (R29, R66, R115, R174);
memory operations not yet performed are gone, corrections still to be written back stay. -/
def clearFabric (s : State) : State :=
  { s with slots := [], groups := [], fab := { State.reset.fab with backs := s.fab.backs } }


/-- Pass B of a base part: the old image is gone and the new one is written. -/
def passB (x : Stream) (s : State) : State :=
  let s1 := restartScrub (clearFabric (leaveRun s))
  let s2 := zeroDeep x (writeBanks x (fun _ => true) (writeFrames x s1))
  revolt s
    { s2 with ldr := { s2.ldr with passB := true, image := none, fromHost := false, role := 0, stage := 0, target := 0,
                                   auto := false, regions := [] } }

/-- LOAD_PASS_B (R372). -/
def execLoadPassB (s : State) : Res :=
  match s.ldr.job, s.ldr.stream with
  | some j, some x => whenever (s.ldr.st == .write && baseJob j && !s.ldr.passB) s (setWide 0x50010 0 (passB x s))
  | _, _ => .next s

/-! Pass B of a partial part (R373). -/

/-- Ports of the image whose pavilion lies in a list. -/
def portsOf (s : State) (ps : List Nat) : List Nat :=
  match image s with
  | some i => (i.ports.filter fun e => peValid e.2 && ps.contains (pePav e.2)).map (·.1)
  | none => []

/-- The region leaves the run: local ports RECONF, ports closed, outputs released with no pull (R339, R373, R377). -/
def leaveRegion (ps : List Nat) (s : State) : State :=
  let ports := portsOf s ps
  let s1 := ps.foldl (fun x p => iff (enabled x p) (setPort p .reconf) x) s
  let s2 := dropNotices ports.contains (ports.foldl (fun x n => killPort n x) s1)
  let pins := ps.foldl (fun m p => m ||| outputPins s p) 0
  { s2 with
    dsp := { s2.dsp with deadPav := s2.dsp.deadPav ++ ps.filter (fun p => !s2.dsp.deadPav.contains p),
                         decided := s2.dsp.decided.filter fun d => !ports.contains d.port.toNat },
    pins := { s2.pins with held := s2.pins.held ++ ps.filter (fun p => !s2.pins.held.contains p),
                           drvOn := s2.pins.drvOn &&& ~~~pins, up := s2.pins.up &&& ~~~pins,
                           dn := s2.pins.dn &&& ~~~pins,
                           due := s2.pins.due.filter fun d => !pins.getLsbD d.pin.toNat } }

/-- Design state of the region's pavilions as the load leaves it. -/
def clearRegion (ps : List Nat) (s : State) : State :=
  let inP := fun (p : Nat) => ps.contains p
  let f := s.fab
  { s with
    slots := s.slots.filter fun e => !inP (e.1 / 2 ^ 20),
    groups := s.groups.filter fun e => !inP (e.1 / 2 ^ 16),
    fab := { f with wires := f.wires.filter fun e => !inP (e.1 / 256),
                    keepers := f.keepers.filter fun e => !inP (e.1 / 256),
                    sends := f.sends.filter fun e => !inP e.pav.toNat,
                    contribs := f.contribs.filter fun e => !inP e.pav.toNat,
                    drives := f.drives.filter fun e => !inP (e.crew / 64),
                    rx := f.rx.filter fun e => !inP (e.1 / 64),
                    rxNext := f.rxNext.filter fun e => !inP (e.key / 64),
                    bankSrc := f.bankSrc.filter fun e => !inP (e.1 / 2),
                    deepSrc := f.deepSrc.filter fun e => !inP e.1,
                    bankRds := f.bankRds.filter fun e => !inP e.pav.toNat,
                    deepRds := f.deepRds.filter fun e => !inP e.pav.toNat } }

/-- Frames of the region leave the recovery queue; an empty queue has nothing left to recover (R405). -/
def dropRegionFrames (ps : List Nat) (s : State) : State :=
  let q := s.scb.queue.filter fun a => !ps.contains (framePav a)
  let busy := s.scb.st == .waitHalt || s.scb.st == .needHost || s.scb.st == .read
  let s1 := careRewritten (fun k => ps.contains (keyPav (512 * k)))
    { s with scb := { s.scb with queue := q, st := if q.isEmpty && busy then .idle else s.scb.st } }
  iff (q.isEmpty && busy) (setFlag fRecHost false) s1

/-- The region's frames: all but the pin map, which belongs to the base image, and maps to the shadow (R128, R373). -/
def writeRegionFrames (x : Stream) (ps : List Nat) (s : State) : State :=
  let mine := fun (k : Nat) => ps.contains (keyPav k) && keyType k != 0 && keyType k != 7
  let fs := x.frames.filter fun f => ps.contains (frPav f) && !bankFrame f && frType f != 7
  let cfg := (fs.filter fun f => frType f != 3).foldl putFrame
    (s.cfg.filter fun e => !mine e.1 || keyType e.1 == 3)
  let sh := (fs.filter fun f => frType f == 3).foldl putFrame (s.shadow.filter fun e => !ps.contains (keyPav e.1))
  { s with cfg := cfg, shadow := sh }

/-- The image in place with the region's frames and the allocations of the partial part. -/
def mergeImage (x : Stream) (ps : List Nat) (b : Stream) : Stream :=
  let keep := b.frames.filter fun f => !ps.contains (frPav f) || frType f == 7
  let add := x.frames.filter fun f => ps.contains (frPav f) && frType f != 7
  { b with head := headMerge x.head b.head, frames := keep ++ add }

/-- The record of a region (R386). -/
def regionRec (s : State) (r : Nat) : Region :=
  (find s.ldr.regions r).getD
    { stage := s.ldr.stage, target := s.ldr.target, partial_ := false, dead := false, version := 0,
      fromHost := s.ldr.fromHost, since := none }

/-- Replaces the record of a region. -/
def setRegion (r : Nat) (g : Region) (s : State) : State := { s with ldr := { s.ldr with regions := ins s.ldr.regions r g } }

/-- Pass B of a partial part. -/
def partialPassB (j : Job) (x : Stream) (s : State) : State :=
  let r := j.region.toNat
  let ps := regionPavs s r
  let s0 := (downDies s r).foldl (fun y d => dieOn d y) s
  let s1 := setRegion r { regionRec s0 r with stage := 0, target := 0, dead := false, since := none } s0
  let s2 := dropRegionFrames ps (clearRegion ps (leaveRegion ps s1))
  let s3 := writeBanks x ps.contains (writeRegionFrames x ps s2)
  setWide 0x50010 0
    (toLoader .write { s3 with ldr := { s3.ldr with passB := true, image := s3.ldr.image.map (mergeImage x ps) } })

/-- PARTIAL_PASS_B (R373): a DOWN die has woken, or none had to. -/
def execPartialPassB (s : State) : Res :=
  match s.ldr.job, s.ldr.stream with
  | some j, some x =>
    whenever ((s.ldr.st == .write || s.ldr.st == .wake) && j.regional && !s.ldr.passB) s (partialPassB j x s)
  | _, _ => .next s

/-! The end of pass B (R372 to R376). -/

/-- An automatic release schedules all stages and starts the controller as a run command would (R379). -/
def autoRelease (s : State) : State :=
  let s1 := { s with ldr := { s.ldr with target := 3, auto := true } }
  if startable s1 then startLead none s1 else s1

/-- Dies that have been woken no longer bar a start (R474). -/
def clearDead (s : State) : State :=
  let m := (List.range 4).foldl (fun (a : BitVec 4) d => if dieIsOn s d then putBit a d false else a) s.pwr.dieDead
  { s with pwr := { s.pwr with dieDead := m, supplyLock := false } }

/-- The new image is in place: course 0, READY, and the board forms (R163, R229, R372). -/
def basePlaced (j : Job) (x : Stream) (role : Nat) (kept : Bool) (s : State) : State :=
  let s1 := setCourse 0
    { s with cox := { s.cox with st := .ready, length := hdrLen x, stroke := 0, started := false, stepping := none,
                                 lead := none },
             ldr := { s.ldr with image := some x, fromHost := j.host && !kept, role := BitVec.ofNat 8 role,
                                 stage := 0, target := 0, auto := false, regions := [] } }
  let s2 := clearDead (revolt s s1)
  if 1 < x.hdr.packageCount.toNat then formBoard s2 else s2

/-- A base part is done (R370, R372, R375, R379). -/
def baseDone (j : Job) (x : Stream) (s : State) : State :=
  let rolled := j.op == 3
  let role := if rolled || j.store then roleCurrent else j.role.toNat
  let s1 := iff rolled swapRoles (basePlaced j x role j.store s)
  let s2 := iff j.recovery (logEvent evLoadRecovered locNone j.role.toNat) s1
  let s3 := endLoad okVerdict s2
  iff j.auto autoRelease s3

/-- The course that starts next: the first after a partial load that ends now (R553). -/
def courseAfter (s : State) : Nat := if inCourse s then course s + 1 else course s

/-- The record of a region that a job has loaded: with a partial image in place, or, where ROLLBACK took its frames from
DESIGN_CURRENT, with none (R370, R386). -/
def loadedRegion (j : Job) (x : Stream) (auto host : Bool) (s : State) : Region :=
  let part := wantedKind j == 4
  { stage := 0, target := if auto then 3 else 0, partial_ := part, dead := false,
    version := if part then x.man.version else 0, fromHost := host, since := some (courseAfter s) }

/-- A region has its new partial (R373, R379, R386). -/
def regionDone (j : Job) (x : Stream) (s : State) : State :=
  endLoad okVerdict (setRegion j.region.toNat (loadedRegion j x j.auto (j.host && !j.store) s) s)

/-- The package starts again at step 3 of R16 after a firmware or shell load, its PCIE domain up (R368); from ROM
recovery FAULT# is released and it goes on at step 4 (R362). -/
def restartBoot (j : Job) (x : Stream) (s : State) : State :=
  let rom := s.pwr.boot == .recovery
  let v := okVerdict
  let s1 := mbxEnd (loadResult v s) (loaderIdle (noteVerdict v s))
  let s2 := if rom then setFlag fDirRecovery false
      { s1 with pwr := { s1.pwr with faultPin := false },
                ldr := { s1.ldr with fwVer := x.man.version, fwDig := x.man.digest } }
    else s1
  { s2 with pwr := { s2.pwr with boot := if rom && j.object == 2 then .keeper else .rom } }

/-- A load whose writes, and whose store if it has one, are done. -/
def loadDone (j : Job) (x : Stream) (s : State) : State :=
  if j.object != 0 then restartBoot j x s else if j.regional then regionDone j x s else baseDone j x s

/-- Pass B of a base part fails: the load completes at once, and the Keeper starts the recovery load (R375). -/
def baseFails (v : Verdict) (j : Job) (s : State) : State :=
  let s1 := mbxEnd (loadResult v s) (noteVerdict v s)
  if j.recovery then abortRecovery (loaderIdle s1)
  else toLoader .recover (mbxBegin 0x20 true false 0 { s1 with ldr := { s1.ldr with passB := false, stream := none } })

/-- Pass B of a partial part fails: the region's ports are DEAD (R375). -/
def regionFails (v : Verdict) (j : Job) (s : State) : State :=
  let r := j.region.toNat
  let s1 := (regionPavs s r).foldl (fun x p => iff (enabled x p) (fun y => adoptShadow p (setPort p .dead y)) x) s
  endLoad v (setRegion r { regionRec s1 r with dead := true, partial_ := false, version := 0 } s1)

/-- Pass B fails with a verdict. -/
def passBFails (v : Verdict) (j : Job) (s : State) : State :=
  if baseJob j then baseFails v j s else if j.regional then regionFails v j s else endLoad v s

/-- LOAD_WRITE_DONE (R375, R376). CFG.BYTES then counts the bytes that pass B has read, after the last write all of the
stream (R384). -/
def execLoadWriteDone (w : WriteEnd) (s : State) : Res :=
  match s.ldr.job, s.ldr.stream with
  | some j, some x =>
    let all := BitVec.ofNat 64 (bodyStart x.man + x.man.bodyLen.toNat)
    let s1 := setWide 0x50010 (if w.outcome = 0 then all else w.bytes) s
    whenever (s.ldr.st == .write && s.ldr.passB) s
      (match w.outcome.toNat with
       | 0 => if j.store then toLoader .store s1 else loadDone j x s1
       | 1 => passBFails ⟨ccSourceChanged, 0, 0, 0⟩ j s1
       | _ => passBFails ⟨ccInternal, 0, 2, 0⟩ j s1)
  | _, _ => .next s

/-- The directory names the stream that was stored (R361, R362, R372, R373). -/
def storeStream (j : Job) (x : Stream) (s : State) : State :=
  if j.object = 2 ∧ s.pwr.boot = .recovery then
    let d := sealDir { noDir with sequence := 1, entries := [newEntry roleFirmware 0 x.man s] }
    setWide 0x50034 1 (setFlag fDir0 true (setFlag fDir1 true (setFlag fDirConflict false (setFlag fDirUse false
      { s with ldr := { s.ldr with dir0 := d, dir1 := d } }))))
  else if j.regional then storeEntry rolePartial j.region.toNat x.man s
  else storeEntry (objectRole j.object.toNat) 0 x.man s

/-- Flash programming failed: the loaded image stays, in READY, and the directory is unchanged (R375). -/
def storeFails (j : Job) (x : Stream) (s : State) : State :=
  let v : Verdict := ⟨ccInternal, 0, 0x13, 0⟩
  if baseJob j then endLoad v (basePlaced j x j.role.toNat false s)
  else if j.regional then endLoad v (setRegion j.region.toNat (loadedRegion j x false j.host s) s)
  else endLoad v s

/-- LOAD_STORE_DONE (R376). -/
def execLoadStoreDone (ok : Bool) (s : State) : Res :=
  match s.ldr.job, s.ldr.stream with
  | some j, some x =>
    whenever (s.ldr.st == .store) s (if ok then loadDone j x (storeStream j x s) else storeFails j x s)
  | _, _ => .next s

/-- LOAD_RECOVERY (R375): the Keeper loads DESIGN_CURRENT, or DESIGN_PREVIOUS if the failed load was of
DESIGN_CURRENT; with no such entry the load ends. -/
def execLoadRecovery (s : State) : Res :=
  match s.ldr.job with
  | some j =>
    whenever (s.ldr.st == .recover) s
      (let role := if j.role.toNat = roleCurrent then rolePrevious else roleCurrent
       match dirInUse s, dirEntry s role 0 with
       | some d, some _ =>
         loadStart { op := 1, host := false, object := 0, store := false, auto := d.autoRelease, region := 0,
                     regional := false, recovery := true, role := BitVec.ofNat 8 role } s
       | _, _ => abortRecovery (endLoad ⟨ccRollbackDenied, 0, 2, 0⟩ s))
  | none => .next s

end Sys2Proof.Machine
end

