-- ==== Sys2Proof/Machine/Release.lean ====
section
/-! DEFINITION. RELEASE (R378 to R380) and INSTALL_TOKEN (R357). -/

namespace Sys2Proof.Machine

/-- RELEASE's argument obeys R380. -/
def releaseArgOk (v : Word) : Bool := v &&& 0xFFF880F8 == 0 && decide (bits v 0 3 ≤ 2)

/-- The target after an action: the next stage, or all. -/
def nextTarget (action target : Nat) : Nat :=
  match action with
  | 1 => min 3 (target + 1)
  | 2 => 3
  | _ => target

/-- Raises an anti-rollback floor (R355, R380): fuses are blown and `FLOOR_RAISED` is logged. Counter 0 firmware,
1 shell, 2 design. A version at or below the floor changes nothing. -/
def raiseFloor (k : Nat) (ver : BitVec 6) (s : State) : State :=
  let old := match k with
    | 0 => s.fuses.fwFloor
    | 1 => s.fuses.shFloor
    | _ => s.fuses.dsFloor
  if ver ≤ old then s
  else
    let f := match k with
      | 0 => { s.fuses with fwFloor := ver }
      | 1 => { s.fuses with shFloor := ver }
      | _ => { s.fuses with dsFloor := ver }
    logEvent evFloorRaised (locUnit k 0) ver.toNat (secureStep 4 ccDone { s with fuses := f })

/-- The commit bits of RELEASE. -/
def commits (v : Word) (s : State) : State :=
  let s1 := match v.getLsbD 16, image s with
    | true, some i => raiseFloor 2 i.man.version s
    | _, _ => s
  let s2 := iff (v.getLsbD 17) (raiseFloor 1 s1.ldr.shVer) s1
  iff (v.getLsbD 18) (raiseFloor 0 s2.ldr.fwVer) s2

/-- RELEASE on the base image. -/
def releaseBase (v : Word) (s : State) : State × MbxRes :=
  let a := bits v 0 3
  if a ≠ 0 ∧ (image s).isNone then (s, mbxFail ccNotRunning 0)
  else
    let t := nextTarget a s.ldr.target
    (commits v { s with ldr := { s.ldr with target := t } }, mbxRes ccDone t)

/-- RELEASE on a region: a loaded partial awaits it. -/
def releaseRegion (v : Word) (s : State) : State × MbxRes :=
  let a := bits v 0 3
  let r := bits v 9 6
  let g := regionRec s r
  let loaded := (image s).isSome && (g.partial_ || g.since.isSome) && !g.dead
  if a ≠ 0 ∧ !loaded then (s, mbxFail ccNotRunning 0)
  else
    let t := nextTarget a g.target
    (commits v (iff loaded (setRegion r { g with target := t }) s), mbxRes ccDone t)

/-- The body of RELEASE. -/
def release (v : Word) (s : State) : State × MbxRes :=
  if !releaseArgOk v then (s, mbxFail ccInternal 0x14)
  else if v.getLsbD 8 then releaseRegion v s
  else releaseBase v s

/-- RELEASE (R380). -/
def execRelease (m : MbxArgs) (s : State) : Res := .next (mbxShort 0x12 m (release m.a0) s)

/-! Tokens (R357). -/

/-- The detail of the check that a token fails first (R353, R357), 0 if none. -/
def tokenDetail (s : State) (t : TokenIn) : Nat :=
  let k := t.keySlot.toNat
  if t.magic != 0x4E4B5456 || t.format != 1 || !t.zero || !ecdsaForm t.ecdsaKey || decide (k ≠ 6 ∧ k ≠ 7) ||
      t.rights &&& 0xFFFFFFFC != 0 then 1
  else if !s.fuses.keyUse.getLsbD k || s.fuses.keyRev.getLsbD k then 2
  else if !keyHeld s k t.keySha then 3 else if !t.ecdsaOk then 4 else if !t.lmsOk || !lmsTypes t.lmsKey then 5
  else if t.deviceId != s.fuses.deviceId || t.nonce != wideReg s 0x40044 then 8 else 0

/-- The body of INSTALL_TOKEN: an address of 0 removes the token; `tok` is none when the host read failed. -/
def installToken (m : MbxArgs) (tok : Option TokenIn) (s : State) : State × MbxRes :=
  if m.a0 = 0 ∧ m.a1 = 0 then ({ s with ldr := { s.ldr with token := none } }, mbxRes ccDone 0)
  else match tok with
  | none => (s, mbxFail ccInternal 2)
  | some t =>
    let d := tokenDetail s t
    if d ≠ 0 then (secureStep 6 ccSigFail s, mbxFail ccSigFail d)
    else
      let r : BitVec 2 := t.rights.extractLsb' 0 2
      (logEvent evTokenInstalled locNone r.toNat (secureStep 6 ccDone { s with ldr := { s.ldr with token := some r } }),
        mbxRes ccDone 0)

/-- INSTALL_TOKEN. -/
def execInstallToken (m : MbxArgs) (tok : Option TokenIn) (s : State) : Res :=
  .next (mbxShort 0x14 m (installToken m tok) s)

end Sys2Proof.Machine
end

