-- ==== Sys2Proof/Machine/Health.lean ====
section
/-! DEFINITION. Repair (R69, R70, R523 to R526), MARCH, BIST and FUSE_REPAIR (R525, R527, R528), and the health
monitors with their responses (R94, R529 to R531). -/

namespace Sys2Proof.Machine

/-! Repair. -/

/-- SPARE_CREW of a pavilion (R74). -/
def spareCrewA (p : Nat) : Nat := pavA p + 0x310
/-- SPARE_BP of a crew (R75). -/
def spareBpA (p c : Nat) : Nat := pavA p + 0x400 + 4 * c

/-- What a fault took: 0 a spare row or column, 1 a spare BP or spare crew, 2 nothing could take it (R527). -/
abbrev Cover := Nat

/-- A pavilion is retired (R524). -/
def retire (p : Nat) (s : State) : State :=
  if enabled s p then
    logEvent evPavilionRetired (locPav p 0) 0
      (dropRoutesTo p { s with hlt := { s.hlt with retired := s.hlt.retired ++ [p] } })
  else s

/-- What a crew's spare BP, whose register reads `v`, becomes when a fault is found in BP `b` of the crew (0–15), in the
spare BP itself (16) or not in one BP's words (17); none where the crew as a whole needs a replacement (R69, R70). -/
def takeBp (v : BitVec 32) (b : Nat) : Option (BitVec 32) :=
  if b = 17 then none
  else if b = 16 then if v.getLsbD 31 then none else some (v ||| 0x40000000)
  else if v.getLsbD 31 && bits v 0 4 == b then some v
  else if v.getLsbD 31 || v.getLsbD 30 then none
  else some (BitVec.ofNat 32 (2 ^ 31 + b))

/-- The spare crew takes a crew, whose SPARE_BP then describes the spare crew's own spare BP, or the pavilion is retired
(R70, R75, R524). -/
def useSpareCrew (p c : Nat) (s : State) : Cover × State :=
  let v := reg s (spareCrewA p)
  if v.getLsbD 31 || v.getLsbD 30 then (2, retire p s)
  else (1, setReg (spareBpA p c) (look 0 s.hlt.ownSpare p) (setReg (spareCrewA p) (BitVec.ofNat 32 (2 ^ 31 + c)) s))

/-- A crew needs a replacement for BP `b`, for its spare BP (16), or as a whole (17) (R69, R70); nothing more where the
spare crew already serves it. -/
def replaceBp (p c b : Nat) (s : State) : Cover × State :=
  let crew := reg s (spareCrewA p)
  if crew.getLsbD 31 && bits crew 0 6 == c then (1, s)
  else match takeBp (reg s (spareBpA p c)) b with
    | some v => (1, setReg (spareBpA p c) v s)
    | none => useSpareCrew p c s

/-- The same in the pavilion's spare crew (R70, R75): its own spare BP takes the fault, shown in the served crew's SPARE_BP;
where it cannot, the spare crew is bad, or the pavilion retired if the spare crew is in use (R524). -/
def replaceSpare (p b : Nat) (s : State) : Cover × State :=
  let crew := reg s (spareCrewA p)
  match takeBp (look 0 s.hlt.ownSpare p) b with
  | some v => (1, iff (crew.getLsbD 31) (setReg (spareBpA p (bits crew 0 6)) v)
      { s with hlt := { s.hlt with ownSpare := upd 0 s.hlt.ownSpare p v } })
  | none => if crew.getLsbD 31 then (2, retire p s) else (1, setReg (spareCrewA p) (crew ||| 0x40000000) s)

/-- Spare rows and columns of an array (R523), by kind of fault. -/
def spareLines (kind : Nat) : Nat :=
  match kind with
  | 0 => 12
  | 1 => 2
  | 2 => 10
  | _ => 0

/-- The BP of the spare crew that a record names, 16 for its own spare BP and 17 for all of it; none for a record of a
logical crew. -/
def spareRec (f : FaultRec) : Option Nat :=
  if f.bp.toNat = 18 then some 17 else if 32 ≤ f.bp.toNat then some (f.bp.toNat - 32) else none

/-- Key of an array among those with spare rows and columns; the spare crew's stores stand as those of crew 64. -/
def arrayKey (f : FaultRec) : Nat :=
  (f.kind.toNat * 128 + f.pav.toNat) * 128 +
    (if f.kind.toNat < 2 ∧ spareRec f ≠ none then 64 else f.crew.toNat)

/-- Applies one repair record: the first resource of R523 that can take it. -/
def repairOne (f : FaultRec) (s : State) : Cover × State :=
  let k := f.kind.toNat
  let p := f.pav.toNat
  let used := look 0 s.hlt.spares (arrayKey f)
  if !enabled s p then (2, s)
  else if k < 3 ∧ used < spareLines k then
    (0, { s with hlt := { s.hlt with spares := upd 0 s.hlt.spares (arrayKey f) (used + 1) } })
  else if k = 2 ∨ k = 4 then (2, retire p s)
  else if 5 ≤ k then (2, (pavsOfDie (dieOf p)).foldl (fun x q => retire q x) s)
  else match spareRec f with
    | some b => replaceSpare p b s
    | none => replaceBp p f.crew.toNat f.bp.toNat s

/-- Applies records in order, counting what took them: by row or column, by spare BP or crew, by nothing. -/
def repairAll (fs : List FaultRec) (s : State) : (Nat × Nat × Nat) × State :=
  fs.foldl (fun (n, x) f =>
    let (c, y) := repairOne f x
    (match c with
     | 0 => (n.1 + 1, n.2.1, n.2.2)
     | 1 => (n.1, n.2.1 + 1, n.2.2)
     | _ => (n.1, n.2.1, n.2.2 + 1), y)) ((0, 0, 0), s)

/-- Spare crews of the enabled pavilions neither used nor bad (R541). -/
def sparesLeft (s : State) : Nat :=
  (allPavs.filter fun p => enabled s p && bits (reg s (spareCrewA p)) 30 2 == 0).length

/-- The condition of REPLACE# holds (R526). -/
def replaceDue (s : State) : Bool :=
  decide (sparesLeft s < 8) || (allPavs.any fun p => enabled s p && (reg s (spareCrewA p)).getLsbD 31) ||
    !s.hlt.retired.isEmpty || !s.fuses.retired.isEmpty

/-- After a repair: REPLACE#, the flag and the event, once per power-on (R526). -/
def checkReplace (s : State) : State :=
  if replaceDue s && !s.hlt.replaced then
    logEvent evReplaceAsserted locNone (sparesLeft s)
      (alert 6 { s with pwr := { s.pwr with replacePin := true }, hlt := { s.hlt with replaced := true } })
  else s

/-- Adds soft records that do not stand there yet. -/
def addSoft (fs : List FaultRec) (wait : Bool) (s : State) : State :=
  let new := fs.filter fun f => !s.hlt.soft.contains f
  { s with hlt := { s.hlt with soft := s.hlt.soft ++ new, waiting := if wait then s.hlt.waiting ++ new else s.hlt.waiting } }

/-- Applies the records of a preserving MARCH that still wait (R527). -/
def repairWaiting (s : State) : State :=
  checkReplace (repairAll s.hlt.waiting { s with hlt := { s.hlt with waiting := [] } }).2

/-- Slices of memory, logic and retention, with the dies they cover (R521). -/
def repairSlice (k : Nat) : Option (Option Nat) :=
  if 0x04 ≤ k ∧ k < 0x14 then some (some (k % 4)) else if k = 0x21 ∨ k = 0x22 then some none else none

/-- A failing slice all of whose faults were repaired reads 2 (R537). -/
def noteRepaired (s : State) : State :=
  (List.range 0x23).foldl (fun x k =>
    let f : Fld := ⟨0x30000 + 4 * k, 28, 4⟩
    match repairSlice k with
    | some d =>
      let inDie := fun (p : Nat) => d.all fun n => dieOf p == n
      if fld x f = 3 && (x.hlt.soft.any fun r => inDie r.pav.toNat) && !(x.hlt.retired.any inDie) then setFld f 2 x else x
    | none => x) s

/-- Step 4 of R16: fuse records first, soft records second (R524). -/
def applyRepairs (s : State) : State :=
  if s.hlt.applied then s
  else
    let s1 := (repairAll s.fuses.repairs s).2
    let s2 := (repairAll s1.hlt.soft s1).2
    let s3 := noteRepaired { s2 with hlt := { s2.hlt with applied := true, waiting := [] } }
    checkReplace (logEvent evRepairApplied locNone s3.hlt.soft.length s3)

/-! Self-test slices (R521, R522), at power-on and in BIST. -/

/-- Result field of HLT.POST[k] (R537). -/
def fPost (k : Nat) : Fld := ⟨0x30000 + 4 * k, 28, 4⟩
def fPostUs (k : Nat) : Fld := ⟨0x30000 + 4 * k, 0, 15⟩

/-- The event of a failing slice (R522). -/
def postFails (k : Nat) (s : State) : State := logEvent evPostFail (locUnit k 0) k s

/-- Good bits of the sensors but those that fail, each of which is logged (R522). -/
def tempSlice (bad : List Nat) (s : State) : State :=
  let s1 := (List.range 72).foldl (fun x n => setFlag ⟨0x30100 + 4 * n, 31, 1⟩ (!bad.contains n) x) s
  ((List.range 72).filter bad.contains).foldl (fun x n => logEvent evSensorBad (locUnit n 0) n (alert 4 x)) s1

/-- A rail whose monitor fails counts as in its warning window until the next power-on (R522). -/
def voltSlice (bad : List Nat) (s : State) : State :=
  ((List.range 6).filter bad.contains).foldl (fun x r =>
    logEvent evVoltWarn (locUnit r 0) r (alert 2 (setFld ⟨0x30300 + 4 * r, 14, 2⟩ 3 x))) s

/-- The ring oscillators have been read: each count is a free value. -/
def processSlice (s : State) : State :=
  allPavs.foldl (fun x p => if enabled x p then
    draw (setFld ⟨0x30400 + 4 * p, 0, 16⟩ (Config.freeWord x.free).toNat x) else x) s

/-- A fault that a memory, logic or retention slice can find. -/
def sliceFault (k : Nat) (f : FaultRec) : Bool :=
  let d := dieOf f.pav.toNat == k % 4
  if k < 8 then f.kind == 0 && d
  else if k < 0xC then f.kind == 1 && d
  else if k < 0x10 then f.kind == 2 && d
  else if k < 0x14 then decide (3 ≤ f.kind.toNat) && d
  else decide (f.kind.toNat < 3)

/-- What a slice that fails brings (R522); GLB.STATUS and HLT.ALERT flag every failing slice. -/
def sliceFails (k : Nat) (bad : List Nat) (faults : List FaultRec) (s : State) : State :=
  let x := alert 5 (setFlag fPostFail true s)
  if k = 0 then postFails k { x with hlt := { x.hlt with clocksBad := true }, pwr := { x.pwr with faultPin := true } }
  else if k = 1 then tempSlice bad x
  else if k = 2 then voltSlice bad x
  else if k = 3 then x
  else if 0x14 ≤ k ∧ k < 0x1C then postFails k (setFlag ⟨lnkA (k - 0x14), 0, 1⟩ false x)
  else if 0x1C ≤ k ∧ k < 0x20 then postFails k (setFlag ⟨0xC0004, k - 0x1C, 1⟩ false x)
  else if k = 0x20 then postFails k x
  else postFails k (addSoft (faults.filter (sliceFault k)) false x)

/-- What a slice that passes, or is taken as passed, brings. -/
def slicePasses (k : Nat) (s : State) : State :=
  if k = 1 then tempSlice [] s
  else if 0x1C ≤ k ∧ k < 0x20 then setFlag ⟨0xC0004, k - 0x1C, 1⟩ true s
  else s

/-! MARCH, BIST and FUSE_REPAIR. -/

/-- An operation that overwrites design state: SERVICE, pins high impedance, NO_IMAGE (R208, R527). -/
def dropImage (s : State) : State :=
  let s1 := serviceEffects (applyMode { mode := .service, lockstep := false, fleetPins := false, course := 0 } s)
  revolt s
    { s1 with cox := { s1.cox with st := .noImage, length := 0, stroke := 0, startMode := none },
              ldr := { s1.ldr with image := none, fromHost := false, role := 0, stage := 0, target := 0, auto := false,
                                   regions := [] } }

/-- The controller stands in WAIT, RUN or EASY. -/
def controllerBusy (s : State) : Bool := inCourse s || s.cox.st == .wait

/-- MARCH's arguments obey R527. -/
def marchArgsOk (m : MbxArgs) : Bool :=
  let alg := bits m.a0 0 2
  m.a0 &&& 0xFF00F8EC == 0 && alg != 3 && !(m.a0.getLsbD 4 && alg == 2) && m.a1 &&& 0xFFFFC000 == 0 &&
    decide (bits m.a1 0 14 ≤ 10000) && m.a2 == 0 && m.a3 == 0

/-- The pavilions under a MARCH (R527). -/
def marchPav (m : MbxArgs) (s : State) (p : Nat) : Bool := enabled s p && (m.a0.getLsbD 23 || bits m.a0 16 7 == p)

/-- A fault that this MARCH can find; a preserving run skips banks that are not on (R527). -/
def marched (m : MbxArgs) (s : State) (f : FaultRec) : Bool :=
  decide (f.kind.toNat < 3) && m.a0.getLsbD (8 + f.kind.toNat) && marchPav m s f.pav.toNat &&
    !(m.a0.getLsbD 4 && f.kind == 2 && bankState s f.pav.toNat f.crew.toNat != 0)

/-- Schedule words (frame type 1) or initial data (type 2) of the pavilions under a test are overwritten: they read zero
from then on (DESIGN CHOICE, notes/assumptions/62.md). -/
def wipeFrames (ty : Nat) (inP : Nat → Bool) (s : State) : State :=
  { s with cfg := s.cfg.filter fun e => !(keyType e.1 == ty && inP (keyPav e.1)) }

/-- Data stores of the pavilions under a test are overwritten. -/
def wipeData (inP : Nat → Bool) (s : State) : State :=
  wipeFrames 2 inP { s with slots := s.slots.filter fun e => !inP (e.1 / 2 ^ 20),
                            groups := s.groups.filter fun e => !inP (e.1 / 2 ^ 16) }

/-- Banks under a test are powered for the test alone: they are off afterwards and hold no contents (R191). -/
def dropBanks (inP : Nat → Bool) (s : State) : State :=
  allPavs.foldl (fun x p => if inP p then (List.range 64).foldl (fun y b => setBank p b 2 y) x else x)
    { s with bank := s.bank.filter fun e => !inP (e.1 / 65536) }

/-- What a destructive test of the arrays selected (bit 0 schedule store, 1 data stores, 2 bank memory) leaves. -/
def wipeArrays (arrays : BitVec 3) (inP : Nat → Bool) (s : State) : State :=
  iff (arrays.getLsbD 2) (dropBanks inP) (iff (arrays.getLsbD 1) (wipeData inP) (iff (arrays.getLsbD 0) (wipeFrames 1 inP) s))

/-- The step code of an array (R527). -/
def arrayStep (kind : Nat) : Nat := 4 * (kind + 1)

/-- MARCH_FAULT for the first fault of each pavilion (R527). -/
def logFaults (fs : List FaultRec) (s : State) : State :=
  allPavs.foldl (fun x p => match fs.find? fun f => f.pav.toNat == p with
    | some f => logEvent evMarchFault (locBp p f.crew.toNat (f.bp.toNat % 16) 0) (arrayStep f.kind.toNat) x
    | none => x) s

/-- The body of MARCH. -/
def march (m : MbxArgs) (faults : List FaultRec) (s : State) : State :=
  if !marchArgsOk m then mbxRefuse ccInternal 0x14 s
  else if controllerBusy s then mbxRefuse ccBusyInUse 0 s
  else
    let fs := faults.filter (marched m s)
    let keep := m.a0.getLsbD 4
    let s1 := if keep then s else repairWaiting (wipeArrays (m.a0.extractLsb' 8 3) (marchPav m s) (dropImage s))
    let s2 := [0, 1, 2].foldl (fun x k => iff (m.a0.getLsbD (8 + k)) (showStep (arrayStep k)) x) s1
    let s3 := logFaults fs s2
    let ((a, b, c), s4) := repairAll fs s3
    let s5 := addSoft fs keep (if keep then s3 else checkReplace s4)
    mbxDue { code := BitVec.ofNat 8 ccDone, r0 := BitVec.ofNat 32 fs.length, r1 := BitVec.ofNat 32 a,
             r2 := BitVec.ofNat 32 b, r3 := BitVec.ofNat 32 c } s5

/-- MARCH (R527): `faults` are the faulty words that the run finds. -/
def execMarch (m : MbxArgs) (faults : List FaultRec) (s : State) : Res :=
  .next (mbxWrite 0x23 true false m (march m faults) s)

/-- The array that a memory slice overwrites. -/
def sliceArrays (k : Nat) : BitVec 3 :=
  if 0x04 ≤ k ∧ k < 0x08 then 1 else if 0x08 ≤ k ∧ k < 0x0C then 2 else if 0x0C ≤ k ∧ k < 0x10 then 4 else 0

/-- A Daxair slice takes an expected port of the board out of ACTIVE (R528), and one that fails leaves it in OFF (R522). -/
def slicePort (k : Nat) (fails : Bool) (s : State) : State :=
  if 0x14 ≤ k ∧ k < 0x1C ∧ (lnkPort s (k - 0x14)).st ≠ .off then
    if fails then leavePort (k - 0x14) .off lcCommand s
    else if portExpected s (k - 0x14) && onBoard s then leavePort (k - 0x14) .detect lcCommand s else s
  else s

/-- A slice of BIST that does not pass: R522, with the repairs applied at once (R527). -/
def bistFails (b : BistIn) (k : Nat) (s : State) : State :=
  let fs := b.faults.filter (sliceFault k)
  let s1 := sliceFails k ((if k = 1 then b.sensors else b.rails).map BitVec.toNat) b.faults s
  if repairSlice k = none then setFld (fPost k) 3 s1
  else
    let ((_, _, c), s2) := repairAll fs s1
    setFld (fPost k) (if c = 0 ∧ fs ≠ [] then 2 else 3) s2

/-- BIST runs one slice (R528). -/
def bistSlice (b : BistIn) (k : Nat) (s : State) : State :=
  let s1 := showStep k (wipeArrays (sliceArrays k) (fun p => enabled s p && dieOf p == k % 4) s)
  if b.late.getLsbD k then
    setFld (fPost k) 4 (setFld (fPostUs k) 20000 (slicePasses k (logEvent evIncomplete (locUnit k 0) k (slicePort k false s1))))
  else
    let s2 := setFld (fPostUs k) (b.us.getD k 0).toNat (slicePort k (b.failed.getLsbD k) s1)
    if b.failed.getLsbD k then bistFails b k s2
    else setFld (fPost k) 1 (slicePasses k (if k = 3 then processSlice s2 else s2))

/-- The body of BIST. -/
def bist (m : MbxArgs) (b : BistIn) (s : State) : State :=
  if controllerBusy s then mbxRefuse ccBusyInUse 0 s
  else
    let s2 := checkReplace ((ones m.a0).foldl (fun x k => bistSlice b k x) (repairWaiting (dropImage s)))
    mbxDue (mbxRes ccDone (m.a0 &&& b.failed &&& ~~~b.late).toNat) s2

/-- BIST (R528): `b` is what the slices find. -/
def execBist (m : MbxArgs) (b : BistIn) (s : State) : Res :=
  .next (mbxWrite 0x24 true false m (bist m b) s)

/-- A rail is in its warning or fault window, or is treated so (R522, R525). -/
def railBad (s : State) : Bool := (List.range 6).any fun r => fld s ⟨0x30300 + 4 * r, 14, 2⟩ != 0

/-- The body of FUSE_REPAIR. -/
def fuseRepair (m : MbxArgs) (s : State) : State :=
  if m.a0 &&& 0xFFFFFFFE != 0 then mbxRefuse ccInternal 0x14 s
  else if s.cox.mode != .service then mbxRefuse ccRefusedMode 0 s
  else if controllerBusy s then mbxRefuse ccBusyInUse 0 s
  else if railBad s then mbxRefuse ccInternal 0x16 s
  else
    let s0 := repairWaiting (dropImage s)
    let n := s0.hlt.soft.length
    let total := s0.fuses.repairs.length + n
    if 2048 < total then mbxRefuse ccInternal 0x15 s
    else
      let f := { s0.fuses with
        repairs := s0.fuses.repairs ++ s0.hlt.soft,
        retired := if m.a0.getLsbD 0 then s0.fuses.retired ++ s0.hlt.retired else s0.fuses.retired }
      let s1 := logEvent evFuseRepaired locNone n
        (secureStep 4 ccDone { s0 with fuses := f, hlt := { s0.hlt with soft := [] } })
      mbxDue { code := BitVec.ofNat 8 ccDone, r0 := BitVec.ofNat 32 n, r1 := BitVec.ofNat 32 (2048 - total), r2 := 0,
               r3 := 0 } s1

/-- FUSE_REPAIR (R525). -/
def execFuseRepair (m : MbxArgs) (s : State) : Res := .next (mbxWrite 0x25 true false m (fuseRepair m) s)

/-! Health monitors (R529, R530). -/

/-- A temperature in 1/16 °C. -/
def degrees (t : BitVec 16) : Int := t.toInt

/-- HLT.TEMP[s].good. -/
def sensorGood (s : State) (n : Nat) : Bool := (reg s (0x30100 + 4 * n)).getLsbD 31

/-- The good sensors of a sample. -/
def goodTemps (s : State) (h : HealthIn) : List (Nat × BitVec 16) :=
  ((List.range 72).filter (sensorGood s)).map fun n => (n, h.temps.getD n 0)

/-- The hottest good reading, of the lowest-numbered sensor on a tie. -/
def hottest (l : List (Nat × BitVec 16)) : Option (Nat × BitVec 16) :=
  l.foldl (fun m x => match m with
    | some y => if degrees y.2 < degrees x.2 then some x else some y
    | none => some x) none

/-- A compute die with fewer than 8 good sensors counts as reading 100 °C (R522). -/
def blindDie (s : State) : Bool :=
  (List.range 4).any fun d => decide (((List.range 16).filter fun i => sensorGood s (16 * d + i)).length < 8)

/-- Temperatures are recorded (R538). -/
def noteTemps (h : HealthIn) (s : State) : State :=
  let s1 := (List.range 72).foldl (fun x n => setFld ⟨0x30100 + 4 * n, 0, 16⟩ (h.temps.getD n 0).toNat x) s
  match hottest (goodTemps s h) with
  | some (n, t) => setReg 0x30220 (BitVec.ofNat 32 (2 ^ 31 + n * 65536 + t.toNat)) s1
  | none => s1

/-- What the temperatures bring (R94, R530, R531): in TETHERED a sample at 105 °C or more ends the run that it finds. -/
def heat (h : HealthIn) (s : State) : State :=
  let good := goodTemps s h
  let top := hottest good
  let n := (top.map (·.1)).getD 0
  let t := (top.map (·.2)).getD 0
  let above := fun (lim : Int) => match top with
    | some x => decide (lim ≤ degrees x.2)
    | none => false
  let high := above 1600 || blindDie s
  let limit := above 1680
  let teth := s.cox.mode == .tethered
  let hot := good.foldl (fun (m : BitVec 72) x => if 1840 ≤ degrees x.2 then putBit m x.1 true else m) 0
  let s1 := iff high (alert 0) s
  let s2 := iff (teth && high && !s.hlt.tetherHot) (logEvent evTetherThermalWarn (locUnit n 0) (position s)) s1
  let s3 := iff limit (alert 1) s2
  let s4 := iff (limit && !s.hlt.above105) (logEvent evTempLimit (locUnit n 0) t.toNat) s3
  let s5 := iff (teth && limit && controllerBusy s && !s.cox.halts.any fun x => x.cause.toNat == hcThermal)
    (fun x => raiseHalt hcThermal (logEvent evTetherThermalStop (locUnit n 0) (position s) x)) s4
  { s5 with hlt := { s5.hlt with above105 := limit, tetherHot := high, hotTwice := hot &&& s.hlt.hot115, hot115 := hot } }

/-- The stroke clock stops and the controller enters HALTED at the stroke in progress (R530); budget writes that waited for
the next boundary take effect (R285). -/
def supplyStop (s : State) : State :=
  let s1 := releasePins s
  let s2 := if controllerBusy s1 then enterHalted hcOther false (applyBudgets s1) else s1
  { s2 with pwr := { s2.pwr with supplyLock := true, faultPin := true } }

/-- One rail of a sample (R530, R539): 1 ms outside ±4 % is the warning window, 10 µs outside ±8 % the fault window. -/
def rail (h : HealthIn) (s : State) (r : Nat) : State :=
  let a := 0x30300 + 4 * r
  let old := fld s ⟨a, 14, 2⟩
  let fault := decide (10 ≤ h.faultUs.getD r 0)
  let warn := decide (1000 ≤ h.warnUs.getD r 0) || fault
  let st := if old = 3 then 3 else if fault then 2 else if warn then 1 else 0
  let v := (h.railMv.getD r 0).toNat * 65536 + st * 2 ^ 14 + (h.railDa.getD r 0).toNat
  let s1 := setReg a (BitVec.ofNat 32 v) s
  let s2 := iff (warn || old == 3) (alert 2) s1
  let s3 := iff (warn && !s.hlt.railWarn.getLsbD r) (logEvent evVoltWarn (locUnit r 0) r) s2
  let s4 := iff fault (alert 3) s3
  let s5 := iff (fault && !s.hlt.railFault.getLsbD r) (fun x => supplyStop (logEvent evSupplyFault (locUnit r 0) r x)) s4
  { s5 with hlt := { s5.hlt with railWarn := putBit s5.hlt.railWarn r warn, railFault := putBit s5.hlt.railFault r fault } }

/-- One ring oscillator (R530, R540). -/
def process (s : State) (e : Nat × BitVec 16) : State :=
  let p := e.1
  let s1 := setFld ⟨0x30400 + 4 * p, 0, 16⟩ e.2.toNat s
  if 10 * e.2.toNat < 9 * s.fuses.procRef.toNat then
    let s2 := alert 7 s1
    if s2.hlt.slow.contains p then s2
    else logEvent evProcessSlow (locPav p 0) e.2.toNat { s2 with hlt := { s2.hlt with slow := p :: s2.hlt.slow } }
  else s1

/-- The package is below 95 °C and within its current limit, or no longer (R93). -/
def noteCool (h : HealthIn) (s : State) : State :=
  let warm := blindDie s || (goodTemps s h).any fun x => decide (1520 ≤ degrees x.2)
  let now := if warm || overCurrent s then none else some (s.hlt.coolSince.getD (trcTime s))
  { s with hlt := { s.hlt with coolSince := now } }

/-- HEALTH_SAMPLE (R529): in P0 and P1 every monitor; in P2 and P3 only the AON comparator, which holds wakes off until
it reads below 85 °C (R531). -/
def execHealthSample (h : HealthIn) (s : State) : Res :=
  forUnit (decide (h.temps.length = 72 ∧ h.railMv.length = 6 ∧ h.railDa.length = 6))
    (if !powered s then .next s
    else if s.pwr.st == .p0 || s.pwr.st == .p1 then
      let s1 := heat h (noteTemps h s)
      let s2 := noteCool h ((List.range 6).foldl (rail h) s1)
      .next ((h.procs.filter fun e => decide (e.1 < 128) && enabled s e.1).foldl process s2)
    else
      let cool := (List.range 8).all fun i => decide (degrees (h.temps.getD (64 + i) 0) < 1360)
      .next (iff cool (fun x => { x with pwr := { x.pwr with aonHot := false } }) s))

/-- The package shuts down (R531). -/
def shutDown (sensor : BitVec 7) (temp : BitVec 16) (s : State) : State :=
  let s1 := domainsP3 (loseState (pinsOff s))
  let s2 := setFld fPwrPrev s.pwr.st.code s1
  { s2 with pwr := { s2.pwr with st := .p3, entry := none, entering := false, latched := none, waking := none,
                                 boot := .supply, asleep := true, thermal := some (sensor, temp), aonHot := true,
                                 faultPin := true } }

/-- THERMAL_SHUTDOWN (R531): a good sensor at 115 °C in two consecutive samples, or the AON comparator on the I/O die,
whose sensors are 64 to 71. -/
def execThermalShutdown (sensor : BitVec 7) (temp : BitVec 16) (s : State) : Res :=
  forUnit (decide (sensor.toNat < 72))
    (whenever (powered s && decide (1840 ≤ degrees temp) && (s.hlt.hotTwice.getLsbD sensor.toNat || decide (64 ≤ sensor.toNat))) s
      (shutDown sensor temp s))

end Sys2Proof.Machine
end

