-- ==== Sys2Proof/Machine/Pins.lean ====
section
/-! DEFINITION. Target banks, shorts and the pull test (R494 to R502, R515 to R518). -/

namespace Sys2Proof.Machine

/-- Bank of a 4-bit number. -/
def bankUnit (b : Nat) (sub : Nat) : Nat := locUnit b sub

/-- Millivolts of a pin_banks code (R494). -/
def voltMv (v : Nat) : Nat := [0, 1200, 1500, 1800, 2500, 3300].getD v 0

/-- PODID lies within ±10 % of the expected voltage (R495). -/
def podFits (s : State) (b mv : Nat) : Bool :=
  let v := voltMv (expectedVolt s b)
  decide (9 * v ≤ 10 * mv ∧ 10 * mv ≤ 11 * v)

/-- BANK_WANTED (R494, R496): a bank that has become wanted goes from OFF to CHECK, and one that is wanted no longer
goes to OFF with no cause. -/
def bankWanted (b : Nat) (s : State) : State :=
  if bankIsWanted s b then
    if podState s b == .off then podCheck b s else s
  else if podState s b == .off then s
  else setFld (fBankCause b) 0 (setPod b .off s)

/-- BANK_WANTED. -/
def execBankWanted (b : BitVec 4) (s : State) : Res := .next (bankWanted b.toNat s)

/-- A pod of an unbroken class reads PODID = `mv`, with PODKEY low or high. -/
def notePod (b mv : Nat) (high : Bool) (s : State) : State := setFlag (fPodkeyHigh b) high (setFld (fPodid b) mv s)

/-- The bank turns ON: VCCIO is connected and the cause cleared (R496, R515). -/
def bankOn (b mv : Nat) (s : State) : State :=
  setFlag (fVccioOk b) true (setFld (fBankCause b) 0 (notePod b mv false (setPod b .on s)))

/-- BANK_ON (R496): 10 ms of a seated pod, whose PODID is `podidMv`, and of good VCCIO. -/
def execBankOn (b : BitVec 4) (podidMv : BitVec 13) (s : State) : Res :=
  let n := b.toNat
  whenever (podState s n == .check && bankIsWanted s n && podFits s n podidMv.toNat) s (bankOn n podidMv.toNat s)

/-- The bank enters POD_FAULT and logs why (R496); from CHECK, whether VCCIO is good is a free value. -/
def podFault (b mv : Nat) (reversed : Bool) (s : State) : State :=
  let s0 := iff (podState s b == .check) (freeReadings b) s
  let s1 := setFld (fBankCause b) (if reversed then 3 else 2) (notePod b mv reversed (setPod b .podFault s0))
  if reversed then logEvent evPodReversed (bankUnit b 0) 0 s1 else logEvent evPodMiskeyed (bankUnit b 0) mv s1

/-- POD_MISKEYED (R495, R496): a reversed class reads PODID below 100 mV, a mis-keyed one outside the window. -/
def execPodMiskeyed (b : BitVec 4) (reversed : Bool) (podidMv : BitVec 13) (s : State) : Res :=
  let n := b.toNat
  let cls := if reversed then decide (podidMv.toNat < 100) else !podFits s n podidMv.toNat
  whenever ((podState s n == .on || podState s n == .check) && bankIsWanted s n && cls) s
    (podFault n podidMv.toNat reversed s)

/-- PODID of a bank whose pod is not there is a free value (R515: near VDD_AON). -/
def freePodid (b : Nat) (s : State) : State := draw (setFld (fPodid b) (Config.freeWord s.free).toNat s)

/-- POD_REMOVED (R496). -/
def execPodRemoved (b : BitVec 4) (s : State) : Res :=
  let n := b.toNat
  whenever (podState s n == .on) s
    (logEvent evPodRemoved (bankUnit n 0) 0
      (setFld (fBankCause n) 5 (setFlag (fPodkeyHigh n) true (freePodid n (setPod n .check s)))))

/-- VCCIO is out of its ±5 % window (R496). -/
def vccioBad (s : State) (b mv : Nat) : Bool :=
  let v := voltMv (expectedVolt s b)
  decide (20 * mv < 19 * v ∨ 21 * v < 20 * mv)

/-- VCCIO_FAULT (R496). -/
def execVccioFault (b : BitVec 4) (mv : BitVec 16) (s : State) : Res :=
  let n := b.toNat
  whenever (podState s n == .on && vccioBad s n mv.toNat) s
    (logEvent evVccioFault (bankUnit n 0) mv.toNat
      (setFld (fBankCause n) 4 (setFlag (fVccioOk n) false (setPod n .check s))))

/-- POD_FAULT_CLEAR (R495, R496): the class of no pod. PODKEY may stand between its two thresholds, so podkey_high is a
free value, as are PODID and whether VCCIO is good. -/
def execPodFaultClear (b : BitVec 4) (s : State) : Res :=
  let n := b.toNat
  whenever (hostUp s && podState s n == .podFault) s
    (setFld (fBankCause n) 1 (freeReadings n (setPod n .check s)))

/-- A write of TIO.BANK_CFG[b] (R494, R516): a new expected voltage takes a bank out of ON at once. -/
def writeBankCfg (a : Nat) (v : Word) (s : State) : State := revolt s (writePlain a v s)

/-! Shorts (R501). -/

/-- The pin's level at the land can differ from the level that the VX4 drives there. -/
def shorted (s : State) (pin : Nat) : Bool :=
  let b := bankOfPin pin
  podState s b == .on && !padLatched s b && !jtagControls s && s.pins.drvOn.getLsbD pin && s.pins.landOn.getLsbD pin &&
    s.pins.drv.getLsbD pin != s.pins.land.getLsbD pin

/-- A shorted pin is released, flagged and, for the first of its bank in the course, logged. -/
def shortPin (pin : Nat) (s : State) : State :=
  let b := bankOfPin pin
  let a := 0x200100 + 4 * b
  let s1 := { s with pins := { s.pins with drvOn := s.pins.drvOn &&& ~~~pinBit pin } }
  oncePerCourse 60 b (logEvent evPinShort (bankUnit b (pin % 32)) 0) (setReg a (putBit (reg s1 a) (pin % 32) true) s1)

/-- PIN_SHORT (R501): the land has differed from the driven level for 8 ticks. -/
def execPinShort (pin : BitVec 9) (s : State) : Res := whenever (shorted s pin.toNat) s (shortPin pin.toNat s)

/-- SHORT_CLEAR (R501): software writes 1 to bits of TIO.SHORT[b]. -/
def execShortClear (b : BitVec 4) (v : Word) (s : State) : Res :=
  whenever (hostUp s) s (writePlain (0x200100 + 4 * b.toNat) v s)

/-! The pull test (R502). -/

def fPullBanks : Fld := ⟨0x200200, 0, 16⟩
def fPullDone : Fld := ⟨0x200200, 30, 1⟩
def fPullErr : Fld := ⟨0x200200, 29, 1⟩

/-- A start of the test on the banks of a word is accepted: in SERVICE, every bank selected in ON and not latched, no
test running (R502, R505). -/
def pullOk (v : Word) (s : State) : Bool :=
  s.cox.mode == .service && !s.pins.pulling &&
    (List.range 16).all fun b => !v.getLsbD b || (podState s b == .on && !padLatched s b)

/-- A write of TIO.PULLTEST (R502, R518). -/
def writePulltest (v : Word) (s : State) : State :=
  if !v.getLsbD 31 then writePlain 0x200200 v s
  else if pullOk v s then
    let s1 := setFlag fPullDone false (writePlain 0x200200 v s)
    { s1 with pins := { s1.pins with pulling := true } }
  else setFlag fPullErr true s

/-- PULLTEST. -/
def execPulltest (v : Word) (s : State) : Res := whenever (hostUp s) s (writePulltest v s)

/-- The open pins of a test: those that followed the pulls and that nothing holds. -/
def openPins (followed : BitVec 512) (s : State) : BitVec 512 :=
  let banks := fld s fPullBanks
  let sel := (List.range 16).foldl (fun m b => if banks.testBit b then m ||| maskAt 512 (32 * b) 32 else m) (0 : BitVec 512)
  followed &&& sel &&& ~~~s.pins.landOn

/-- `PIN_OPEN` names the bank of the lowest open pin, and says how many are open. -/
def logOpen (first : Option Nat) (n : Nat) (s : State) : State :=
  match first with
  | some i => logEvent evPinOpen (bankUnit (i / 32) 0) n s
  | none => s

/-- The test ends: TIO.OPEN holds the open pins of the last test, and `PIN_OPEN` says how many (R502, R517). -/
def pullEnd (followed : BitVec 512) (s : State) : State :=
  let o := openPins followed s
  let s1 := (List.range 16).foldl (fun x b => setReg (0x200140 + 4 * b) (o.extractLsb' (32 * b) 32) x) s
  logOpen (ones o).head? (popcount o) (setFlag fPullDone true { s1 with pins := { s1.pins with pulling := false } })

/-- PULLTEST_DONE (R502): `followed` are the pins that read 1 and then 0. -/
def execPulltestDone (followed : BitVec 512) (s : State) : Res := whenever s.pins.pulling s (pullEnd followed s)

/-- TARGET_PIN_LEVEL (R553): a target drives a land to a level, or lets it go. -/
def execTargetPinLevel (pin : BitVec 9) (level : Option Bool) (s : State) : Res :=
  let m := pinBit pin.toNat
  .next { s with pins := { s.pins with
    landOn := if level.isSome then s.pins.landOn ||| m else s.pins.landOn &&& ~~~m,
    land := if level == some true then s.pins.land ||| m else s.pins.land &&& ~~~m } }

end Sys2Proof.Machine
end

