-- ==== Sys2Proof/Machine/Jtag.lean ====
section
/-! DEFINITION. The JTAG port (R505, R508, R509) and the board pins that its boundary register shows (R491). -/

namespace Sys2Proof.Machine

/-- READY is high while the Keeper runs with MBX open in P0 or P1, and low during an entry to P2 or P3 (R491). -/
def readyPin (s : State) : Bool :=
  s.pwr.boot == .up && (s.pwr.st == .p0 || s.pwr.st == .p1) && !s.pwr.entering && s.pwr.waking.isNone

/-- ALERT# is asserted while an enabled health condition stands (R468, R536). -/
def alertPin (s : State) : Bool := fld s fAlert &&& fld s fAlertEn != 0

/-- The 512 bits of the target pins' cells `k` laid out in the boundary register. -/
def spreadCells (v : BitVec 512) (k : Nat) : BitVec 1899 :=
  (List.range 512).foldl (fun m i => if v.getLsbD i then m ||| BitVec.ofNat 1899 (2 ^ (3 * i + k)) else m) 0

/-- The cells of the board pins whose level the state fixes: POS, REPLACE#, FAULT#, READY and ALERT# outputs. -/
def boardCells (s : State) : List (Nat × Bool) :=
  (List.range 4).map (fun i => (1537 + i, (position s).testBit i)) ++
    [(1541, !s.pwr.replacePin), (1543, !s.pwr.faultPin), (1545, readyPin s), (1551, !alertPin s)]

/-- What a capture takes: the lands of pins in ON, with `out` what the design drives, and the board pins; every other
cell is a free value (notes/assumptions/7.md). -/
def captureCells (out : Bool) (s : State) : BitVec 1899 :=
  let x := takeSample s
  let free := Config.freeCells s.free
  let known := onPins s &&& ~~~x.float
  let pick := fun (m v : BitVec 512) (k : Nat) (acc : BitVec 1899) =>
    (acc &&& ~~~spreadCells m k) ||| spreadCells (v &&& m) k
  let c0 := pick known x.lev 0 free
  let c1 := if out then pick (onPins s) s.pins.drvOn 2 (pick (onPins s &&& s.pins.drvOn) s.pins.drv 1 c0) else c0
  (boardCells s).foldl (fun a e => putBit a e.1 e.2) c1

/-- The instruction register takes a code. -/
def setIr (code : BitVec 8) (s : State) : State := { s with jtag := { s.jtag with ir := code } }

/-- A capture of the boundary register. -/
def capture (out : Bool) (s : State) : State :=
  draw { s with jtag := { s.jtag with capture := captureCells out s } }

/-- The identification register (R508). -/
def idWord (s : State) : Word := s.fuses.stepping ++ (0x4B04 : BitVec 16) ++ Config.jep106 ++ (1 : BitVec 1)

/-- IDCODE. -/
def execIdcode (s : State) : Res := whenever (powered s) s (emit (.readData (idWord s)) (setIr 0x01 s))

/-- SAMPLE_PRELOAD: the pads are sampled, and the boundary register preloaded. -/
def execSamplePreload (preload : BitVec 1899) (s : State) : Res :=
  let s1 := capture true (setIr 0x02 s)
  whenever (powered s) s { s1 with jtag := { s1.jtag with boundary := preload } }

/-- EXTEST: the boundary register controls the pads of the banks in ON, and the lands are captured (R505). -/
def execExtest (s : State) : Res := whenever (powered s) s (capture false (setIr 0x03 s))

/-- HIGHZ. -/
def execHighz (s : State) : Res := whenever (powered s) s (setIr 0x04 s)

/-- CLAMP. -/
def execClamp (s : State) : Res := whenever (powered s) s (setIr 0x05 s)

/-- EXTEST_PULSE: selected; the lane pairs it tests are analogue (R508). -/
def execExtestPulse (s : State) : Res := whenever (powered s) s (setIr 0x06 s)

/-- EXTEST_TRAIN: selected. -/
def execExtestTrain (s : State) : Res := whenever (powered s) s (setIr 0x07 s)

/-- DEBUG_ACCESS: codes 0x40 to 0x7F act as BYPASS; with a token of rights bit 1 the spec gives them no effect (R357,
R508). -/
def execDebugAccess (code : BitVec 8) (s : State) : Res :=
  if 0x40 ≤ code.toNat ∧ code.toNat < 0x80 then
    if powered s && tokenRight s 1 then .refused .folarvenDebug else whenever (powered s) s (setIr code s)
  else .next s

/-- BYPASS: every other code (R508). -/
def execBypass (code : BitVec 8) (s : State) : Res :=
  whenever (powered s && (code == 0 || decide (8 ≤ code.toNat ∧ code.toNat < 0x40) || decide (0x80 ≤ code.toNat))) s
    (setIr code s)

/-- TAP_RESET (R508): IDCODE is selected, and the boundary register controls no pad. -/
def execTapReset (s : State) : Res := whenever (powered s) s (setIr 0x01 s)

end Sys2Proof.Machine
end

