-- ==== Sys2Proof/Machine/Smbus.lean ====
section
/-! DEFINITION. The SMBus target (R467 to R469, R483). -/

namespace Sys2Proof.Machine

/-- This package's SMBus address (R468). -/
def smAddress (s : State) : Nat := 0x40 + position s

/-- The transaction behind the address can go on: IOD is ready. -/
def smReady (s : State) : Bool := hostUp s && fld s fDomIod == 0 && !s.pwr.sclHeld

/-- The matcher ACKs a match; in P2 and P3 it wakes the package and holds SCL low until IOD is ready (R469). -/
def smMatch (s : State) : State :=
  let s1 := emit (.smbus true 0) s
  if fld s fDomIod == 0 then s1
  else packageWake 1 (emit (.scl true) { s1 with pwr := { s1.pwr with sclHeld := true } })

/-- SMBUS_ADDRESS_MATCH (R467, R469). -/
def execSmbusAddressMatch (addr : BitVec 7) (s : State) : Res :=
  whenever (powered s && addr.toNat == smAddress s) s (smMatch s)

/-- SMBUS_HOLD_TIMEOUT (R469): 10 ms after the ACK the matcher releases SCL and NACKs the next byte. -/
def execSmbusHoldTimeout (s : State) : Res :=
  whenever s.pwr.sclHeld s
    (emit (.scl false) { s with pwr := { s.pwr with sclHeld := false, nackNext := true, lateLog := true } })

/-- A transaction whose PEC is wrong is discarded, and so is one without a PEC where PWR.SMBUS.pec_req asks for one
(R468). -/
def pecTaken (pec : Option Bool) (s : State) : Bool :=
  match pec with
  | some ok => ok
  | none => !flag s fPecReq

/-- A block write of `len` bytes: NACKed after a late hold or with a count other than 4; otherwise `f` performs it
unless its PEC discards it. -/
def smWrite (len : Nat) (pec : Option Bool) (f : State → State) (s : State) : State :=
  if s.pwr.nackNext then emit (.smbus false 0) { s with pwr := { s.pwr with nackNext := false } }
  else if len ≠ 4 then emit (.smbus false 0) s
  else emit (.smbus true 0) (if pecTaken pec s then f s else s)

/-- SMBUS_ADDR (R468): sets the address pointer. -/
def execSmbusAddr (len : BitVec 8) (ptr : Word) (pecOk : Option Bool) (s : State) : Res :=
  whenever (smReady s || s.pwr.nackNext) s
    (smWrite len.toNat pecOk (fun x => { x with pwr := { x.pwr with smPtr := ptr } }) s)

/-- The pointer advances by 4. -/
def smNext (s : State) : State := { s with pwr := { s.pwr with smPtr := s.pwr.smPtr + 4 } }

/-- A block that SMBus reads: GLB, PWR, HLT or COX (R468). -/
def smReads (a : Nat) : Bool :=
  decide (a < 0x10000) || decide (0x20000 ≤ a ∧ a < 0x40000) || decide (0xB0000 ≤ a ∧ a < 0xC0000)

/-- A read of DATA at the pointer. -/
def smData (s : State) : State :=
  let a := s.pwr.smPtr.toNat / 4 * 4
  if smReads a then smNext (emit (.smbus true (readReg s a)) (readEffects a 0xF s)) else smNext (emit (.smbus true 0) s)

/-- SMBUS_DATA_READ (R468). -/
def execSmbusDataRead (s : State) : Res :=
  if s.pwr.nackNext then .next (emit (.smbus false 0) { s with pwr := { s.pwr with nackNext := false } })
  else whenever (smReady s) s (smData s)

/-- A write of DATA: performed only to RW fields of PWR (R468). -/
def smPut (v : Word) (s : State) : State :=
  let a := s.pwr.smPtr.toNat / 4 * 4
  smNext (if 0x20000 ≤ a ∧ a < 0x30000 then
    setReg a ((reg s a &&& ~~~rwMask a) ||| (v &&& rwMask a)) s else s)

/-- SMBUS_DATA_WRITE (R468). -/
def execSmbusDataWrite (len : BitVec 8) (v : Word) (pecOk : Option Bool) (s : State) : Res :=
  whenever (smReady s || s.pwr.nackNext) s (smWrite len.toNat pecOk (smPut v) s)

/-- ALERT_RESPONSE_ADDRESS (R468): the target that asserts ALERT# answers with its address. -/
def execAlertResponseAddress (s : State) : Res :=
  whenever (smReady s && alertPin s) s (emit (.smbus true (BitVec.ofNat 32 (smAddress s))) s)

end Sys2Proof.Machine
end

