-- ==== Sys2Proof/Machine/HostWrite.lean ====
section
/-! DEFINITION. Register writes from outside (R4 to R7, R543 to R548). A register whose write is a row of its own is
written through that row's operation. -/

namespace Sys2Proof.Machine

/-- The state after a meaning, where it is one. -/
def after (r : Res) (s : State) : State :=
  match r with
  | .next t => t
  | _ => s

/-- A write of COX.CTRL acts as the first bit set in the order halt, step, run (R80, R95). -/
def writeCoxCtrl (v : Word) (s : State) : State :=
  if v.getLsbD 1 then after (execHalt s) s
  else if v.getLsbD 2 then after (execStep s) s
  else if v.getLsbD 0 then after (execRun s) s
  else s

/-- A write of COX.TETHER: the polarity of the edge acts at once but while a course runs, then from the next boundary
wait (R217, R221). -/
def writeTether (v : Word) (s : State) : State :=
  let s1 := writePlain 0xB0060 v s
  let s2 := iff (!inCourse s) (fun x => { x with cox := { x.cox with edge := v.getLsbD 0 } }) s1
  iff (v.getLsbD 2 && s.cox.mode == .tethered && (s.cox.st == .halted || (s.cox.st == .wait && s.cox.lead.isSome))) releasePins s2

/-- A write of TRG.CTRL: disarm, else arm, else force (R417, R428). -/
def writeTrgCtrl (v : Word) (s : State) : State :=
  if v.getLsbD 1 then after (execDisarm s) s
  else if v.getLsbD 0 then after (execArm s) s
  else if v.getLsbD 2 then after (execForce s) s
  else s

/-- A write to a channel's page (R319 to R321, R548). -/
def writeChn (c o : Nat) (v : Word) (s : State) : State :=
  if o = 0 then writeSqTail c (bits v 0 16) s
  else if o = 4 then writeCqHead c (bits v 0 16) s
  else if o = 8 then abortTag c (v.setWidth 16) s
  else if o = 0x20 then writeChnCfg c v s
  else writePlain (chnA c + o) v s

/-- A write to LNK[n] (R272, R279). -/
def writeLnk (n o : Nat) (v : Word) (s : State) : State :=
  if o = 0 then writeLnkCtrl n v s
  else if o = 0x104 then injectOp n v s
  else writePlain (lnkA n + o) v s

/-- A write of a vector's control word: a pending vector that is masked no longer is signalled (R284; PRESUMED,
notes/assumptions/66.md). -/
def writeVector (fn vec : Nat) (v : Word) (s : State) : State :=
  let s1 := writePlain (msixCtl fn vec) v s
  let k := msixIndex fn vec
  if s1.hif.msix.getLsbD k && !msixMasked s1 fn vec then
    emit (.msix (BitVec.ofNat 5 fn) (BitVec.ofNat 11 vec)) { s1 with hif := { s1.hif with msix := putBit s1.hif.msix k false } }
  else s1

/-- A write to a register of TRC, TRG, DSP, HIF, COX or TIO with an operation of its own, or none. -/
def writeSpecial (a : Nat) (v : Word) : Option (State → State) :=
  if a = 0x20 then some (iff (v.getLsbD 30) clearLog)
  else if a = 0x400 then some (writeBankPage v)
  else if a = 0x10000 then some id
  else if a = 0x20014 then some (padRelease v)
  else if a = 0x70000 then some (writeTrcCtrl v)
  else if a = 0x700A0 then some (writeMsgCtrl v)
  else if a = 0x80000 then some (writeTrgCtrl v)
  else if a = 0x80030 then some (writeDens v)
  else if inRow a 0x80400 0x40 32 then some (writeMeas ((a - 0x80400) / 0x40) v)
  else if a = 0x90000 then some (writeDspCtrl (v.getLsbD 0))
  else if a = 0x9000C then some (writeBind v)
  else if a = 0x90038 then some (writeRing false v)
  else if a = 0x9003C then some fun s => writeRecords (gOf s) (writePlain a v s)
  else if a = 0x90058 then some (writeRing true v)
  else if a = 0xA0004 then some (writeOwn v)
  else if a = 0xA0008 then some (writeBudget v)
  else if a = 0xB0000 then some (writeCoxCtrl v)
  else if a = 0xB0060 then some (writeTether v)
  else if a = 0xB0070 then some fun s => after (execGrant (v.setWidth 16) s) s
  else if inRow a 0x200040 4 16 then some (writeBankCfg a v)
  else if a = 0x200200 then some (writePulltest v)
  else match msixOf a with
    | some (fn, vec, 12) => some (writeVector fn vec v)
    | _ => none

/-- A write of the register at a key, with every effect the spec gives that write; a block that does not answer ignores
it (R543). A write of MBX.CMD starts a command, in Machine/Command.lean. -/
def writeReg (a : Nat) (v : Word) (s : State) : State :=
  if !answers s a then s
  else match writeSpecial a v, lnkOf a, chnOf a with
    | some f, _, _ => f s
    | none, some (n, o), _ => writeLnk n o v s
    | none, none, some (c, o) => writeChn c o v s
    | none, none, none => writePlain a v s

/-- A host write of a register: whole words only (R4), through the network to a PAV block (R544), and into the bank
window (R546); BAR4 ignores writes (R549). -/
def writeAccess (bar : Bar) (addr v : Word) (be : BitVec 4) (s : State) : State :=
  if be != 0xF then s
  else match bar, keyOf s bar addr.toNat with
    | .bar4, _ => s
    | .bar0, some a =>
      if 0x1000000 ≤ a ∧ a < 0x2000000 then windowWrite (a - 0x1000000) v s
      else (match asPacket s a with
        | some p => pavAccess p (writeReg a v) id s
        | none => writeReg a v s)
    | _, some a => writeReg a v s
    | _, none => s

end Sys2Proof.Machine
end

