-- ==== Sys2Proof/Machine/Boot.lean ====
section
/-! DEFINITION. Power-on, self-test, the boot ROM and the Keeper's start (R16, R17, R354 to R363, R491 to R493, R521,
R522). -/

namespace Sys2Proof.Machine

/-! Power (R16, R493, R530). -/

/-- What a package without power keeps: its fuses, its flash, what the world around it drives, and what it has emitted. -/
def powerless (s : State) : State :=
  let r := State.reset
  { r with fuses := s.fuses, out := s.out, free := s.free, pending := s.pending,
           net := { r.net with sent := s.out.length },
           ldr := { r.ldr with dir0 := s.ldr.dir0, dir1 := s.ldr.dir1, lmsRec := s.ldr.lmsRec },
           trc := { r.trc with bref := s.trc.bref },
           pins := { r.pins with land := s.pins.land, landOn := s.pins.landOn } }

/-- Step 1 of R16: the LMS leaf comes from the fuses (R8, R392), POS is latched and the token nonce drawn (R357, R491). -/
def powerOn (pos : BitVec 4) (nonce : BitVec 64) (s : State) : State :=
  let r := startLeaf 0 (powerless s)
  setWide 0x40044 nonce (setFld fPosition pos.toNat { r with pwr := { r.pwr with boot := .supply } })

/-- POWER_ON: VDD_AON becomes good (R16, R493). -/
def execPowerOn (pos : BitVec 4) (nonce : BitVec 64) (s : State) : Res :=
  whenever (s.pwr.boot == .off) s (powerOn pos nonce s)

/-- SUPPLY_RISE_TIMEOUT (R493): a rail but VDD_AON is not up 100 ms after it; the package stays at step 1. -/
def execSupplyRiseTimeout (rail : BitVec 3) (s : State) : Res :=
  forUnit (decide (rail.toNat < 6))
    (whenever (s.pwr.boot == .supply && s.pwr.st == .p0 && rail != 4) s
      (logEvent evSupplyFault (locUnit rail.toNat 0) rail.toNat { s with pwr := { s.pwr with faultPin := true } }))

/-- POWER_LOSS (R530): VDD_AON falls. -/
def execPowerLoss (s : State) : Res := whenever (powered s) s (powerless s)

/-- BREF_LOST (R439): BREF disappears or returns. -/
def execBrefLost (present : Bool) (s : State) : Res := .next { s with trc := { s.trc with bref := present } }

/-! Self-test (R521, R522). -/

/-- The slice that runs next: the first with no result. -/
def nextSlice (s : State) : Nat := least (fun k => fld s (fPost k) == 0) 0x23

/-- Slice `k` is the one that runs: at step 2 of R16, every rail up, no retention dwell, and no wake step waiting. -/
def sliceRuns (s : State) (k : Nat) : Bool :=
  (s.pwr.boot == .selfTest || (s.pwr.boot == .supply && !s.pwr.faultPin)) && s.pwr.st == .p0 && s.pwr.waking.isNone &&
    !s.hlt.dwell && nextSlice s == k

/-- After a slice: the retention dwell, or the end of self-test. -/
def sliceEnds (k : Nat) (s : State) : State :=
  let s1 := { s with pwr := { s.pwr with boot := .selfTest }, hlt := { s.hlt with dwell := k == 0x20 || k == 0x21 } }
  if k = 0x22 then setFlag fPostDone true { s1 with pwr := { s1.pwr with boot := .rom } } else s1

/-- POST_SLICE: a slice has run. -/
def postSlice (k : Nat) (pass : Bool) (us : Nat) (bad : List Nat) (faults : List FaultRec) (s : State) : State :=
  let s1 := setFld (fPost k) (if pass then 1 else 3) (setFld (fPostUs k) us s)
  let s2 := if pass then slicePasses k (if k = 3 then processSlice s1 else s1) else sliceFails k bad faults s1
  sliceEnds k s2

/-- POST_SLICE (R521, R522): `bad` names the sensors or rails that fail, `faults` what a memory or logic slice finds. -/
def execPostSlice (k : BitVec 6) (pass : Bool) (us : BitVec 15) (bad : List (BitVec 7)) (faults : List FaultRec)
    (s : State) : Res :=
  forUnit (decide (k.toNat < 0x23))
    (whenever (sliceRuns s k.toNat) s (postSlice k.toNat pass us.toNat (bad.map BitVec.toNat) faults s))

/-- INCOMPLETE (R521): the slice is stopped after 20 ms, counts as passed, and the next begins. -/
def incomplete (k : Nat) (s : State) : State :=
  let s1 := setFld (fPost k) 4 (setFld (fPostUs k) 20000 s)
  sliceEnds k (slicePasses k (logEvent evIncomplete (locUnit k 0) k s1))

/-- INCOMPLETE. -/
def execIncomplete (k : BitVec 6) (s : State) : Res :=
  forUnit (decide (k.toNat < 0x23)) (whenever (sliceRuns s k.toNat) s (incomplete k.toNat s))

/-- RETENTION_DWELL_END (R521): 650 ms have passed. -/
def execRetentionDwellEnd (s : State) : Res :=
  whenever s.hlt.dwell s { s with hlt := { s.hlt with dwell := false } }

/-- DMEM_INIT_DONE (R182): every deep-memory codeword has been zeroed. -/
def execDmemInitDone (s : State) : Res :=
  whenever (flag s fPostDone && s.ldr.stage == 0 && !flag s fDmemInit && fld s fDomDmem == 0) s
    (retryStart (setFlag fDmemInit true { s with deep := [] }))

/-! The boot ROM (R354, R356, R358 to R360, R362). -/

/-- The value on which two present copies of three agree (R354). -/
def vote3 {α : Type} [DecidableEq α] (a b c : Option α) : Option α :=
  if a.isSome ∧ (a = b ∨ a = c) then a else if b.isSome ∧ b = c then b else none

/-- A slot of which no copy can be read. -/
def noKey : KeyRead := { hash0 := none, hash1 := none, hash2 := none, rev0 := none, rev1 := none, rev2 := none }

/-- A slot resolves to a key hash and a revoke bit: usable. DESIGN CHOICE (notes/assumptions/92.md): a revoke bit on which no
two present copies agree leaves its slot unusable. -/
def keyUsable (k : KeyRead) : Bool := (vote3 k.hash0 k.hash1 k.hash2).isSome && (vote3 k.rev0 k.rev1 k.rev2).isSome

/-- A slot resolves to revoked (R354). -/
def keyRevoked (k : KeyRead) : Bool := vote3 k.rev0 k.rev1 k.rev2 == some true

/-- A usable slot resolved by a majority of its copies (R354). -/
def keyVoted (k : KeyRead) : Bool :=
  keyUsable k && !(k.hash0 == k.hash1 && k.hash1 == k.hash2 && k.rev0 == k.rev1 && k.rev1 == k.rev2)

/-- A key slot is resolved by the vote of R354. -/
def resolveKey (s : State) (e : KeyRead × Nat) : State :=
  let v := e.1
  let k := e.2
  let f := { s.fuses with keyUse := putBit s.fuses.keyUse k (keyUsable v), keyVote := putBit s.fuses.keyVote k (keyVoted v),
                          keyRev := putBit s.fuses.keyRev k (keyRevoked v),
                          keyHash := upd 0 s.fuses.keyHash k ((vote3 v.hash0 v.hash1 v.hash2).getD 0) }
  let s1 := { s with fuses := f }
  let s2 := if !keyUsable v then logEvent evKeySlotLost (locUnit k 0) 0 s1
    else iff (keyVoted v) (logEvent evKeyVote (locUnit k 0) 0) s1
  secureStep 3 ccDone s2

/-- The eight key slots are resolved. -/
def resolveKeys (keys : List KeyRead) (s : State) : State :=
  ((List.range 8).map fun k => (keys.getD k noKey, k)).foldl resolveKey s

/-- Version of the FIRMWARE entry of a copy. -/
def fwVersion (d : DirCopy) : Nat := ((ofRole d roleFirmware).head?.map (·.version.toNat)).getD 0

/-- The boot ROM's choice of R360: the copy whose FIRMWARE entry starts, and whether the copies are in conflict. -/
def chooseDir (d0 d1 : DirCopy) (ok0 ok1 : Bool) : Option Nat × Bool :=
  match dirValid d0, dirValid d1 with
  | false, false => (none, false)
  | true, false => (some 0, false)
  | false, true => (some 1, false)
  | true, true =>
    if d0 = d1 then (some 0, false)
    else if d0.sequence ≠ d1.sequence then (some (if d0.sequence < d1.sequence then 1 else 0), false)
    else if ok0 && (!ok1 || decide (fwVersion d1 ≤ fwVersion d0)) then (some 0, true)
    else if ok1 then (some 1, true)
    else (none, true)

/-- The job of a load that the boot makes. -/
def bootJob (object role : Nat) (auto : Bool) : Job :=
  { op := 4, host := false, object := BitVec.ofNat 2 object, store := false, auto := auto, region := 0, regional := false,
    recovery := false, role := BitVec.ofNat 8 role }

/-- Pass A of the stream that a copy's FIRMWARE entry names, checked against that entry (R353, R355, R363). -/
def firmwarePass (s : State) (d : DirCopy) (x : Stream) : PassA :=
  passA (setFlag fDirConflict false (setFlag fDirUse false { s with ldr := { s.ldr with dir0 := d } }))
    (bootJob 2 roleFirmware false) x

/-- How the two readings of a copy's firmware end: `fw` is the stream and whether its second reading matches; none, it cannot
be read. -/
def firmwareVerdict (s : State) (d : DirCopy) (fw : Option (Stream × Bool)) : Verdict :=
  match fw with
  | none => ⟨ccInternal, 0, 2, 0⟩
  | some (x, again) => match (firmwarePass s d x).fails with
    | some v => v
    | none => if again then okVerdict else ⟨ccSourceChanged, 0, 0, 0⟩

/-- The firmware of a copy can be started: it passes R353, its version is not below the floor (R355), and its second reading
matches (R372). -/
def firmwareOk (s : State) (d : DirCopy) (fw : Option (Stream × Bool)) : Bool := (firmwareVerdict s d fw).code == ccDone

/-- The registers of the loader after a boot load of firmware: its verdict (R382, R383), and the bytes read in its last
pass (R384). -/
def noteFirmware (s0 : State) (d : DirCopy) (fw : Option (Stream × Bool)) (s : State) : State :=
  let bytes := match fw with
    | some (x, _) => (firmwarePass s0 d x).bytes
    | none => 0
  noteVerdict (firmwareVerdict s0 d fw) (setWide 0x50010 (BitVec.ofNat 64 bytes) s)

/-- ROM recovery (R360, R362). -/
def romRecovery (s : State) : State :=
  logEvent evDirBad locNone 0 (setFlag fDirRecovery true
    { s with pwr := { s.pwr with boot := .recovery, faultPin := true, asleep := false } })

/-- `LMS_LEAVES_LOW` where the boot finds 1,024 leaves left (R356). -/
def leavesLow (s : State) : State :=
  iff (bits (reg s 0x40054) 0 16 == 32768 - 1024) (logEvent evLmsLeavesLow locNone 1024) s

/-- Steps 3 and 4 of R16 in the boot ROM, with the copies of the directory and the flash record of the next leaf that it
reads. -/
def bootRom (d0 d1 : DirCopy) (keys : List KeyRead) (fw0 fw1 : Option (Stream × Bool)) (next : BitVec 16) (s : State) :
    State :=
  let s1 := { s with ldr := { s.ldr with dir0 := d0, dir1 := d1, lmsRec := next } }
  let sk := resolveKeys keys s
  let f0 := firmwareOk sk d0 fw0
  let f1 := firmwareOk sk d1 fw1
  let (use, clash) := chooseDir d0 d1 f0 f1
  let s2 := setFlag fDir0 (dirValid d0) (setFlag fDir1 (dirValid d1) (setFlag fDirConflict clash
    (setFlag fDirRecovery false s1)))
  let s3 := iff (dirValid d1 && !dirValid d0) (logEvent evDirCopyBad (locUnit 0 0) 0) s2
  let s4 := iff (dirValid d0 && !dirValid d1) (logEvent evDirCopyBad (locUnit 1 0) 0) s3
  let s5 := iff clash (logEvent evDirConflict locNone 0) s4
  let s6 := leavesLow (startLeaf next.toNat (resolveKeys keys (secureStep 1 ccDone s5)))
  match use with
  | none => romRecovery s6
  | some c =>
    let d := if c = 0 then d0 else d1
    let fw := if c = 0 then fw0 else fw1
    let s7 := noteFirmware sk d fw
      (setFld fDirUse (if clash then 0 else c) (setWide 0x50034 (if clash then 0 else d.sequence) s6))
    let s8 := secureStep 2 (firmwareVerdict sk d fw).code s7
    match (if if c = 0 then f0 else f1 then fw else none) with
    | some (x, _) => { s8 with ldr := { s8.ldr with fwVer := x.man.version, fwDig := x.man.digest },
                               pwr := { s8.pwr with boot := .keeper } }
    | none => romRecovery s8

/-- BOOT_ROM_START: what it reads from fuses and flash. A copy of the directory or a leaf record that is none reads as flash
keeps it, and one that is given is what stands there instead, after damage or a writing that power loss broke off
(notes/assumptions/92.md). -/
def execBootRomStart (d0 d1 : Option DirCopy) (keys : List KeyRead) (fw0 fw1 : Option (Stream × Bool))
    (lmsNext : Option (BitVec 16)) (s : State) : Res :=
  whenever (s.pwr.boot == .rom) s
    (bootRom (d0.getD s.ldr.dir0) (d1.getD s.ldr.dir1) keys fw0 fw1 (lmsNext.getD s.ldr.lmsRec) s)

/-! The Keeper (R16 steps 4 and 5, R360, R363, R531). -/

/-- The Keeper makes the other copy match the one in use, if it differs (R360). -/
def repairDir (s : State) : State :=
  match dirInUse s with
  | none => s
  | some d =>
    let c := if flag s fDirUse then 0 else 1
    if s.ldr.dir0 = s.ldr.dir1 then s
    else logEvent evDirRepaired (locUnit c 0) 0
      (setFlag fDir0 true (setFlag fDir1 true { s with ldr := { s.ldr with dir0 := d, dir1 := d } }))

/-- The log of a thermal shutdown before the last wake (R531). -/
def reportThermal (s : State) : State :=
  match s.pwr.thermal with
  | some (n, t) => logEvent evThermalShutdown (locUnit n.toNat 0) t.toNat { s with pwr := { s.pwr with thermal := none } }
  | none => s

/-- A register that a shell may write: an RW register of PWR, HLT, SCB, TRC, COX, LNK[n] or TIO (R363). -/
def shellWrites (a : Nat) : Bool :=
  (decide (0x20000 ≤ a ∧ a < 0x40000) || decide (0x60000 ≤ a ∧ a < 0x80000) || decide (0xB0000 ≤ a ∧ a < 0xC0000) ||
    decide (0x100000 ≤ a ∧ a < 0x180000) || decide (0x200000 ≤ a ∧ a < 0x210000)) &&
    (rwMask a != 0 || ctrWord a) && a % 4 == 0

/-- The Keeper writes a shell's entries in order and logs the first that it skips (R363). -/
def applyShell (es : List (BitVec 32 × BitVec 32)) (s : State) : State :=
  let s1 := es.foldl (fun x e => if shellWrites e.1.toNat then writeReg e.1.toNat e.2 x else x) s
  match es.find? fun e => !shellWrites e.1.toNat with
  | some e => logEvent evShellSkip (locAddr e.1.toNat false) (e.1.toNat % 65536) s1
  | none => s1

/-- How the shell's two passes end: what pass A finds, or the code of a failure after it. -/
def shellVerdict (shell : Option Stream) (code : Nat) (s : State) : Verdict :=
  match shell with
  | none => ⟨ccInternal, 0, 2, 0⟩
  | some x => match (passA s (bootJob 1 roleShell false) x).fails with
    | some v => v
    | none => if code = 0 then okVerdict else ⟨code, 0, 0, 0⟩

/-- Step 3 of R363: a shell that the directory names is loaded and applied. -/
def startShell (shell : Option Stream) (code : Nat) (s : State) : State :=
  if (dirEntry s roleShell 0).isNone then s
  else
    let v := shellVerdict shell code s
    let bytes := match shell with
      | some x => (passA s (bootJob 1 roleShell false) x).bytes
      | none => 0
    let s1 := noteVerdict v (setWide 0x50010 (BitVec.ofNat 64 bytes) s)
    if v.code ≠ ccDone then logEvent evShellFail locNone v.code s1
    else match shell with
      | some x => applyShell x.settings { s1 with ldr := { s1.ldr with shVer := x.man.version, shDig := x.man.digest } }
      | none => s1

/-- Step 4 of R363: with autoload, the Keeper starts a load of DESIGN_CURRENT by itself; MBX is busy with it. -/
def autoload (s : State) : State :=
  match dirInUse s, dirEntry s roleCurrent 0 with
  | some d, some e =>
    if !d.autoload then s
    else
      let s1 := mbxBegin 0x20 true false 0 s
      (match loadBars false (some e) s1 with
       | some (c, k) => refuseLoad c k s1
       | none => loadStart (bootJob 0 roleCurrent d.autoRelease) s1)
  | _, _ => s

/-- The Keeper raises the token nonce (R363), which does not say to what: the new value is free (notes/assumptions/7.md). -/
def raiseNonce (s : State) : State := draw (setWide 0x40044 (Config.freeNonce s.free) s)

/-- The Keeper starts: repairs are applied, the token nonce is raised, MBX opens, the routes are written (R16, R124, R363).
Where the directory names no design image, the start-up stops there (R17). -/
def keeperStart (shell : Option Stream) (code : Nat) (routes : Sparse (BitVec 32)) (s : State) : State :=
  let s1 := raiseNonce (applyRepairs { s with pwr := { s.pwr with boot := .up, asleep := false } })
  let s2 := repairDir (reportThermal (setDroutes routes s1))
  if (dirEntry s2 roleCurrent 0).isNone then s2
  else
    let s3 := autoload (startShell shell code s2)
    iff s3.ldr.job.isNone openLinks s3

/-- KEEPER_START: the shell that the directory names as the Keeper reads it (none: it cannot be read), the code of a
shell that fails after pass A, and the dynamic routes that the Keeper computes. -/
def execKeeperStart (shell : Option Stream) (shellCode : BitVec 8) (droutes : Sparse (BitVec 32)) (s : State) : Res :=
  whenever (s.pwr.boot == .keeper) s (keeperStart shell shellCode.toNat droutes s)

end Sys2Proof.Machine
end

