-- ==== Sys2Proof/Machine/Spdm.lean ====
section
/-! DEFINITION. DOE and SPDM (R306, R307), and the leaves of the identity key (R356). Digests, certificates and
signatures themselves are arithmetic on bytes outside this model: a response shows its code, the fields that the state
fixes, and which signatures it carries. The response codes and the order of requests are those of SPDM 1.2, which R306
names (PRESUMED, notes/assumptions/21.md). -/

namespace Sys2Proof.Machine

/-- The DOE mailbox answers: PF0 is up and the Keeper runs. -/
def doeUp (s : State) : Bool := hostUp s && s.pwr.boot == .up

/-- A request meets the responder, waking the Keeper. -/
def doe (f : State → State) (s : State) : Res := whenever (doeUp s) s (f (keeperUp s))

/-- A response with neither signature. -/
def doeAnswer (code : Nat) (fields : List Nat) (s : State) : State :=
  emit (.doe (BitVec.ofNat 8 code) (fields.map (BitVec.ofNat 64)) false none) s

/-- SPDM ERROR: 0x01 InvalidRequest, 0x04 UnexpectedRequest. -/
def doeError (e : Nat) (s : State) : State := doeAnswer 0x7F [e] s

/-- Where the connection stands: 0 nothing, 1 after VERSION, 2 after CAPABILITIES, 3 after ALGORITHMS. -/
def spdmTo (n : Nat) (s : State) : State := { s with hif := { s.hif with spdm := BitVec.ofNat 2 n } }

/-- A request that needs the connection to stand at `n`. -/
def spdmAt (n : Nat) (f : State → State) (s : State) : State := if s.hif.spdm.toNat = n then f s else doeError 4 s

/-- DOE_DISCOVERY: index 0 is Discovery itself, index 1 SPDM, and no other exists. -/
def execDoeDiscovery (index : BitVec 8) (s : State) : Res :=
  doe (doeAnswer 0 (if index = 0 then [1, 0, 1] else if index = 1 then [1, 1, 0] else [0xFFFF, 0, 0])) s

/-- GET_VERSION: 1.2; the connection starts anew. -/
def execGetVersion (s : State) : Res := doe (fun x => doeAnswer 0x04 [0x12] (spdmTo 1 x)) s

/-- CERT_CAP, CHAL_CAP and MEAS_CAP with signature, as SPDM 1.2 places them. -/
def spdmCaps : Nat := 2 + 4 + 2 * 8

/-- GET_CAPABILITIES. -/
def execGetCapabilities (s : State) : Res :=
  doe (spdmAt 1 fun x => doeAnswer 0x61 [spdmCaps] (spdmTo 2 x)) s

/-- ECDSA P-384 and SHA-384 as SPDM 1.2 codes them. -/
def algP384 : Nat := 0x80
def algSha384 : Nat := 2

/-- NEGOTIATE_ALGORITHMS: ECDSA P-384 and SHA-384 are the only ones offered (R306). -/
def execNegotiateAlgorithms (asym hash : BitVec 32) (s : State) : Res :=
  doe (spdmAt 2 fun x =>
    if asym.getLsbD 7 && hash.getLsbD 1 then doeAnswer 0x63 [algP384, algSha384] (spdmTo 3 x) else doeError 1 x) s

/-- GET_DIGESTS: slot 0 holds the one chain. -/
def execGetDigests (s : State) : Res := doe (spdmAt 3 (doeAnswer 0x01 [1])) s

/-- GET_CERTIFICATE of slot 0. -/
def execGetCertificate (slot : BitVec 8) (off len : BitVec 16) (s : State) : Res :=
  doe (spdmAt 3 fun x => if slot = 0 then doeAnswer 0x02 [0, off.toNat, len.toNat] x else doeError 1 x) s

/-- CHALLENGE of slot 0: signed with ECDSA. -/
def execChallenge (slot : BitVec 8) (nonce : BitVec 256) (s : State) : Res :=
  doe (spdmAt 3 fun x =>
    if slot = 0 then emit (.doe 0x03 (splitWords nonce 4) true none) x else doeError 1 x) s

/-! Leaves (R356, R392). -/

def fLeaf : Fld := ⟨0x40054, 0, 16⟩
def fExhausted : Fld := ⟨0x40054, 31, 1⟩

/-- The next leaf is used: a fuse is blown before a leaf whose index is a multiple of 512, and the count is logged when
1,024 leaves remain. -/
def useLeaf (s : State) : State :=
  let n := fld s fLeaf
  let s1 := if n % 512 = 0 then secureStep 4 ccDone { s with fuses := { s.fuses with lms := s.fuses.lms + 1 } } else s
  let s2 := setReg 0x40054 (if n + 1 < 32768 then BitVec.ofNat 32 (n + 1) else 0x80008000)
    { s1 with ldr := { s1.ldr with lmsRec := BitVec.ofNat 16 (n + 1) } }
  iff (n + 1 + 1024 == 32768) (logEvent evLmsLeavesLow locNone 1024) s2

/-! Measurements (R307). -/

/-- Fuse state of block 0x05: the floors, the token and GLB.STATUS.replace. -/
def block5 (s : State) : List (BitVec 64) :=
  [(view s 0x40000).setWidth 64, (view s 0x40040).setWidth 64, BitVec.ofNat 64 s.pwr.replacePin.toNat]

/-- Digest of blocks 0x01 to 0x04: the boot ROM, the manifests of firmware and shell, and that of the released design, or
0. -/
def digest (s : State) (k : Nat) : BitVec 384 :=
  match k with
  | 1 => Config.bootRomDigest
  | 2 => s.ldr.fwDig
  | 3 => s.ldr.shDig
  | _ => match s.ldr.image with
    | some i => if s.ldr.stage = 0 then 0 else i.man.digest
    | none => 0

/-- A digest block. -/
def block (s : State) (k : Nat) : List (BitVec 64) := splitWords (digest s k) 6

/-- Block 0x10: the report, with the LMS signature and its leaf, or the exhausted flag. -/
def report (nonce : BitVec 256) (signed : Bool) (s : State) : State :=
  let gone := flag s fExhausted
  let fields := block s 1 ++ block s 2 ++ block s 3 ++ block s 4 ++ block5 s ++ [(view s 0x100).setWidth 64, BitVec.ofNat 64 gone.toNat] ++ splitWords nonce 4
  let leaf : Option (BitVec 16) := if gone then none else some (BitVec.ofNat 16 (fld s fLeaf))
  let s1 := if gone then s else useLeaf s
  emit (.doe 0x60 fields signed leaf) (secureStep 5 ccDone s1)

/-- The answer of GET_MEASUREMENTS: index 0 asks for the number of blocks, 0xFF for all of them. -/
def measurements (index : Nat) (signed : Bool) (nonce : BitVec 256) (s : State) : State :=
  let out := fun (fields : List (BitVec 64)) (x : State) => emit (.doe 0x60 fields signed none) x
  if index = 0 then out [6] s
  else if index < 5 then out (block s index) s
  else if index = 5 then out (block5 s) s
  else if index = 0x10 ∨ index = 0xFF then report nonce signed s
  else doeError 1 s

/-- GET_MEASUREMENTS. -/
def execGetMeasurements (index : BitVec 8) (signed : Bool) (nonce : BitVec 256) (s : State) : Res :=
  doe (spdmAt 3 (measurements index.toNat signed nonce)) s

end Sys2Proof.Machine
end

