-- ==== Sys2Proof/Machine/Integrity.lean ====
section
/-! DEFINITION. Configuration integrity: the scrubber's walk (R393 to R399), recovery (R400 to R402), the voted registers
(R403), SCRUB_FULL (R404), and upsets. -/

namespace Sys2Proof.Machine

/-! The items of a pavilion (R393, R395). -/

/-- One item: its area, crew and BP, its key in the configuration store (area 1: in the store of groups), its frame and
the number of the 64-bit word, or for a group the offset that ERR_LAST shows (R409). -/
structure Item where
  area  : Nat
  pav   : Nat
  crew  : Nat
  bp    : Nat
  key   : Nat
  frame : Nat
  off   : Nat
  deriving DecidableEq, Repr

/-- A table codeword of a frame. -/
def tableItem (p type crew part w : Nat) : Item :=
  let f := frameKey type p crew 0 part
  ⟨2, p, crew, 0, cfgKey f w, f, 2 * w⟩

/-- Table codewords before the care map: those of routes, ingress, the map, descriptors, probes and pins. -/
def tablesBelow (p : Nat) : Nat := 1024 + 128 + (if (gatewayOf p).isSome then 1024 else 0) + 512 + 66 + 512 + 512

/-- Table codewords of a pavilion (R393). -/
def tableCount (p : Nat) : Nat := tablesBelow p + 32768 + 64

/-- Table codeword `i`, in the order of the rows of R393. -/
def tableAt (p i : Nat) : Item :=
  let g := if (gatewayOf p).isSome then 1024 else 0
  if i < 1024 then tableItem p 4 0 (i / 512) (i % 512)
  else if i < 1152 then tableItem p 0 0 0 (i - 1024)
  else if i < 1152 + g then tableItem p 4 0 (2 + (i - 1152) / 512) ((i - 1152) % 512)
  else
    let j := i - 1152 - g
    if j < 512 then tableItem p 3 0 0 j
    else if j < 578 then tableItem p 5 0 15 (j - 512)
    else if j < 1090 then tableItem p 6 0 0 (j - 578)
    else if j < 1602 then tableItem p 7 0 0 (j - 1090)
    else if j < 34370 then tableItem p 8 ((j - 1602) / 512) 0 ((j - 1602) % 512)
    else tableItem p 9 (j - 34370) 0 0

/-- Items of an area of a pavilion; the schedule words below L count where the pass includes them. -/
def itemCount (s : State) (below : Bool) (p area : Nat) : Nat :=
  let l := s.cox.length
  match area with
  | 0 => 1024 * (if below then 1024 else 1024 - l)
  | 1 => 1024 * ((1024 - l) / 16)
  | _ => tableCount p

/-- Item `i` of an area, in walk order (R396). -/
def itemAt (s : State) (below : Bool) (p area i : Nat) : Item :=
  let l := s.cox.length
  match area with
  | 0 =>
    let n := if below then 1024 else 1024 - l
    let st := i % n + (if below then 0 else l)
    let c := i / n / 16
    let b := i / n % 16
    ⟨0, p, c, b, schedKey p c b st, frameKey 1 p c b (st / 512), 2 * (st % 512)⟩
  | 1 =>
    let n := (1024 - l) / 16
    let g := i % n + l / 16
    let c := i / n / 16
    let b := i / n % 16
    ⟨1, p, c, b, bpIndex p c b * 64 + g, frameKey 2 p c 0 0, 64 * b + g⟩
  | _ => tableAt p i

/-- Stroke of a schedule item. -/
def itemStroke (x : Item) : Nat := x.frame % 16 * 512 + x.off / 2

/-! The walk (R396). -/

/-- The scrubber reads a pavilion: it is enabled, and its port neither RECONF nor DOWN. -/
def scanned (s : State) (p : Nat) : Bool := enabled s p && portState s p != .reconf && portState s p != .down

/-- The first item at or after a place of the walk; none at the end of the pass. -/
def walkTo (s : State) (below : Bool) : Nat → Nat → Nat → Nat → Option (Nat × Nat × Nat)
  | 0, _, _, _ => none
  | k + 1, p, area, i =>
    if 128 ≤ p then none
    else if !scanned s p || 3 ≤ area then walkTo s below k (p + 1) 0 0
    else if itemCount s below p area ≤ i then walkTo s below k p (area + 1) 0
    else some (p, area, i)

/-- The layout of SCB.CFG_POS (R407). -/
def posWord (p area i : Nat) : Nat := area * 2 ^ 30 + p * 2 ^ 22 + i

/-- A schedule word below L while the controller is in RUN or EASY: BPs read it, and the scrubber leaves it (R393). -/
def bpsOwn (s : State) (x : Item) : Bool := x.area == 0 && inCourse s && decide (itemStroke x < s.cox.length)

/-! What an error does (R398, R399). -/

/-- Records the first error, and an uncorrectable one over a correctable one, in ERR_LAST and ERR_ADDR (R409). -/
def recordItem (x : Item) (synd : Nat) (ue care : Bool) (s : State) : State :=
  let old := reg s 0x60010
  if !old.getLsbD 31 || (ue && !old.getLsbD 30) then
    let ps := if x.area = 1 then synd / 64 % 2 * 128 + synd % 64 else synd % 256
    let v := 2 ^ 31 + ue.toNat * 2 ^ 30 + care.toNat * 2 ^ 29 + x.area * 2 ^ 27 + ps * 2 ^ 19 + x.off % 1024
    setReg 0x60014 (BitVec.ofNat 32 (x.frame * 128)) (setReg 0x60010 (BitVec.ofNat 32 v) s)
  else s

/-- The check of an item. -/
def itemCheck (s : State) (x : Item) : Ecc :=
  if x.area = 1 then
    let g := x.off % 64
    let w := cfgData s (cfgKey x.frame (x.off / 2))
    check39 (BitVec.ofNat 32 (w / 2 ^ (32 * (g % 2)))) (look 0 s.groups x.key)
  else check72 (look 0 s.cfg x.key)

/-- Words of the care map that say whether an item is care. -/
def careWordsOf (x : Item) : List Nat :=
  match x.area with
  | 0 => [careKey x.pav x.crew x.bp (itemStroke x)]
  | 1 => [careSlotKey x.pav x.crew x.bp (16 * (x.off % 64))]
  | _ => []

/-- The item is care (R397). -/
def itemCare (s : State) (x : Item) : Bool :=
  match x.area with
  | 0 => careWord s x.pav x.crew x.bp (itemStroke x)
  | 1 => careGroup s x.pav x.crew x.bp (x.off % 64)
  | _ => true

/-- The codeword of a group's initial values. -/
def groupInit (s : State) (x : Item) : Nat :=
  encodeEcc 32 6 (cfgData s (cfgKey x.frame (x.off / 2)) / 2 ^ (32 * (x.off % 2)) % 2 ^ 32)

/-- Writes an item's codeword; what a group differs from its initial values is kept. -/
def putItem (x : Item) (w : Nat) (s : State) : State :=
  if x.area = 1 then { s with groups := upd 0 s.groups x.key (BitVec.ofNat 39 (w ^^^ groupInit s x)) }
  else { s with cfg := upd 0 s.cfg x.key (BitVec.ofNat 72 w) }

/-- The item is corrected in place. -/
def fixItem (x : Item) (e : Ecc) (s : State) : State := putItem x e.word s

/-- The item becomes all-zero data with valid check bits. -/
def zeroItem (x : Item) (s : State) : State := putItem x 0 s

/-- Location of an item's events (R550). -/
def itemLoc (x : Item) : Nat := locBp x.pav x.crew x.bp 0

/-- A correctable item (R398). -/
def itemFixed (x : Item) (e : Ecc) (s : State) : State :=
  let first := ctr s 0x60020 == 0
  recordItem x e.synd false (itemCare s x)
    (iff first (logEvent evConfigCe (itemLoc x) x.area) (count 0x60020 (fixItem x e s)))

/-- A care-map codeword that is uncorrectable (R399). -/
def isCareMap (x : Item) : Bool := x.area == 2 && x.frame / 2 ^ 21 == 8

/-- An uncorrectable dynamic-route codeword belongs to no frame: it halts, and nothing can be queued for it
(notes/assumptions/22.md). -/
def isDynamic (x : Item) : Bool := x.area == 2 && x.frame / 2 ^ 21 == 0

/-- An uncorrectable item (R398, R399). -/
def itemBad (x : Item) (e : Ecc) (s : State) : State :=
  if isCareMap x then careMapBad x.pav x.crew x.key (recordItem x e.synd true true s)
  else
    let s0 := (careWordsOf x).foldl (fun y k => careMapBad x.pav x.crew k y) s
    if isDynamic x then
      recordItem x e.synd true true (raiseHalt hcConfigUe (logEvent evConfigUe (itemLoc x) 2 (count 0x60028 s0)))
    else if itemCare s x then careError x.pav x.crew x.bp x.area x.frame (recordItem x e.synd true true s0)
    else zeroItem x (recordItem x e.synd true false (count 0x60030 s0))

/-- One item is read and acted on: 0 clean, 1 corrected, 2 care error, 3 don't-care error. -/
def scrubItem (x : Item) (s : State) : Nat × State :=
  let e := itemCheck s x
  match e.cls with
  | .clean => (0, s)
  | .fixed => (1, itemFixed x e s)
  | .bad => (if itemCare s x then 2 else 3, itemBad x e s)

/-! The background pass (R396, R407, R408). -/

def fBelowL : Fld := ⟨0x60008, 16, 1⟩
def fPasses : Fld := ⟨0x60008, 0, 16⟩

/-- A pass that begins includes the words below L while the controller is not in RUN or EASY (R408). -/
def passStart (s : State) : State := if reg s 0x60004 == 0 then setFlag fBelowL (!inCourse s) s else s

/-- The pass is complete: it is counted, and the next begins at pavilion 0. -/
def passEnd (s : State) : State := setReg 0x60004 0 (setFld fPasses (stick 0xFFFF (fld s fPasses) 1) s)

/-- The scrubber reads its next item and moves on. -/
def backgroundStep (s : State) : State :=
  let s1 := passStart s
  let below := flag s1 fBelowL
  let v := reg s1 0x60004
  match walkTo s1 below 520 (bits v 22 7) (bits v 30 2) (bits v 0 22) with
  | none => passEnd s1
  | some (p, a, i) =>
    let x := itemAt s1 below p a i
    let s2 := if bpsOwn s1 x then s1 else (scrubItem x s1).2
    (match walkTo s2 below 520 p a (i + 1) with
     | some (q, b, j) => setReg 0x60004 (BitVec.ofNat 32 (posWord q b j)) s2
     | none => passEnd s2)

/-! SCRUB_FULL (R404). -/


/-- The operation is at a step. -/
def fullTo (f : FullScrub) (n : Nat) (s : State) : State :=
  showStep n { s with scb := { s.scb with full := some { f with step := n, pos := 0 } } }

/-- After the configuration pass and the recovery: the memory passes, if asked for. -/
def fullMemory (f : FullScrub) (s : State) : State := if f.memory then fullTo f 3 s else fullEnd ccDone f s

/-- After the configuration pass: the recovery whose source SCRUB_FULL supplies, while it is in progress. -/
def fullRecovery (f : FullScrub) (s : State) : State :=
  if f.rec_ then
    match s.scb.st with
    | .read | .write => fullTo f 2 s
    | .failed => fullEnd s.scb.fail f s
    | _ => fullMemory f s
  else fullMemory f s

/-- The operation's own configuration pass reads its next item; it includes the words below L that no BP owns. -/
def fullStep (f : FullScrub) (s : State) : State :=
  let p := f.pos / 2 ^ 24
  let a := f.pos / 2 ^ 22 % 4
  match walkTo s true 520 p a (f.pos % 2 ^ 22) with
  | none => fullRecovery f s
  | some (q, b, i) =>
    let x := itemAt s true q b i
    let (k, s1) := if bpsOwn s x then (0, s) else scrubItem x s
    let g := { f with fixed := f.fixed + (k == 1).toNat, care := f.care + (k == 2).toNat, dc := f.dc + (k == 3).toNat }
    (match walkTo s1 true 520 q b (i + 1) with
     | some (q', b', j) =>
       { s1 with scb := { s1.scb with full := some { g with pos := q' * 2 ^ 24 + b' * 2 ^ 22 + j } } }
     | none => fullRecovery g s1)

/-- The list of SCRUB_FULL obeys R368 and R404. -/
def fullArgsOk (m : MbxArgs) : Bool :=
  m.a0 &&& 0xFFFFFFFC == 0 && sourceArgsOk (m.a0.getLsbD 0) m

/-- The body of SCRUB_FULL: a NEED_HOST recovery that it supplies goes to READ (R401, R404). -/
def scrubFull (m : MbxArgs) (s : State) : State :=
  if !fullArgsOk m then mbxRefuse ccInternal 0x14 s
  else
    let feeds := m.a0.getLsbD 0 && s.scb.st == .needHost
    let s1 := if feeds then { s with scb := { s.scb with st := .read } } else s
    fullTo { step := 1, pos := 0, fixed := 0, care := 0, dc := 0, rec_ := feeds, memory := m.a0.getLsbD 1 } 1 s1

/-- SCRUB_FULL (R404). -/
def execScrubFull (m : MbxArgs) (s : State) : Res := .next (mbxWrite 0x26 true false m (scrubFull m) s)

/-- SCRUB_ITEM (R396): stopped with a rate of 0, in P2 and P3, and from pass B of a LOAD_FULL until the load ends. While
SCRUB_FULL runs the background scrubbers wait (R404). -/
def execScrubItem (s : State) : Res :=
  whenever (upState s && flag s fPostDone && !writingBase s) s
    (match s.scb.full with
     | some f => if f.step = 1 then fullStep f s else s
     | none => iff (bits (reg s 0x60000) 0 16 != 0) backgroundStep s)

/-- A bank pass of SCRUB_FULL reads its next codeword. -/
def fullBank (f : FullScrub) (s : State) : State :=
  match nextBankItem s f.pos with
  | none => fullTo f 4 s
  | some n =>
    if !bankScrubMay s n then s
    else
    let s1 := scrubBank n s
    { s1 with scb := { s1.scb with full := some { f with pos := n + 1 } } }

/-- A deep pass of SCRUB_FULL reads its next codeword. -/
def fullDeep (f : FullScrub) (glitch : BitVec 288) (s : State) : State :=
  let s1 := (deepRead f.pos 1 glitch s).2
  if schedDeep s f.pos then s
  else if f.pos + 1 = 2 ^ 31 then fullEnd ccDone f s1
  else { s1 with scb := { s1.scb with full := some { f with pos := f.pos + 1 } } }

/-- BANK_SCRUB (R190, R404): a rate of 0 stops the background scrubber, and so do P2 and P3 (R463). -/
def execBankScrub (s : State) : Res :=
  whenever (upState s) s (match s.scb.full with
    | some f => if f.step = 3 then fullBank f s else s
    | none => iff (bits (reg s 0x60100) 0 16 != 0) bankScrubStep s)

/-- Deep memory is powered and initialised. -/
def deepUp (s : State) : Bool := upState s && flag s fDmemInit && fld s fDomDmem == 0

/-- DEEP_SCRUB (R190, R404). -/
def execDeepScrub (glitch : BitVec 288) (s : State) : Res :=
  whenever (deepUp s) s (match s.scb.full with
    | some f => if f.step = 4 then fullDeep f glitch s else s
    | none => iff (bits (reg s 0x60104) 0 16 != 0) (deepScrubStep glitch) s)

/-! Recovery (R400, R401). -/

/-- RECOVERY_READ: every chunk verifies (0), a digest differs (1), or the source cannot be read (2). While SCRUB_FULL
that supplies the source runs its configuration pass, the reading waits. -/
def recoveryRead (outcome : Nat) (s : State) : State :=
  if outcome = 0 then { s with scb := { s.scb with st := .write } }
  else recoverFail (if outcome = 1 then ccSourceChanged else ccInternal) s

/-- RECOVERY_READ. -/
def execRecoveryRead (outcome : BitVec 2) (s : State) : Res :=
  whenever (s.scb.st == .read && !(s.scb.full.any fun f => f.rec_ && f.step == 1)) s (recoveryRead outcome.toNat s)

/-- A crew's data stores return to their initial values. -/
def resetSlots (p c : Nat) (s : State) : State :=
  let bp := fun (k : Nat) => k / 16 == p * 64 + c
  { s with slots := s.slots.filter fun e => !bp (e.1 / 1024), groups := s.groups.filter fun e => !bp (e.1 / 64) }

/-- A crew's keepers return to their initial values. -/
def resetKeepers (p c : Nat) (s : State) : State :=
  { s with fab := { s.fab with keepers := s.fab.keepers.filter fun e => e.1 / 4 != p * 64 + c } }

/-- A queued frame is rewritten from the part that holds it; a frame that the part does not list is all zero (R366,
R367, R400). -/
def rewriteFrame (s : State) (a : BitVec 32) : State :=
  let k := a.toNat / 128
  let own := match image s with
    | some i => i.frames.find? fun f => f.addr = a
    | none => none
  let m := s.cfg.filter fun e => e.1 / 512 != k
  let s1 := careRewritten (· == k) { s with cfg := match own with | some f => putFrame m f | none => m }
  let p := framePav a
  let c := frameCrew a
  if frameType a = 2 then resetSlots p c s1 else if frameType a = 9 then resetKeepers p c s1 else s1

/-- Every queued frame is written: `CONFIG_RECOVERED`, and IDLE (R401). -/
def recoveryWrite (s : State) : State :=
  let first := (s.scb.queue.head?.getD 0)
  let s1 := s.scb.queue.foldl rewriteFrame s
  let s2 := logEvent evConfigRecovered (locPav (framePav first) 0) s.scb.queue.length
    (setFlag fRecHost false { s1 with scb := { s1.scb with st := .idle, queue := [] } })
  match s.scb.full with
  | some f => if f.rec_ && f.step == 2 then fullMemory f s2 else s2
  | none => s2

/-- RECOVERY_WRITE. -/
def execRecoveryWrite (s : State) : Res := whenever (s.scb.st == .write) s (recoveryWrite s)

/-- RECOVERY_TIMEOUT (R401): 10 s in READ. -/
def execRecoveryTimeout (s : State) : Res := whenever (s.scb.st == .read) s (recoveryRead 2 s)

/-! Voted registers (R403). -/

/-- The registers held in three copies. -/
def voted : List Nat := [0x50000, 0x60000, 0x60004, 0x60050, 0x60054, 0x60100, 0x60104, 0x60108, 0x6010C]

/-- A recovery is in progress. -/
def recovering (s : State) : Bool :=
  s.scb.st == .waitHalt || s.scb.st == .needHost || s.scb.st == .read || s.scb.st == .write

/-- A register whose three copies differ takes its reset value, and the scrubber it serves starts its walk anew. The
loader's own register takes the load in progress with it, which ends with `INTERNAL`, in pass B of a base part with no
image and the loader IDLE (notes/assumptions/23.md). -/
def voteLost (a : Nat) (s : State) : State :=
  let v : Verdict := ⟨ccInternal, 0, 0, 0⟩
  if a = 0x50000 then
    let s1 := match s.ldr.job with
      | some j => if s.ldr.passB then (if baseJob j then abortRecovery (endLoad v s) else passBFails v j s) else failLoad v s
      | none => s
    setReg 0x50000 0 s1
  else if a = 0x60050 then setReg a 0 { s with scb := { s.scb with st := .idle, queue := [] } }
  else if a = 0x60100 then setReg 0x60108 0 (setReg a (regReset a) s)
  else if a = 0x60104 then setReg 0x6010C 0 (setReg a (regReset a) s)
  else if a = 0x60000 then setReg 0x60004 0 (setReg a (regReset a) s)
  else setReg a (regReset a) s

/-- SCRUB_SELF_CORRECT: one copy of a voted register differs, or all three do. -/
def selfCorrect (a : Nat) (three : Bool) (s : State) : State :=
  if three then
    let s1 := voteLost a s
    let s2 := iff (recovering s) (recoverFail ccInternal) s1
    logEvent evScrubSelfCorrect (locAddr a true) (a % 65536) s2
  else logEvent evScrubSelfCorrect (locAddr a false) (a % 65536) (count 0x60038 s)

/-- SCRUB_SELF_CORRECT (R403): `k` counts the registers in the order of R403. -/
def execScrubSelfCorrect (k : BitVec 4) (threeWay : Bool) (s : State) : Res :=
  forUnit (decide (k.toNat < 9)) (whenever (hostUp s) s (selfCorrect (voted.getD k.toNat 0) threeWay s))

/-! Upsets (R29, R41, R187, R393). -/

/-- Flips a bit of a configuration codeword. -/
def flipCfg (k bit : Nat) (s : State) : State :=
  if bit < 72 then { s with cfg := upd 0 s.cfg k (look 0 s.cfg k ^^^ BitVec.ofNat 72 (2 ^ bit)) } else s

/-- Flips a bit of a data-store group (R394). -/
def flipGroup (k bit : Nat) (s : State) : State :=
  if bit < 39 then { s with groups := upd 0 s.groups k (look 0 s.groups k ^^^ BitVec.ofNat 39 (2 ^ bit)) } else s

/-- Flips a bit of a slot: slots below L carry no check bits (R29). -/
def flipSlot (p c b j bit : Nat) (s : State) : State :=
  if j < s.cox.length then setSlot p c b j (cell s p c b j ^^^ BitVec.ofNat 2 (2 ^ bit)) s
  else flipGroup (bpIndex p c b * 64 + j / 16) (2 * (j % 16) + bit) s

/-- What an upset flips. -/
def upset (t : Target) (s : State) : State :=
  match t with
  | .sched p c b st bit => flipCfg (schedKey p.toNat c.toNat b.toNat st.toNat) bit.toNat s
  | .slot p c b j bit => flipSlot p.toNat c.toNat b.toNat j.toNat bit.toNat s
  | .group p c b g bit =>
    if 16 * g.toNat < s.cox.length then
      if bit.toNat < 32 then
        flipSlot p.toNat c.toNat b.toNat (16 * g.toNat + bit.toNat / 2) (bit.toNat % 2) s
      else s
    else flipGroup (bpIndex p.toNat c.toNat b.toNat * 64 + g.toNat) bit.toNat s
  | .table addr w bit =>
    let ty := frameType addr
    if ty = 0 ∨ (3 ≤ ty ∧ ty ≤ 9) then flipCfg (cfgKey (addr.toNat / 128) w.toNat) bit.toNat s else s
  | .bank p cw bit =>
    let k := bankKey p.toNat cw.toNat
    if bit.toNat < 72 then setBankCw k (bankCw s k ^^^ BitVec.ofNat 72 (2 ^ bit.toNat)) s else s
  | .deep st cw bit =>
    let k := deepKey st.toNat cw.toNat
    if bit.toNat < 288 then setDeepCw k (deepCw s k ^^^ BitVec.ofNat 288 (2 ^ bit.toNat)) s else s

/-- UPSET. -/
def execUpset (t : Target) (s : State) : Res := .next (upset t s)

end Sys2Proof.Machine
end

