-- ==== Sys2Proof/Machine/Command.lean ====
section
/-! DEFINITION. REGISTER_WRITE (R4 to R7), with the write of MBX.CMD that starts a mailbox command (R304, R305, R308). -/

namespace Sys2Proof.Machine

/-- The words of the command that a write of MBX.CMD starts: its arguments stand in MBX.ARG (R305). -/
def cmdArgs (v : Word) (s : State) : MbxArgs :=
  { irq := v.getLsbD 31, seq := v.extractLsb' 8 8, a0 := reg s 0x10010, a1 := reg s 0x10014, a2 := reg s 0x10018,
    a3 := reg s 0x1001C }

/-- POWER_DOMAIN by its operation (R464). -/
def cmdPower (m : MbxArgs) (x : CmdIn) (s : State) : Res :=
  match bits m.a0 0 3 with
  | 1 => execDieDown m s
  | 2 => execDieUp m x.ready s
  | 3 => execPortDown m s
  | 4 => execPortUp m s
  | _ => execPackageState m s

/-- The command of a code of R304. -/
def startCommand (v : Word) (x : CmdIn) (s : State) : Res :=
  let m := cmdArgs v s
  match bits v 0 8 with
  | 0x10 => execSetMode m s
  | 0x11 => execMoveMaster m s
  | 0x12 => execRelease m s
  | 0x13 => cmdPower m x s
  | 0x14 => execInstallToken m x.token s
  | 0x20 => execLoadFull m s
  | 0x21 => execLoadPartial m s
  | 0x22 => execRollback m s
  | 0x23 => execMarch m x.faults s
  | 0x24 => execBist m x.bist s
  | 0x25 => execFuseRepair m s
  | 0x26 => execScrubFull m s
  | k => execReservedCommand m (BitVec.ofNat 8 k) s

/-- REGISTER_WRITE (R6): a whole-word write of MBX.CMD is the mailbox row of its command (R305, R308). -/
def execRegisterWrite (bar : Bar) (addr v : Word) (x : WriteIn) (s : State) : Res :=
  if bar = .bar0 ∧ addr = 0x10000 ∧ x.be = 0xF ∧ hostUp s = true then startCommand v x.cmd s
  else whenever (hostUp s) s (writeAccess bar addr v x.be s)

end Sys2Proof.Machine
end

