-- ==== Sys2Proof/Machine/Dispatch.lean ====
section
/-! DEFINITION. One arm per command: the meaning that the spec gives it. -/

namespace Sys2Proof.Machine

/-- What a command does. The state it is given is the one without it: its queue is the rest (Machine/Step.lean). -/
def exec (i : Instr) (s : State) : Host.Outcome State Fault Refusal :=
  match i with
  | .nop p c b => Sys2Proof.Machine.execNop p c b s
  | .eval p c b => Sys2Proof.Machine.execEval p c b s
  | .evalHold p c b => Sys2Proof.Machine.execEvalHold p c b s
  | .wide p c b => Sys2Proof.Machine.execWide p c b s
  | .send p c b => Sys2Proof.Machine.execSend p c b s
  | .drive p c b => Sys2Proof.Machine.execDrive p c b s
  | .memrd p c b lat => Sys2Proof.Machine.execMemrd p c b lat s
  | .memwr p c b => Sys2Proof.Machine.execMemwr p c b s
  | .pinout p c b => Sys2Proof.Machine.execPinout p c b s
  | .log p c b => Sys2Proof.Machine.execLog p c b s
  | .trapchk p c b => Sys2Proof.Machine.execTrapchk p c b s
  | .bankReadDeliver p port => Sys2Proof.Machine.execBankReadDeliver p port s
  | .dmemResultArrive t glitch => Sys2Proof.Machine.execDmemResultArrive t glitch s
  | .dmemResultDeliver t => Sys2Proof.Machine.execDmemResultDeliver t s
  | .correctionWriteBack => Sys2Proof.Machine.execCorrectionWriteBack s
  | .bankScrub => Sys2Proof.Machine.execBankScrub s
  | .deepScrub glitch => Sys2Proof.Machine.execDeepScrub glitch s
  | .vn0Launch p e => Sys2Proof.Machine.execVn0Launch p e s
  | .flitSwitch p inp err => Sys2Proof.Machine.execFlitSwitch p inp err s
  | .vn0Land p inp err => Sys2Proof.Machine.execVn0Land p inp err s
  | .ingressHandoff n => Sys2Proof.Machine.execIngressHandoff n s
  | .packetHop p out errs => Sys2Proof.Machine.execPacketHop p out errs s
  | .bankRdRequest p => Sys2Proof.Machine.execBankRdRequest p s
  | .bankWrRequest p same => Sys2Proof.Machine.execBankWrRequest p same s
  | .regRd p => Sys2Proof.Machine.execRegRd p s
  | .regWr p => Sys2Proof.Machine.execRegWr p s
  | .deliver p => Sys2Proof.Machine.execDeliver p s
  | .respData io p => Sys2Proof.Machine.execRespData io p s
  | .respAck io p => Sys2Proof.Machine.execRespAck io p s
  | .respStatus io p => Sys2Proof.Machine.execRespStatus io p s
  | .cfgWr p addr word => Sys2Proof.Machine.execCfgWr p addr word s
  | .cfgRd p addr word n => Sys2Proof.Machine.execCfgRd p addr word n s
  | .mgmt => Sys2Proof.Machine.execMgmt s
  | .routeBusy p out => Sys2Proof.Machine.execRouteBusy p out s
  | .wakeLatchReplay die => Sys2Proof.Machine.execWakeLatchReplay die s
  | .run => Sys2Proof.Machine.execRun s
  | .step => Sys2Proof.Machine.execStep s
  | .halt => Sys2Proof.Machine.execHalt s
  | .courseBoundary => Sys2Proof.Machine.execCourseBoundary s
  | .startLeadEnd => Sys2Proof.Machine.execStartLeadEnd s
  | .grant add => Sys2Proof.Machine.execGrant add s
  | .ask m => Sys2Proof.Machine.execAsk m s
  | .stop x => Sys2Proof.Machine.execStop x s
  | .clear m => Sys2Proof.Machine.execClear m s
  | .resume m => Sys2Proof.Machine.execResume m s
  | .haltMessage m => Sys2Proof.Machine.execHaltMessage m s
  | .armMessage m => Sys2Proof.Machine.execArmMessage m s
  | .fire m => Sys2Proof.Machine.execFire m s
  | .easyEnter => Sys2Proof.Machine.execEasyEnter s
  | .easyResumePoint => Sys2Proof.Machine.execEasyResumePoint s
  | .easyLong => Sys2Proof.Machine.execEasyLong s
  | .throttleRequest up x => Sys2Proof.Machine.execThrottleRequest up x s
  | .courseStretchAsk => Sys2Proof.Machine.execCourseStretchAsk s
  | .boardWaitTimeout => Sys2Proof.Machine.execBoardWaitTimeout s
  | .tclkEdge falling => Sys2Proof.Machine.execTclkEdge falling s
  | .tetherLeadEnd => Sys2Proof.Machine.execTetherLeadEnd s
  | .setMode m => Sys2Proof.Machine.execSetMode m s
  | .moveMaster m => Sys2Proof.Machine.execMoveMaster m s
  | .boardFormed b => Sys2Proof.Machine.execBoardFormed b s
  | .boardIncomplete => Sys2Proof.Machine.execBoardIncomplete s
  | .linkLost x => Sys2Proof.Machine.execLinkLost x s
  | .detect n opens shorts clockOk => Sys2Proof.Machine.execDetect n opens shorts clockOk s
  | .trainBlock n lane block => Sys2Proof.Machine.execTrainBlock n lane block s
  | .adaptStep n lane h w => Sys2Proof.Machine.execAdaptStep n lane h w s
  | .blockLock n => Sys2Proof.Machine.execBlockLock n s
  | .trainTimeout n => Sys2Proof.Machine.execTrainTimeout n s
  | .lockTimeout n => Sys2Proof.Machine.execLockTimeout n s
  | .exchangeTimeout n => Sys2Proof.Machine.execExchangeTimeout n s
  | .faultRetry n => Sys2Proof.Machine.execFaultRetry n s
  | .dataFrame n f => Sys2Proof.Machine.execDataFrame n f s
  | .exchange n f => Sys2Proof.Machine.execExchange n f s
  | .align n f => Sys2Proof.Machine.execAlign n f s
  | .sleepReq n f => Sys2Proof.Machine.execSleepReq n f s
  | .sleepAck n f => Sys2Proof.Machine.execSleepAck n f s
  | .sleepAckTimeout n => Sys2Proof.Machine.execSleepAckTimeout n s
  | .wakeBlock x => Sys2Proof.Machine.execWakeBlock x s
  | .laneSignalLoss n lane lockLost => Sys2Proof.Machine.execLaneSignalLoss n lane lockLost s
  | .bufferDrift n ahead => Sys2Proof.Machine.execBufferDrift n ahead s
  | .fomRefresh n lane h w => Sys2Proof.Machine.execFomRefresh n lane h w s
  | .retrain n => Sys2Proof.Machine.execRetrain n s
  | .sleep n => Sys2Proof.Machine.execSleep n s
  | .wake n => Sys2Proof.Machine.execWake n s
  | .test n on => Sys2Proof.Machine.execTest n on s
  | .inject n v => Sys2Proof.Machine.execInject n v s
  | .nopEntry c f => Sys2Proof.Machine.execNopEntry c f s
  | .sendMsg c f => Sys2Proof.Machine.execSendMsg c f s
  | .bankRd c f => Sys2Proof.Machine.execBankRd c f s
  | .bankWr c f data same => Sys2Proof.Machine.execBankWr c f data same s
  | .deepRd c f glitch => Sys2Proof.Machine.execDeepRd c f glitch s
  | .deepWr c f data => Sys2Proof.Machine.execDeepWr c f data s
  | .sqTail c fn v => Sys2Proof.Machine.execSqTail c fn v s
  | .cqHead c fn v => Sys2Proof.Machine.execCqHead c fn v s
  | .abort c fn tag => Sys2Proof.Machine.execAbort c fn tag s
  | .channelEnable c fn v => Sys2Proof.Machine.execChannelEnable c fn v s
  | .channelDisable c fn => Sys2Proof.Machine.execChannelDisable c fn s
  | .chOwn v => Sys2Proof.Machine.execChOwn v s
  | .chBudget v => Sys2Proof.Machine.execChBudget v s
  | .completionWrite c busErr => Sys2Proof.Machine.execCompletionWrite c busErr s
  | .functionLevelReset fn => Sys2Proof.Machine.execFunctionLevelReset fn s
  | .d3hotEntry fn => Sys2Proof.Machine.execD3hotEntry fn s
  | .d3coldEntry fn => Sys2Proof.Machine.execD3coldEntry fn s
  | .release m => Sys2Proof.Machine.execRelease m s
  | .packageState m => Sys2Proof.Machine.execPackageState m s
  | .dieDown m => Sys2Proof.Machine.execDieDown m s
  | .dieUp m ready => Sys2Proof.Machine.execDieUp m ready s
  | .portDown m => Sys2Proof.Machine.execPortDown m s
  | .portUp m => Sys2Proof.Machine.execPortUp m s
  | .installToken m tok => Sys2Proof.Machine.execInstallToken m tok s
  | .loadFull m => Sys2Proof.Machine.execLoadFull m s
  | .loadPartial m => Sys2Proof.Machine.execLoadPartial m s
  | .rollback m => Sys2Proof.Machine.execRollback m s
  | .march m faults => Sys2Proof.Machine.execMarch m faults s
  | .bist m b => Sys2Proof.Machine.execBist m b s
  | .fuseRepair m => Sys2Proof.Machine.execFuseRepair m s
  | .scrubFull m => Sys2Proof.Machine.execScrubFull m s
  | .reservedCommand m code => Sys2Proof.Machine.execReservedCommand m code s
  | .mbxComplete => Sys2Proof.Machine.execMbxComplete s
  | .doeDiscovery index => Sys2Proof.Machine.execDoeDiscovery index s
  | .getVersion => Sys2Proof.Machine.execGetVersion s
  | .getCapabilities => Sys2Proof.Machine.execGetCapabilities s
  | .negotiateAlgorithms asym hash => Sys2Proof.Machine.execNegotiateAlgorithms asym hash s
  | .getDigests => Sys2Proof.Machine.execGetDigests s
  | .getCertificate slot off len => Sys2Proof.Machine.execGetCertificate slot off len s
  | .challenge slot nonce => Sys2Proof.Machine.execChallenge slot nonce s
  | .getMeasurements index signed nonce => Sys2Proof.Machine.execGetMeasurements index signed nonce s
  | .portBind v => Sys2Proof.Machine.execPortBind v s
  | .creditGrant p => Sys2Proof.Machine.execCreditGrant p s
  | .messageReady c tag => Sys2Proof.Machine.execMessageReady c tag s
  | .engineSend e => Sys2Proof.Machine.execEngineSend e s
  | .portDecision p => Sys2Proof.Machine.execPortDecision p s
  | .portLanding p waits => Sys2Proof.Machine.execPortLanding p waits s
  | .replayEnable on => Sys2Proof.Machine.execReplayEnable on s
  | .replayEntryRead entry => Sys2Proof.Machine.execReplayEntryRead entry s
  | .recEnable replay v => Sys2Proof.Machine.execRecEnable replay v s
  | .engineLoadWindow busy => Sys2Proof.Machine.execEngineLoadWindow busy s
  | .loadPassB => Sys2Proof.Machine.execLoadPassB s
  | .partialPassB => Sys2Proof.Machine.execPartialPassB s
  | .loadWriteDone w => Sys2Proof.Machine.execLoadWriteDone w s
  | .loadStoreDone ok => Sys2Proof.Machine.execLoadStoreDone ok s
  | .quiesceTimeout => Sys2Proof.Machine.execQuiesceTimeout s
  | .loaderWakeTimeout => Sys2Proof.Machine.execLoaderWakeTimeout s
  | .loadRecovery => Sys2Proof.Machine.execLoadRecovery s
  | .powerOn pos nonce => Sys2Proof.Machine.execPowerOn pos nonce s
  | .supplyRiseTimeout rail => Sys2Proof.Machine.execSupplyRiseTimeout rail s
  | .postSlice k pass us bad faults => Sys2Proof.Machine.execPostSlice k pass us bad faults s
  | .incomplete k => Sys2Proof.Machine.execIncomplete k s
  | .retentionDwellEnd => Sys2Proof.Machine.execRetentionDwellEnd s
  | .bootRomStart d0 d1 keys fw0 fw1 lmsNext => Sys2Proof.Machine.execBootRomStart d0 d1 keys fw0 fw1 lmsNext s
  | .keeperStart shell shellCode droutes => Sys2Proof.Machine.execKeeperStart shell shellCode droutes s
  | .scrubItem => Sys2Proof.Machine.execScrubItem s
  | .recoveryRead outcome => Sys2Proof.Machine.execRecoveryRead outcome s
  | .recoveryWrite => Sys2Proof.Machine.execRecoveryWrite s
  | .recoveryTimeout => Sys2Proof.Machine.execRecoveryTimeout s
  | .scrubSelfCorrect k threeWay => Sys2Proof.Machine.execScrubSelfCorrect k threeWay s
  | .arm => Sys2Proof.Machine.execArm s
  | .disarm => Sys2Proof.Machine.execDisarm s
  | .force => Sys2Proof.Machine.execForce s
  | .probeSample => Sys2Proof.Machine.execProbeSample s
  | .sequencerDecision => Sys2Proof.Machine.execSequencerDecision s
  | .captureWrite p granted => Sys2Proof.Machine.execCaptureWrite p granted s
  | .triggerTimeout => Sys2Proof.Machine.execTriggerTimeout s
  | .densityWindowEnd => Sys2Proof.Machine.execDensityWindowEnd s
  | .measEnable u v => Sys2Proof.Machine.execMeasEnable u v s
  | .densEnable v => Sys2Proof.Machine.execDensEnable v s
  | .traceEnable v => Sys2Proof.Machine.execTraceEnable v s
  | .flush => Sys2Proof.Machine.execFlush s
  | .msgCtrl v => Sys2Proof.Machine.execMsgCtrl v s
  | .hostMarkerCommit => Sys2Proof.Machine.execHostMarkerCommit s
  | .logPacketCommit => Sys2Proof.Machine.execLogPacketCommit s
  | .traceSinkWrite busErr => Sys2Proof.Machine.execTraceSinkWrite busErr s
  | .keeperSleep => Sys2Proof.Machine.execKeeperSleep s
  | .keeperWake => Sys2Proof.Machine.execKeeperWake s
  | .powerEntry => Sys2Proof.Machine.execPowerEntry s
  | .smbusAddressMatch addr => Sys2Proof.Machine.execSmbusAddressMatch addr s
  | .smbusHoldTimeout => Sys2Proof.Machine.execSmbusHoldTimeout s
  | .smbusAddr len ptr pecOk => Sys2Proof.Machine.execSmbusAddr len ptr pecOk s
  | .smbusDataRead => Sys2Proof.Machine.execSmbusDataRead s
  | .smbusDataWrite len v pecOk => Sys2Proof.Machine.execSmbusDataWrite len v pecOk s
  | .pcieWake => Sys2Proof.Machine.execPcieWake s
  | .daxairWake n => Sys2Proof.Machine.execDaxairWake n s
  | .wakeStep us => Sys2Proof.Machine.execWakeStep us s
  | .wakeFail => Sys2Proof.Machine.execWakeFail s
  | .resumeAfterWake => Sys2Proof.Machine.execResumeAfterWake s
  | .padRelease v => Sys2Proof.Machine.execPadRelease v s
  | .bankWanted b => Sys2Proof.Machine.execBankWanted b s
  | .bankOn b podidMv => Sys2Proof.Machine.execBankOn b podidMv s
  | .podMiskeyed b reversed podidMv => Sys2Proof.Machine.execPodMiskeyed b reversed podidMv s
  | .podRemoved b => Sys2Proof.Machine.execPodRemoved b s
  | .vccioFault b mv => Sys2Proof.Machine.execVccioFault b mv s
  | .podFaultClear b => Sys2Proof.Machine.execPodFaultClear b s
  | .pinShort pin => Sys2Proof.Machine.execPinShort pin s
  | .shortClear b v => Sys2Proof.Machine.execShortClear b v s
  | .pulltest v => Sys2Proof.Machine.execPulltest v s
  | .pulltestDone followed => Sys2Proof.Machine.execPulltestDone followed s
  | .idcode => Sys2Proof.Machine.execIdcode s
  | .samplePreload preload => Sys2Proof.Machine.execSamplePreload preload s
  | .extest => Sys2Proof.Machine.execExtest s
  | .highz => Sys2Proof.Machine.execHighz s
  | .clamp => Sys2Proof.Machine.execClamp s
  | .extestPulse => Sys2Proof.Machine.execExtestPulse s
  | .extestTrain => Sys2Proof.Machine.execExtestTrain s
  | .debugAccess code => Sys2Proof.Machine.execDebugAccess code s
  | .bypass code => Sys2Proof.Machine.execBypass code s
  | .healthSample h => Sys2Proof.Machine.execHealthSample h s
  | .thermalShutdown sensor temp => Sys2Proof.Machine.execThermalShutdown sensor temp s
  | .counterClear addr => Sys2Proof.Machine.execCounterClear addr s
  | .evlogClear => Sys2Proof.Machine.execEvlogClear s
  | .schedInject p v => Sys2Proof.Machine.execSchedInject p v s
  | .bankWindowWrite off v => Sys2Proof.Machine.execBankWindowWrite off v s
  | .bankPage v => Sys2Proof.Machine.execBankPage v s
  | .readClear bar addr be => Sys2Proof.Machine.execReadClear bar addr be s
  | .registerWrite bar addr v x => Sys2Proof.Machine.execRegisterWrite bar addr v x s
  | .passAEnd x => Sys2Proof.Machine.execPassAEnd x s
  | .upset t => Sys2Proof.Machine.execUpset t s
  | .targetPinLevel pin level => Sys2Proof.Machine.execTargetPinLevel pin level s
  | .d0Return fn => Sys2Proof.Machine.execD0Return fn s
  | .dmemInitDone => Sys2Proof.Machine.execDmemInitDone s
  | .powerLoss => Sys2Proof.Machine.execPowerLoss s
  | .retentionRailLoss rail => Sys2Proof.Machine.execRetentionRailLoss rail s
  | .brefLost present => Sys2Proof.Machine.execBrefLost present s
  | .alertResponseAddress => Sys2Proof.Machine.execAlertResponseAddress s
  | .tapReset => Sys2Proof.Machine.execTapReset s
  | .snapshotRead bar addr be => Sys2Proof.Machine.execSnapshotRead bar addr be s
  | .bankWindowRead off => Sys2Proof.Machine.execBankWindowRead off s

end Sys2Proof.Machine
end

