-- ==== Sys2Proof/Machine/Transmit.lean ====
section
/-! DEFINITION. What the Daxair ports send (R249 to R256, R261, R265, R266, R269): ordered blocks, data and control frames, and
test patterns. A frame leaves every 66 UI of the stroke clock's ticks (DESIGN CHOICE, notes/assumptions/87.md). -/

namespace Sys2Proof.Machine

/-! Ordered blocks (R261). -/

/-- Pre- and post-cursor codes that this receiver asks for on logical lane `l` (R260): the next code while it searches, none
in test (R269). -/
def firAsked (s : State) (n l : Nat) : Nat × Nat :=
  let a := look adaptNew (lnkPort s n).adapt (laneSwap s n l)
  if flag s (fLnkTest n) then (0, 0)
  else match a.phase with
  | 1 => (a.pre, a.post + 1)
  | 2 => (a.pre + 1, a.post)
  | _ => (a.pre, a.post)

/-- The TRAIN block of lane `l`, 31 for the clock lane. -/
def trainBlock (s : State) (n l : Nat) : BitVec 64 :=
  let (pre, post) := if l = 31 then (0, 0) else firAsked s n l
  let loop := flag s (fLnkTest n) && (reg s (lnkA n + 0x100)).getLsbD 2
  BitVec.ofNat 64 (0xB1 * 2 ^ 56 + l * 2 ^ 51 + pre * 2 ^ 47 + post * 2 ^ 42 + fld s (fSpareFor n) * 2 ^ 37 +
    (ownReady s n).toNat * 2 ^ 36 + loop.toNat * 2 ^ 35 + trainPattern)

/-- The WAKE block of lane `l`. -/
def wakeBlock (l : Nat) : BitVec 64 := BitVec.ofNat 64 (0xB7 * 2 ^ 56 + l * 2 ^ 51 + wakePattern)

/-- The lane that lane 16 stands in for sends its block there too (R264). -/
def onLanes (s : State) (n : Nat) (f : Nat → BitVec 64) : List (BitVec 64) :=
  let k := (lnkPort s n).txSpare.toNat
  (List.range 17).map fun l => f (if l = 16 ∧ k < 16 then k else l)

/-! Contents of frames (R252 to R255, R265). -/

/-- A slot with a flit (R253). -/
def slotBits (flit : BitVec 64) (vn : Nat) (head tail cls : Bool) : BitVec 78 :=
  flit ++ BitVec.ofNat 2 vn ++ BitVec.ofBool head ++ BitVec.ofBool tail ++ BitVec.ofBool cls ++ (1 : BitVec 1) ++
    crc8 64 flit.toNat

/-- The slots of a packet. -/
def packetSlots (pk : Packet) : List (BitVec 78) :=
  let fl := pk.head :: pk.data
  fl.zipIdx.map fun (f, i) => slotBits f pk.vn.toNat (i == 0) (i + 1 == fl.length) pk.cls

/-- The content of a data frame (R252). -/
def dataBody (x : LnkPort) (seq : BitVec 8) (marker echo : Bool) (slots : List (BitVec 78)) : BitVec 960 :=
  let credits := x.freed.foldl (fun a c => a * 16 + c.toNat) 0
  let top := seq.toNat * 2 ^ 952 + x.rxSeq.toNat * 2 ^ 944 + x.nak.toNat * 2 ^ 943 + credits * 2 ^ 919 +
    marker.toNat * 2 ^ 918 + echo.toNat * 2 ^ 917
  BitVec.ofNat 960 (top + slots.zipIdx.foldl (fun a (b, i) => a + b.toNat * 2 ^ (78 * i)) 0)

/-- The content of a control frame with nothing but its type. -/
def ctlBody (k : Nat) : BitVec 960 := BitVec.ofNat 960 (k * 2 ^ 952)

/-- The content of a COX frame (R254). -/
def coxBody (ms : List (BitVec 4 × CoxMsg)) : BitVec 960 :=
  BitVec.ofNat 960 (2 ^ 952 + ms.length * 2 ^ 948 + ms.zipIdx.foldl (fun a (m, i) => a + (coxBits m).toNat * 2 ^ (192 * i)) 0)

/-- The lowest FOM among the data lanes in use (R265). -/
def fomLeast (s : State) (n : Nat) : Nat :=
  let sp := fld s (fSpareFor n)
  (List.range 17).foldl (fun m l =>
    if l = sp ∨ (l = 16 ∧ sp = 31) then m else min m (bits (reg s (lnkA n + 0x20 + 4 * l)) 24 8)) 255

/-- The content of a capability frame (R265). -/
def exchBody (s : State) (n : Nat) : BitVec 960 :=
  BitVec.ofNat 960 (0x02 * 2 ^ 952 + 0x01 * 2 ^ 944 + s.fuses.stepping.toNat * 2 ^ 940 + s.fuses.grade.toNat * 2 ^ 932 +
    position s * 2 ^ 928 + n * 2 ^ 925 + fld s fBoardMaster * 2 ^ 921 + fld s (fSpareFor n) * 2 ^ 916 + fomLeast s n * 2 ^ 908)

/-! Injection (R269, R279). -/

/-- The corruption of the block in progress: on a lane, 66 bits with the two of the sync header lowest; and what falls on the
lane's next block. In TEST the 64 bits of the unframed pattern follow one another, with no header between (R269). A burst
begins at a place in the block that the manual leaves open: a free value. -/
def injection (s : State) (n : Nat) : Option (BitVec 5 × BitVec 66 × BitVec 66) :=
  let v := reg s (lnkA n + 0x104)
  let p := (Config.freeWord s.free).toNat % 64
  let flips := fun (k : Nat) => (2 ^ k - 1) * 2 ^ p
  let burst := fun (k : Nat) =>
    if (lnkPort s n).st == .test then BitVec.ofNat 132 (flips k % 2 ^ 64 * 2 ^ 2 + flips k / 2 ^ 64 * 2 ^ 68)
    else BitVec.ofNat 132 (flips k * 2 ^ 2)
  let m : BitVec 132 := match bits v 29 2 with
    | 0 => burst 1
    | 1 => burst (bits v 23 6 + 1)
    | _ => 0
  if v.getLsbD 31 then some (v.extractLsb' 18 5, m.extractLsb' 0 66, m.extractLsb' 66 66) else none

/-- Puts an armed injection, or the rest of one, on what a port sends: sync headers and blocks by lane. -/
def inject (n : Nat) (hdrs : List (BitVec 2)) (lanes : List (BitVec 64)) (s : State) :
    List (BitVec 2) × List (BitVec 64) × State :=
  let x := lnkPort s n
  let hit := fun (l : BitVec 5) (m : BitVec 66) (h : List (BitVec 2)) (b : List (BitVec 64)) =>
    (h.modify l.toNat (· ^^^ m.extractLsb' 0 2), b.modify l.toNat (· ^^^ m.extractLsb' 2 64))
  let (h0, b0) := match x.spill with
    | some (l, m) => hit l m hdrs lanes
    | none => (hdrs, lanes)
  match injection s n with
  | some (l, m, rest) =>
    let (h1, b1) := hit l m h0 b0
    let h2 := if bits (reg s (lnkA n + 0x104)) 29 2 = 2 then h1.set l.toNat 3 else h1
    (h2, b1, draw (setFlag ⟨lnkA n + 0x104, 31, 1⟩ false (setLnk n { x with spill := if rest = 0 then none else some (l, rest) } s)))
  | none => (h0, b0, iff x.spill.isSome (setLnk n { x with spill := none }) s)

/-! Frames (R250, R254, R256). -/

/-- Sends a frame with a content. -/
def sendBody (n : Nat) (ctl : Bool) (body : BitVec 960) (s : State) : State :=
  let x := lnkPort s n
  let (lanes, sc) := frameLanes x.txScram body
  let all := if x.txSpare.toNat < 16 then lanes ++ [lanes.getD x.txSpare.toNat 0] else lanes
  let s1 := setLnk n { x with txScram := sc, lastCtl := ctl } s
  let (h, b, s2) := if x.st == .active then inject n (all.map fun _ => if ctl then 2 else 1) all s1
    else (all.map fun _ => if ctl then 2 else 1, all, s1)
  emit (.frame (BitVec.ofNat 3 n) { hdrs := h, lanes := b }) s2

/-- Index of the buffer of a packet at the far end: virtual network and class (R252). -/
def creditOf (pk : Packet) : Nat := pk.vn.toNat * 2 + pk.cls.toNat - 2

/-- Flits sent into a far buffer and not freed there (R252). -/
def owed (x : LnkPort) (k : Nat) : Nat := (x.sentTo.getD k 0 - x.farFreed.extractLsb' (20 - 4 * k) 4).toNat

/-- The far buffer has room for a packet: 8 flits for VN1 and VN2, 4 for VN3; an empty one takes any (R108, R237; PRESUMED,
notes/assumptions/87.md). -/
def farRoom (x : LnkPort) (pk : Packet) : Bool :=
  let o := owed x (creditOf pk)
  o == 0 || decide (o + pkSize pk ≤ if pk.vn = 3 then 4 else 8)

/-- Packets that leave in a frame with `room` slots free, in their order per buffer; what stays; and the flits counted into
each buffer. -/
def fillSlots : LnkPort → Nat → List Nat → List Packet → List Packet × List Packet × LnkPort
  | x, _, _, [] => ([], [], x)
  | x, room, shut, pk :: r =>
    let k := creditOf pk
    if !shut.contains k && decide (pkSize pk ≤ room) && farRoom x pk then
      let x' := { x with sentTo := x.sentTo.set k (x.sentTo.getD k 0 + BitVec.ofNat 4 (pkSize pk)) }
      let (go, stay, y) := fillSlots x' (room - pkSize pk) shut r
      (pk :: go, stay, y)
    else
      let (go, stay, y) := fillSlots x room (k :: shut) r
      (go, pk :: stay, y)

/-- The number of a frame with no packet slots that the far end has accepted already: the last one acknowledged. -/
def idleSeq (x : LnkPort) : BitVec 8 :=
  match x.store with
  | e :: _ => e.1 - 1
  | [] => x.txSeq

/-- Sends a data frame (R252, R253, R256): VN0 flits in the lowest slots, then the packets of a frame that is replayed, or
new ones. While 128 frames are unacknowledged no new packet leaves, and the frames carry the number acknowledged last, so that
none stands in for a lost one (DESIGN CHOICE, notes/assumptions/87.md); so do those of a port that is not ACTIVE. -/
def sendData (n : Nat) (s : State) : State :=
  let x := lnkPort s n
  let v := x.vnQ.take 11
  let vs := v.map fun f => slotBits f 0 true true false
  let mk := decide (0 < x.markers)
  let ec := decide (0 < x.echo)
  let x1 := { x with vnQ := x.vnQ.drop 11, markers := x.markers - 1, echo := x.echo - 1, sinceAl := x.sinceAl + 1 }
  let out := fun (y : LnkPort) (seq : BitVec 8) (pks : List Packet) =>
    sendBody n false (dataBody y seq mk ec (vs ++ pks.flatMap packetSlots)) (setLnk n y s)
  if x.st != .active then sendBody n false (dataBody x (idleSeq x) false false []) s
  else
    let old : Option (BitVec 8 × List Packet) := match x.resend with
      | q :: _ => x.store.find? fun e => e.1 == q
      | [] => none
    match old with
    | some (q, pks) =>
      if (pks.map pkSize).sum + v.length ≤ 11 then out { x1 with resend := x.resend.drop 1 } q pks
      else if 128 ≤ x.store.length then out x1 (idleSeq x) []
      else
        let q := x.txSeq + 1
        out { x1 with txSeq := q, store := x.store ++ [(q, [])] } q []
    | none =>
      if 128 ≤ x.store.length then out x1 (idleSeq x) []
      else
        let q := x.txSeq + 1
        let (go, stay, y) := fillSlots x1 (11 - v.length) [] x.txQ
        out { y with txSeq := q, store := x.store ++ [(q, go)], txQ := stay } q go

/-- Sends the next frame (R254): at most one control frame in two, a COX frame before any other. -/
def sendFrame (n : Nat) (s : State) : State :=
  let x := lnkPort s n
  if x.lastCtl then sendData n s
  else match x.coxQ, x.ctlQ, x.st with
  | _ :: _, _, _ => sendBody n true (coxBody (x.coxQ.take 4)) (setLnk n { x with coxQ := x.coxQ.drop 4, sinceAl := x.sinceAl + 1 } s)
  | [], k :: r, _ => sendBody n true (ctlBody k.toNat) (setLnk n { x with ctlQ := r, sinceAl := x.sinceAl + 1 } s)
  | [], [], .exchange => tryActive n (sendBody n true (exchBody s n) (setLnk n { x with exchTx := x.exchTx + 1 } s))
  | [], [], .lock => sendBody n true (ctlBody 3) s
  | [], [], _ => if 16383 ≤ x.sinceAl then sendBody n true (ctlBody 3) (setLnk n { x with sinceAl := 0 } s) else sendData n s

/-- Sends the test pattern (R269): the generators' next 64 bits on every lane, fed back inside the package by near_loop. A port
that loops the far end's bits back sends those as they come. -/
def sendPattern (n : Nat) (s : State) : State :=
  let x := lnkPort s n
  let v := reg s (lnkA n + 0x100)
  if x.farLoop || !v.getLsbD 6 || bits v 4 2 = 0 then s
  else
    let (b, g) := prbsBlock (bits v 4 2) x.gen
    let (_, lanes, s1) := inject n [] (List.replicate 17 (prbsLine (bits v 4 2) b)) (setLnk n { x with gen := g } s)
    emit (.pattern (BitVec.ofNat 3 n) lanes) (iff (v.getLsbD 3) (checkLanes n lanes) s1)

/-- What a port sends in 66 UI, by its state. -/
def sendPort (s : State) (n : Nat) : State :=
  let x := lnkPort s n
  let blocks := fun (f : Nat → BitVec 64) (clock : BitVec 64) => emit (.ordered (BitVec.ofNat 3 n) (onLanes s n f ++ [clock]))
  match x.st with
  | .train =>
    let s1 := blocks (trainBlock s n) (trainBlock s n 31) s
    iff (ownReady s n) (fun y => tryLock n (setLnk n { lnkPort y n with readySent := true } y)) s1
  | .lock | .exchange | .active =>
    if 0 < x.wakes then emit (.ordered (BitVec.ofNat 3 n) (onLanes s n wakeBlock)) (setLnk n { x with wakes := x.wakes - 1 } s)
    else sendFrame n s
  | .sleep =>
    match x.ctlQ, x.lastCtl with
    | k :: r, false => sendBody n true (ctlBody k.toNat) (setLnk n { x with ctlQ := r } s)
    | _ :: _, true => sendBody n false (dataBody x (idleSeq x) false false []) s
    | [], _ => if 0 < x.idle then sendBody n false (dataBody x (idleSeq x) false false []) (setLnk n { x with idle := x.idle - 1 } s) else s
  | .test => sendPattern n s
  | _ => s

/-- A message of the cox line goes to the ports (R233, R240): from the master, and from a package that has lost its parent, to
the packages below; from any other toward the master. -/
def takeOut (s : State) (o : Out) : State :=
  match o with
  | .cox k m => coxTo (if isMaster s || flag s fIsolated then childPorts s else parentPorts s) (k, m) s
  | _ => s

/-- Parts of a UI in which the ports' progress is counted: every throttle level from 8 to 16 divides it. -/
def uiParts : Nat := 720720

/-- UI of one tick of the stroke clock, in parts: 32 at grade -10 and 40 at -08, and more where the clock is throttled, since
lane rates do not change (R93). -/
def uiOfTick (s : State) : Nat := (if slowRate s then 40 else 32) * 16 * uiParts / max 1 (fld s fThrLevel)

/-- The ports send for one tick of the stroke clock: a frame or a block every 66 UI. -/
def sendLinks (s : State) : State :=
  let s1 := (s.out.drop s.net.sent).foldl takeOut s
  let u := s.net.ui + uiOfTick s
  let f := 66 * uiParts
  let s2 := (List.range (u / f)).foldl (fun x _ => (List.range 8).foldl sendPort x) { s1 with net := { s1.net with ui := u % f } }
  { s2 with net := { s2.net with sent := s2.out.length } }

/-- One tick with no command waiting: the stroke clock's (notes/assumptions/2.md), and what the ports that are on send in it. -/
def idle (s : State) : State :=
  let t := tick s
  if t.lnk.isEmpty then { t with net := { t.net with sent := t.out.length } } else sendLinks t

end Sys2Proof.Machine
end

