-- ==== Sys2Proof/WellFormed.lean ====
section
/-! DEFINITION. Well-formed commands: the operands name units that exist, and lists of levels and measurements have
the length that the spec gives them. Width limits stand in the types of Syntax.lean. -/

namespace Sys2Proof

/-- Router ports are coded 0 to 5 (R106). -/
def rportOk (k : RPort) : Bool := decide (k.toNat < 6)

/-- Data lanes 0 to 16 of a Daxair port (R248). -/
def laneOk (l : BitVec 5) : Bool := decide (l.toNat < 17)

/-- A lane, or the clock lane, which is numbered 31 (R248, R264). -/
def anyLaneOk (l : BitVec 5) : Bool := laneOk l || l == 31

/-- Supply rails 0 to 5 (R539). -/
def railOk (r : BitVec 3) : Bool := decide (r.toNat < 6)

/-- Sensors 0 to 71 (R538). -/
def sensorOk (n : BitVec 7) : Bool := decide (n.toNat < 72)

/-- Self-test slices 0x00 to 0x22 (R521). -/
def sliceOk (k : BitVec 6) : Bool := decide (k.toNat < 0x23)

/-- A frame has a header and a payload block for each of its sixteen lanes, and may bring lane 16's (R249). -/
def frameOk (f : RxFrame) : Bool := decide (16 ≤ f.lanes.length ∧ f.lanes.length ≤ 17 ∧ f.hdrs.length = f.lanes.length)

/-- One measurement brings the Δ of all eight ports and at most one report of each of the other packages (R230). -/
def measOk (b : BoardMeas) : Bool := decide (b.deltas.length = 8 ∧ b.reports.length ≤ 15)

/-- One round of the health monitors brings every sensor and every rail (R529, R538, R539). -/
def healthOk (h : HealthIn) : Bool :=
  decide (h.temps.length = 72 ∧ h.railMv.length = 6 ∧ h.railDa.length = 6 ∧ h.warnUs.length = 6 ∧ h.faultUs.length = 6)

/-- A fault names an array or unit that exists (R523). -/
def faultOk (f : FaultRec) : Bool := decide (f.kind.toNat < 6 ∧ (f.bp.toNat < 19 ∨ 32 ≤ f.bp.toNat ∧ f.bp.toNat < 49))

/-- The nine registers held in three copies (R403). -/
def votedOk (k : BitVec 4) : Bool := decide (k.toNat < 9)

/-- A frame holds 512 words of 64 bits (R364); frames that name one payload hold the same words, those of the implicit payload
none (R366). -/
def streamOk (x : Stream) : Bool :=
  x.frames.all fun f => (f.words.all fun e => decide (e.1 < 512)) && (f.index != 0xFFFFFFFF || f.words.isEmpty) &&
    x.frames.all fun g => g.index != f.index || g.words == f.words

/-- The command is well formed. -/
def Instr.wellFormed : Instr → Bool
  | .flitSwitch _ i _ | .vn0Land _ i _ | .packetHop _ i _ | .routeBusy _ i => rportOk i
  | .trainBlock _ l _ | .laneSignalLoss _ l _ => anyLaneOk l
  | .adaptStep _ l _ _ | .fomRefresh _ l _ _ => laneOk l
  | .wakeBlock x => laneOk x.lane
  | .dataFrame _ f | .exchange _ f | .align _ f | .sleepReq _ f | .sleepAck _ f => frameOk f
  | .boardFormed b => measOk b
  | .supplyRiseTimeout r | .retentionRailLoss r => railOk r
  | .postSlice k _ _ _ fs => sliceOk k && fs.all faultOk
  | .incomplete k => sliceOk k
  | .march _ fs => fs.all faultOk
  | .bist _ b => decide (b.us.length = 32) && b.faults.all faultOk
  | .scrubSelfCorrect k _ => votedOk k
  | .thermalShutdown n _ => sensorOk n
  | .healthSample h => healthOk h
  | .passAEnd (some x) => streamOk x
  | .bootRomStart _ _ keys _ _ _ => decide (keys.length = 8)
  | _ => true

end Sys2Proof
end

