-- ==== Sys2Proof/Safety.lean ====
section
/-! DEFINITION. What a safe state of the model is: every sparse store in its canonical form, so that equal machines are
equal data, and the fields that the manual bounds within their bounds. -/

namespace Sys2Proof.Machine

/-- Bank and deep memory are in canonical form: addresses strictly rising, and no entry equal to the zero codeword that an
unlisted address reads as (R182, R191). -/
abbrev Memory.wf (s : State) : Prop := Machine.wf 0 s.bank = true ∧ Machine.wf 0 s.deep = true

/-- The register file, the counters and the configuration store are in canonical form. -/
def storesOk (s : State) : Bool :=
  rising s.regs && wf 0 s.ctrs && wf 0 s.wide && wf 0 s.cfg && wf 0 s.groups && wf 0 s.evlog

/-! The terms of the claims. -/

/-- The command answers a next state, and `P` holds of it. -/
def Answers (c : Instr) (s : State) (P : State → Prop) : Prop := ∃ t, exec c s = .next t ∧ P t

/-- Counting and logging have happened, and nothing else: of the counters only GLB.EVLOG_OVER, TRC.SUPPRESSED and those
of `cs` may differ, of the registers only GLB.EVLOG and those of `rs`, and of the trace only the committed packets. -/
def OnlyLogged (cs rs : List Nat) (s t : State) : Prop :=
  t = { s with regs := t.regs, ctrs := t.ctrs, evlog := t.evlog, evTick := t.evTick, evIn := t.evIn,
               satDue := t.satDue, trc := { s.trc with committed := t.trc.committed } } ∧
  (∀ a, a ≠ 0x20 → a ∉ rs → reg t a = reg s a) ∧
  ∀ a, a ≠ 0x24 → a ≠ 0x700C8 → a ∉ cs → ctr t a = ctr s a

/-- The memories, the stores and the pins of the design are as they were: bank and deep memory, slots, configuration, crew
wires, receive registers and target pins. -/
def SameDesign (s t : State) : Prop :=
  t.bank = s.bank ∧ t.deep = s.deep ∧ t.slots = s.slots ∧ t.cfg = s.cfg ∧ t.shadow = s.shadow ∧ t.groups = s.groups ∧
  t.fab.wires = s.fab.wires ∧ t.fab.keepers = s.fab.keepers ∧ t.fab.rx = s.fab.rx ∧ t.pins.drv = s.pins.drv ∧
  t.pins.drvOn = s.pins.drvOn

/-- The schedule word that BP p.c.b reads in the stroke in progress. -/
def bpWord (s : State) (p : Pav) (c : Crew) (b : Bp) : Nat :=
  (readSched s p.toNat c.toNat b.toNat s.cox.stroke).data

/-- BP p.c.b has not executed in the stroke in progress, and reads a sound word of class `op`, with no injection armed
for it. -/
def bpSound (s : State) (p : Pav) (c : Crew) (b : Bp) (op : Nat) : Bool :=
  bpReady s p.toNat c.toNat b.toNat && !injected s p.toNat c.toNat b.toNat s.cox.stroke &&
    (readSched s p.toNat c.toNat b.toNat s.cox.stroke).cls == .clean && opOf (bpWord s p c b) == op

/-- Release stage `n` is in effect for a pavilion. -/
def released (s : State) (p : Pav) (n : Nat) : Bool := decide (n ≤ stageOf s p.toNat)

/-- The slot that a BP writes in the stroke in progress. -/
def nowSlot (s : State) (p : Pav) (c : Crew) (b : Bp) : Nat := slotKey p.toNat c.toNat b.toNat s.cox.stroke

/-- Slot *s* of the BP holds `v` after the command, and every other slot is as it was. -/
def WritesSlot (s t : State) (p : Pav) (c : Crew) (b : Bp) (v : BitVec 2) : Prop :=
  slot t p.toNat c.toNat b.toNat s.cox.stroke = v ∧ ∀ k, k ≠ nowSlot s p c b → find t.slots k = find s.slots k

/-- The BP is marked as executed in the stroke in progress. -/
def retiredNow (s : State) (p : Pav) (c : Crew) (b : Bp) : List Nat :=
  bpIndex p.toNat c.toNat b.toNat :: s.fab.retired

/-- The BP operation of an op number (R23). -/
def bpCommand (op : Nat) (p : Pav) (c : Crew) (b : Bp) (lat : BitVec 16) : Instr :=
  match op with
  | 0 => .nop p c b
  | 1 => .eval p c b
  | 2 => .evalHold p c b
  | 3 => .wide p c b
  | 4 => .send p c b
  | 5 => .drive p c b
  | 6 => .memrd p c b lat
  | 7 => .memwr p c b
  | 8 => .pinout p c b
  | 9 => .log p c b
  | _ => .trapchk p c b

/-- BP p.c.b has not executed in the stroke in progress, no injection is armed for it, and its word is uncorrectable. -/
def bpBroken (s : State) (p : Pav) (c : Crew) (b : Bp) : Bool :=
  bpReady s p.toNat c.toNat b.toNat && !injected s p.toNat c.toNat b.toNat s.cox.stroke &&
    (readSched s p.toNat c.toNat b.toNat s.cox.stroke).cls == .bad

/-- The mode is one of the two-state modes in which a design drives pins alone (R15). -/
def plainMode (s : State) : Bool :=
  s.cox.mode == .capacity || s.cox.mode == .comodel || s.cox.mode == .tethered

/-- Data bit `v` of a codeword as a value. -/
def dataBit (x v : Nat) : BitVec 2 := if x.testBit v then v1 else v0

/-- The flit meets no other flit, and its output is reserved for it in its cycle (R117, R120). -/
def unopposed (s : State) (f : Flit) : Bool :=
  (rivals s f).isEmpty && (portRivals s f).isEmpty &&
    reserved s f.at_.toNat (cycleTag s (cycleOf s f)) (flitNext f.bits)

/-- No packet waits to enter an input of router `p`, and none at output `k` is held by a RECONF router (R110, R128). -/
def noneWait (s : State) (p k : Nat) : Bool :=
  ([0, 5].all fun i => [1, 2, 3].all fun vn => (waiting s (bufKey p i vn)).isEmpty) &&
    [1, 3].all fun vn => (List.range 6).all fun i => (buf s (bufKey p i vn)).head?.all fun pk =>
      pk.nextPort.toNat != k || hopWait s p k pk != .reconf

/-- Pavilion `p` serves packet `pk` next on a virtual network: sound, with opcode `op` (R122, R125). -/
def serves (s : State) (p : Pav) (vn op : Nat) (pk : Packet) : Bool :=
  nextPacket s p.toNat vn == some pk && pkOpcode pk.head == op && !pk.bad

/-- The controller has left its run: HALTED, with no halt, start lead or step in force. -/
def Stopped (t : State) : Prop :=
  t.cox.st = .halted ∧ t.cox.started = false ∧ t.cox.halts = [] ∧ t.cox.lead = none ∧ t.cox.stepping = none

/-- The state in which a course starts at the boundary where the controller stands: an Easy at stroke 0, or RUN. -/
def startState (s : State) : CoxState := if easyAt s (gOf s) (wall s) then .easy else .run

/-- The controller stands in WAIT with its start lead ended. -/
def waitsHere (s : State) : Bool := s.cox.st == .wait && s.cox.lead.isNone && s.cox.tether.isNone

/-- A halt with a cause, raised now, is pending. -/
def haltRaised (s t : State) (cause : Nat) : Prop :=
  (t.cox.halts.any fun h => h.cause.toNat == cause && h.before == haltBefore s (raiseAt s) && h.raised == raiseAt s) = true

/-- The mailbox takes a command, and the Keeper serves it (R305, R362). -/
def mbxFree (s : State) : Bool := mbxOpen s && !s.hif.busy && s.pwr.boot == .up

/-- A length request of this package (R83): its cause, unit, stop point and strokes. -/
def sizedReq (s : State) (cause : BitVec 4) (unit p n : Nat) : EasyReq :=
  { origin := BitVec.ofNat 4 (position s), cause := cause, unit := unit, p := p, kind := .len n }

/-- The memories, the data stores and the configuration are as they were. -/
def SameStores (s t : State) : Prop :=
  t.bank = s.bank ∧ t.deep = s.deep ∧ t.slots = s.slots ∧ t.groups = s.groups ∧ t.cfg = s.cfg

/-- A Daxair port stands in a state with a cause in STATUS, and the stores of the design are as they were. -/
def PortGoes (s t : State) (n : DPort) (st : LnkState) (cause : Nat) : Prop :=
  (lnkPort t n.toNat).st = st ∧ fld t (fLnkCause n.toNat) = cause ∧ SameStores s t

/-- Channel `c` is served, its next entry can be read, has opcode `op` and passes every check of R290 (R287, R295). -/
def fetches (s : State) (c : Chan) (op : Nat) (f : FetchIn) : Bool :=
  canServe s c.toNat && f.bus == 0 && entryIs op f.entry && (classOf s c.toNat == 3 || !dataStopped s) &&
    (entryFault s c.toNat f.entry).isNone

/-- As `fetches`, for a memory operation: pass B does not hold it off (R295). -/
def fetchesMem (s : State) (c : Chan) (op : Nat) (f : FetchIn) : Bool :=
  fetches s c op f && !(writingBase s && classOf s c.toNat == 3)

/-- The submission head of a channel after its next entry has been taken (R287). -/
def headAfter (s : State) (c : Chan) : BitVec 16 :=
  BitVec.ofNat 16 (((chan s c.toNat).sqHead.toNat + 1) % sqSize s c.toNat)

/-- The completion of an entry that ends as it is fetched. -/
def entryEnd (s : State) (c : Chan) (f : FetchIn) (code detail hostBytes devWords : Nat) : Completion :=
  { entryOf (enTag f.entry) code detail (headAfter s c) f.waitUs (enIrq f.entry) with
    hostBytes := BitVec.ofNat 32 hostBytes, devWords := BitVec.ofNat 32 devWords }

/-- The entry of channel `c` has been taken and, where `e` is one, its completion waits last; every other channel is as it
was. -/
def EntryTaken (s t : State) (c : Chan) (e : Option Completion) : Prop :=
  chan t c.toNat = { chan s c.toNat with sqHead := headAfter s c, bpD := false, held := (chan s c.toNat).held ++ e.toList } ∧
  ∀ k, k ≠ c.toNat → chan t k = chan s k

/-- The registers that a fetch updates by itself: the peaks of HIF.TAGS, DSP.MATCH and DSP.READY (R317, R344). -/
def peakRegs : List Nat := [0xA0010, 0x90014, 0x90020, 0x90024, 0x90028]

/-- Registers outside a list are as they were. -/
def RegsBut (rs : List Nat) (s t : State) : Prop := ∀ a, a ∉ rs → reg t a = reg s a

/-- A mailbox command has completed with a code and first result word, and the mailbox is free again (R305). -/
def MbxDone (t : State) (code r0 : Nat) : Prop :=
  fld t fMbxCode = code ∧ reg t 0x10030 = BitVec.ofNat 32 r0 ∧ t.hif.busy = false ∧ t.hif.due = none

/-- A long mailbox command has ended with a code, and its completion waits to be written. -/
def MbxWaits (t : State) (code : Nat) : Prop :=
  t.hif.busy = true ∧ (t.hif.due.map fun r => r.code.toNat) = some code

/-- The loader has begun a job at pass A (R371, R376). -/
def LoadBegun (s t : State) (j : Job) : Prop :=
  t.hif.busy = true ∧ t.ldr.st = .manifest ∧ t.ldr.job = some j ∧ t.ldr.stream = none ∧ t.ldr.image = s.ldr.image ∧
  SameDesign s t

/-- The loaded image is gone, in SERVICE, as an operation that overwrites it leaves the package (R208). -/
def ImageDropped (t : State) : Prop := t.ldr.image = none ∧ t.cox.st = .noImage ∧ t.cox.mode = .service

/-- The later of two versions. -/
def laterVer (old new : BitVec 6) : BitVec 6 := if new ≤ old then old else new

/-- The job that a mailbox command begins. -/
def hostJob (op : BitVec 4) (host : Bool) (object : Nat) (store auto : Bool) (region : Nat) (regional : Bool) (role : Nat) :
    Job :=
  { op := op, host := host, object := BitVec.ofNat 2 object, store := store, auto := auto,
    region := BitVec.ofNat 6 region, regional := regional, recovery := false, role := BitVec.ofNat 8 role }


/-- The writes of a port's landing for instance `i` (R327): 1 in the valid flag, and value *j* of the payload in its lane;
a FLEET instance writes only its own bits. -/
def rxLanded (s : State) (e : BitVec 64) (i : Nat) (bs : List (BitVec 8)) : List RxWrite :=
  let lanes := if twoBit s then 4 else 8
  let unit := fun (j : Nat) => if fleet s then 2 ^ (2 * j + i) else if fourState s then 4 ^ j else 2 ^ j
  let mask := if fleet s then 0x55 * 2 ^ i else 0xFF
  let write := fun (r v : Nat) =>
    ({ key := pePav e * 64 + r, mask := BitVec.ofNat 8 mask, val := BitVec.ofNat 8 v, half := false } : RxWrite)
  write (peVreg e) (unit 0) :: (List.range (peDcount e + 1)).map fun r =>
    write (peDreg e + r) (((List.range lanes).map fun j => if payloadBit bs (r * lanes + j) then unit j else 0).sum)

/-- The write of a port for an instance that nothing lands for (R328): valid 0. -/
def rxIdle (s : State) (e : BitVec 64) (i : Nat) : RxWrite :=
  let mask := if fleet s then 2 ^ i else if fourState s then 3 else 1
  { key := pePav e * 64 + peVreg e, mask := BitVec.ofNat 8 mask, val := 0, half := false }

/-- The port has decided to land a message for instance `i` in the stroke in progress. -/
def landsNow (s : State) (p i : Nat) : Bool :=
  (s.dsp.decided.find? fun d => d.port.toNat == p && d.inst.toNat == i && d.due == gOf s).any (·.land)

/-- A port acts in the stroke in progress, and has not yet done what `mark` marks in this course. -/
def portActs (s : State) (p stroke mark : Nat) : Bool :=
  portLive s p && s.cox.stroke == stroke && !s.fab.marks.contains (mark, p)

/-- The decision of a port for the landing 64 strokes on (R333). -/
def decision (s : State) (p i : Nat) (land : Bool) : Decision :=
  { port := BitVec.ofNat 12 p, inst := BitVec.ofNat 1 i, due := gOf s + 64, land := land, wait := !land, free := true }

/-- The request for Easy of a port that paces the course (R83, R333). -/
def hostAsk (s : State) (p : Nat) : EasyReq :=
  { origin := BitVec.ofNat 4 (position s), cause := 3, unit := p, p := gOf s + 64, kind := .opn none }

/-- A port stands at its decision stroke, and has not yet decided in this course (R333). -/
def portDecides (s : State) (p : Nat) : Bool :=
  portLive s p && (gOf s + 64) % s.cox.length == peStroke (portEntry s p) && !s.fab.marks.contains (54, p)

/-- A port of a paced model asks for Easy: nothing is staged, and a credit is free (R333). -/
def asksEasy (s : State) (p i : Nat) : Bool :=
  let k := piKey p i
  unplanned s k == 0 && s.cox.mode == .comodel && pePaced (portEntry s p) &&
    decide (0 < creditsNow s (portEntry s p) k)

/-- A message engine after it has filled its prefetch slots. -/
def filled (s : State) (e : Nat) : State := fillSlot e (fillSlot e s)

/-- The message that an engine sends next (R332): TIMED ahead of the others; none while it waits for the answer to one
or a full record ring stalls it (R337). -/
def nextSend (s : State) (e : Nat) : Option Msg :=
  let f := filled s e
  let ms := (engine f e).filterMap (msgOf f)
  if recStalled f || engineBusy f e then none
  else (ms.find? fun m => m.cls == 0 && maySend f m).orElse fun _ => ms.find? (maySend f)

/-- The head of the DELIVER packet of a message (R125, R332). -/
def deliverHead (s : State) (e : Nat) (m : Msg) : BitVec 64 :=
  mkHead 5 (position s) false (pePav (portEntry s m.port.toNat)) (position s) true 0 e (((payload m).length + 7) / 8)
    m.port.toNat 0

/-- The gateway pavilion by which the I/O die reaches a pavilion (R124). -/
def gateFor (p : Nat) : Nat := gatewayPav (2 * dieOf p + rowOf p % 2)

/-- The replay reader may read its next entry (R338). -/
def replayReads (s : State) : Bool :=
  hostUp s && replaying s && rplOn s && !s.dsp.rplEnd &&
    bits (reg s 0x90060) 0 20 % rplSize s != bits (reg s 0x9005C) 0 20 % rplSize s

/-- The router buffers with one packet more at the end of an input's buffer. -/
def bufsWith (s : State) (r inp : Nat) (x : Packet) : Sparse (List Packet) :=
  upd [] s.net.bufs (bufKey r inp x.vn.toNat) (buf s (bufKey r inp x.vn.toNat) ++ [x])

/-- The packet of a credit or of a landing (R330, R333) stands at the end of the buffer of its pavilion's NI, where it has
a route and room, and the NI holds a place for the answer (R108). -/
def Notified (s t : State) (v port inst : Nat) (credit : Bool) : Prop :=
  ∀ x, routed s v (mkHead 0xE (position s) true 0 (position s) false v 0 1 0 0)
      [BitVec.ofNat 64 (port + inst * 2 ^ 12 + credit.toNat * 2 ^ 13)] = some x →
    waiting s (bufKey v 0 3) = [] → inputTakes s v 0 x = true →
      t.net = { s.net with bufs := bufsWith s v 0 x, owed := upd 0 s.net.owed v (look 0 s.net.owed v + 1) }


/-- The loader is back in IDLE with its image and release as they were, and the completion of the load waits with a code
and a first result word (R368, R376). -/
def LoadEnds (s t : State) (code r0 : Nat) : Prop :=
  t.ldr = { s.ldr with st := .idle, job := none, passB := false, stream := none } ∧
  (t.hif.due.map fun r => (r.code.toNat, r.r0)) = some (code, BitVec.ofNat 32 r0)

/-- The base image stands in place, READY at course 0 with no stage released (R372). -/
def BasePlaced (t : State) (j : Job) (x : Stream) : Prop :=
  t.ldr.st = .idle ∧ t.ldr.job = none ∧ t.ldr.image = some x ∧ t.ldr.stage = 0 ∧ t.ldr.regions = [] ∧
  t.ldr.target = (if j.auto then 3 else 0) ∧ (t.hif.due.map fun r => r.code.toNat) = some ccDone ∧ course t = 0 ∧
  t.cox.length = hdrLen x ∧ t.cox.stroke = 0

/-- A base part of a single package that is not released by itself. -/
def waitsForRelease (j : Job) (x : Stream) : Bool := !j.auto && decide (x.hdr.packageCount.toNat ≤ 1)

/-- The pass A of a job finds the stream sound. -/
def passesA (s : State) (j : Job) (x : Stream) : Bool := (passA s j x).fails.isNone

/-- Pass B of a job of this kind writes. -/
def writing (s : State) (j : Job) (x : Stream) : Prop :=
  s.ldr.job = some j ∧ s.ldr.stream = some x ∧ s.ldr.st = .write ∧ s.ldr.passB = true

/-- The job of a recovery load (R375). -/
def recoveryJob (role : Nat) (auto : Bool) : Job :=
  { op := 1, host := false, object := 0, store := false, auto := auto, region := 0, regional := false,
    recovery := true, role := BitVec.ofNat 8 role }

/-- A target bank takes a state; leaving ON releases its pins and no others (R496, R497), and nothing of the design or of
another bank changes. -/
def PodGoes (s t : State) (b : Nat) (st : PodState) : Prop :=
  podState t b = st ∧ (∀ c, c ≠ b → podState t c = podState s c) ∧
  (∀ i, i < 512 → t.pins.drvOn.getLsbD i =
    (s.pins.drvOn.getLsbD i && !(podState s b == .on && st != .on && i / 32 == b))) ∧
  t.pins.drv = s.pins.drv ∧ t.cox = s.cox ∧ SameStores s t ∧ RegsBut [0x20, 0x200000 + 4 * b] s t

/-- What TIO.BANK[b] reports of a pod (R515): the cause, PODID in millivolts, PODKEY high and VCCIO good. -/
def podReads (t : State) (b : Nat) : Nat × Nat × Bool × Bool :=
  (fld t (fBankCause b), fld t (fPodid b), flag t (fPodkeyHigh b), flag t (fVccioOk b))

/-- The pins of the banks that the pull test in progress has selected (R502). -/
def pullTested (s : State) (i : Nat) : Bool := (fld s fPullBanks).testBit (i / 32)

/-- The package with another JTAG instruction selected. -/
def withIr (s : State) (code : BitVec 8) : State := { s with jtag := { s.jtag with ir := code } }

/-- The JTAG instruction register code that a code outside the private range selects BYPASS by (R508). -/
def bypassCode (code : BitVec 8) : Bool :=
  code == 0 || decide (8 ≤ code.toNat ∧ code.toNat < 0x40) || decide (0x80 ≤ code.toNat)

/-- The private codes of R508. -/
def privateCode (code : BitVec 8) : Bool := decide (0x40 ≤ code.toNat) && decide (code.toNat < 0x80)

/-- A wake source of PWR.WAKE_EN may wake the package that sleeps in P2 or P3 now (R467, R531). -/
def mayWake (s : State) (src : Nat) : Bool :=
  wakeEnabled s src && !s.pwr.aonHot && !s.pwr.entering && s.pwr.waking.isNone && (s.pwr.st == .p2 || s.pwr.st == .p3)

/-- A package wake has begun from a source (R470). -/
def WakeBegun (s t : State) (src : BitVec 4) : Prop :=
  t.pwr.waking = some (src, 0, 0, s.pwr.st == .p3 || s.pwr.lost) ∧ fld t fPwrSrc = src.toNat ∧
  flag t fPwrFailed = false ∧ ctr t 0x20080 = min (2 ^ 48 - 1) (ctr s 0x20080 + 1) ∧ t.pwr.st = s.pwr.st ∧
  t.cox = s.cox ∧ SameDesign s t

/-- The domain that a step of PWR.SEQ turns on, for the steps 1 to 12 (R470). -/
def seqFld (k : Nat) : Fld := if k ≤ 4 then fDomStore (k - 1) else if k ≤ 8 then fDomDie (k - 5) else fDomNet (k - 9)

/-- A sound block write of four bytes reaches the SMBus target (R468). -/
def smTakes (s : State) (pec : Option Bool) : Bool := smReady s && !s.pwr.nackNext && pecTaken pec s

/-- The power state after a wake step but the last: step `k` comes next, `total` microseconds into the wake. -/
def stillWaking (s : State) (src : BitVec 4) (k total : Nat) (p3 : Bool) : Pwr :=
  { s.pwr with waking := some (src, k, total, p3) }

/-- The power state after a hold that lasted too long (R469). -/
def holdLate (s : State) : Pwr := { s.pwr with sclHeld := false, nackNext := true, lateLog := true }

/-- The power state once a function answers WAKE#: PF0 releases the pin (R467). -/
def wakePinOff (s : State) (fn : Fn) : Pwr := if fn.toNat = 0 then { s.pwr with wakePin := false } else s.pwr

/-- The host reaches the register at `a` through BAR0, through a live pavilion and no RECONF router where it goes through the
network (R4, R128, R543, R544). -/
def reaches (s : State) (a : Nat) : Bool :=
  hostUp s && decide (a % 4 = 0) && decide (a < 0x1000000) &&
    (match asPacket s a with
     | some p => portState s p == .live && !routeReconf s p
     | none => true)

/-- What the peak register at `a` counts, as it is now (R317, R344). -/
def inUseAt (s : State) (a : Nat) : Nat :=
  if a = 0xA0010 then tagsInUse s else if a = 0x90014 then storeUsed s else readyLen s ((a - 0x90020) / 4)

/-- A register after a read that clears its RC fields: a peak goes on from what is in use (R317, R344). -/
def afterRead (s : State) (a : Nat) : Word :=
  let v := reg s a &&& ~~~rcMask a
  if a ∈ peakRegs then put v 16 15 (min (inUseAt s a) 0x7FFF) else v

/-- A write by words acts on this register's RW and W1C bits, and on nothing else (R5, R6). -/
def takesWrite (s : State) (a : Nat) : Bool :=
  reaches s a && answers s a && (writeSpecial a 0).isNone && (lnkOf a).isNone && (chnOf a).isNone && !ctrWord a &&
    writable s a && (validGroup a).isEmpty

/-- The register after a whole-word write: its RW bits take the word's, its W1C bits written 1 clear (R5, R6). -/
def written (s : State) (a : Nat) (v : Word) : Word :=
  (reg s a &&& ~~~rwMask a &&& ~~~(w1cMask a &&& v)) ||| (v &&& rwMask a)

/-- A sample of every monitor (R529): 72 temperatures and 6 rails. -/
def monitored (h : HealthIn) : Bool := decide (h.temps.length = 72 ∧ h.railMv.length = 6 ∧ h.railDa.length = 6)

/-- A rail is in its fault window in this sample for the first time (R530). -/
def railTrips (s : State) (h : HealthIn) (r : Nat) : Bool :=
  decide (r < 6) && decide (10 ≤ h.faultUs.getD r 0) && !s.hlt.railFault.getLsbD r

/-- The window of bank memory is open at an even or odd word (R546). -/
def windowAt (s : State) (off : BitVec 24) : Bool := hostUp s && windowOpen s off.toNat

/-- Key of the codeword behind a window offset (R546). -/
def windowKey (s : State) (off : BitVec 24) : Nat := bankKey (windowCw s off.toNat).1 (windowCw s off.toNat).2

/-- A vector that a function has (R284). -/
def ownVector (fn : Fn) (vec : Nat) : Bool := decide (vec < if fn = 0 then 1056 else 32)

/-- The BAR in which a function has its MSI-X table (R283, R284). -/
def vectorBar (fn : Fn) : Bar := if fn = 0 then .bar0 else .vf0 fn

/-- The address of a vector's control word in that BAR. -/
def vectorAddr (fn : Fn) (vec : Nat) : Word := BitVec.ofNat 32 ((if fn = 0 then 0xA8000 else 0) + 16 * vec + 12)

/-- The background configuration scrubber runs (R396). -/
def scrubs (s : State) : Bool :=
  upState s && flag s fPostDone && !writingBase s && s.scb.full.isNone && bits (reg s 0x60000) 0 16 != 0

/-- The place of the next item of the walk: pavilion, area and number (R396). -/
def nextPlace (s : State) : Option (Nat × Nat × Nat) :=
  let v := reg s 0x60004
  walkTo (passStart s) (flag (passStart s) fBelowL) 520 (bits v 22 7) (bits v 30 2) (bits v 0 22)

/-- The item at a place of the walk. -/
def itemPlaced (s : State) (x : Nat × Nat × Nat) : Item :=
  itemAt (passStart s) (flag (passStart s) fBelowL) x.1 x.2.1 x.2.2

/-- The scrubber reads item `x` next, and no BP owns it (R393, R396). -/
def reads (s : State) (x : Item) : Bool :=
  scrubs s && (nextPlace s).any fun k => itemPlaced s k == x && !bpsOwn s x

/-- An uncorrectable item with a frame to recover, whose care map can be read (R398, R399). -/
def plainBad (s : State) (x : Item) : Bool :=
  (itemCheck s x).cls == .bad && !isCareMap x && !isDynamic x &&
    (careWordsOf x).all fun k => (check72 (look 0 s.cfg k)).cls != .bad

/-- The configuration words of a frame as the image in place lists it; every word that it does not list is zero (R367,
R400). -/
def ownWords (s : State) (a : BitVec 32) : Sparse (BitVec 72) :=
  match image s with
  | some i => match i.frames.find? fun f => f.addr = a with
    | some f => putFrame [] f
    | none => []
  | none => []

/-- Only the codeword at `k` of a store differs, in one bit. -/
def FlipsBit {n : Nat} (m m' : Sparse (BitVec n)) (k bit : Nat) : Prop :=
  ∀ j, look 0 m' j = if j = k then look 0 m k ^^^ BitVec.ofNat n (2 ^ bit) else look 0 m j

/-- A packet committed in this tick (R440). -/
def packetNow (s : State) (type flags source : BitVec 8) (words : List (BitVec 64)) : TracePacket :=
  { type := type, flags := flags, source := source, words := words, time := wideReg s 0x70008,
    course := wideReg s 0xB0010 }

/-- The packets of one tick stand in the order of R450. -/
def ranked (l : List TracePacket) : Prop := l.Pairwise fun a b => a.time = b.time → pktRank a ≤ pktRank b

/-- The committed packets with one more, where trace commits packets (R447). -/
def committedWith (s : State) (p : TracePacket) : List TracePacket :=
  if tracing s then insPkt p s.trc.committed else s.trc.committed

/-- The packet that a log message makes (R444). -/
def logPacket (s : State) (m : LogMsg) : TracePacket :=
  packetNow s 0x30 (0#5 ++ BitVec.ofBool m.two ++ m.inst ++ BitVec.ofBool m.cont) m.port
    (BitVec.ofNat 64 m.course :: BitVec.ofNat 64 (m.stroke + m.vals.length * 2 ^ 16) :: logData m.two m.vals)

/-- Trace as enabling leaves it (R447). -/
def traceCleared (s : State) : Trc :=
  { s.trc with committed := [], syncDue := true, lostRun := 0, sinceSync := 0, flushing := none }

/-- A flush completes with the packet written or lost now, or the packets that it still waits for (R451). -/
def flushEnds (s : State) : Bool := s.trc.flushing.any fun n => decide (n ≤ 1)
def flushLeft (s : State) : Option Nat := if flushEnds s then none else s.trc.flushing.map (· - 1)

/-- TRC.STATUS with flush_done, where a flush completes now (R455). -/
def statusFlushed (s : State) (v : Word) : Word := if flushEnds s then v ||| 0x80000000 else v

/-- Trace once `n` bytes of the packet `p` and of the packets `g` that enter with it have been written, `r` waiting (R448,
R449). -/
def trcPut (s : State) (p : TracePacket) (r g : List TracePacket) (n : Nat) : Trc :=
  let synced := g.any fun x => x.type == 1
  { s.trc with committed := r, lastTime := p.time, lostRun := 0, syncDue := false,
               syncTime := if synced then p.time else s.trc.syncTime,
               sinceSync := if synced then 8 * (if p.type = 1 then 3 else 4 + p.words.length) else s.trc.sinceSync + n,
               flushing := flushLeft s }

/-- Trace once a packet has been lost to a full sink (R448). -/
def trcLost (s : State) (r : List TracePacket) : Trc :=
  { s.trc with committed := r, lostRun := s.trc.lostRun + 1, flushing := flushLeft s }

/-- The Keeper may sleep now (R476). -/
def maySleep (s : State) : Bool :=
  upState s && !s.pwr.asleep && fld s fKeeperIdle != 0 && !s.hif.busy && s.pwr.boot == .up

/-- The POWER packet of now (R441). -/
def powerPacket (s : State) (run : Bool) : TracePacket :=
  packetNow s 0x02 (if run then 1 else 0) (BitVec.ofNat 8 s.pwr.st.code) []

/-- What stands committed once the Keeper's wake has committed SYNC and then POWER (R451). -/
def wakePackets (s : State) : List TracePacket :=
  if tracing s then
    insPkt (powerPacket s true)
      (insPkt (packetNow s 0x01 0 0 [wideReg s 0x70008, wideReg s 0xB0010]) s.trc.committed)
  else s.trc.committed

/-- The package takes the sample of its course now (R414). -/
def samplesNow (s : State) : Bool :=
  running s && decide (1 ≤ s.ldr.stage) && s.cox.mode != .service && s.fab.retired.isEmpty &&
    s.cox.stroke == sampleStroke s && !s.fab.marks.contains (8, 0)

/-- The samples of every pavilion with a probe frame. -/
def samplesOf (s : State) : Sparse (BitVec 128) := (probePavs s).map fun p => (p, sampleOf s p)

/-- The package as its conditions see it once the sample stands. -/
def withSample (s : State) : State :=
  { s with trg := { s.trg with
      prev := s.trg.cur, havePrev := !s.trg.cur.isEmpty, cur := samplesOf s, course := course s,
      taken := if s.trg.st = .armed ∨ s.trg.st = .fired then s.trg.taken + 1 else s.trg.taken } }

/-- Condition `c` is active and met in the sample that is taken now (R415, R416). -/
def meets (s : State) (c : Nat) : Bool := condActive s c && condMet (withSample s) c

/-- The writes of the sample that is taken now, one for every pavilion with taps (R421). -/
def sampleWrites (s : State) : List CapWrite :=
  ((probePavs s).filter (hasTaps s)).map fun p =>
    { pav := BitVec.ofNat 7 p, pos := if s.trg.depth = 0 then 0 else s.trg.taken % s.trg.depth, w := sampleWords s, j := 0,
      val := look 0 (samplesOf s) p }

/-- The decision on the last sample is due now (R416). -/
def decidesNow (s : State) : Bool := running s && s.trg.waiting && gOf s == decisionStroke s

/-- The condition whose action the sequencer takes: the lowest met, while capture is ARMED and no FIRE has stopped it. -/
def lowestMet (s : State) : Option Nat :=
  if s.trg.st == .armed && !s.trg.stopped then (List.range 16).find? fun c => s.trg.met.getLsbD c else none

/-- The halt of an accepted FIRE_HALT is due (R418). -/
def haltDue (s : State) : Bool := s.trg.haltAt.any fun g => decide (g ≤ gOf s)

/-- The stroke in which a FIRE_HALT raises its halt at the earliest (R418). -/
def haltOf (s : State) (m : CoxMsg) : Nat :=
  (m.course.toNat + bits s.trg.win 0 16) * s.cox.length + m.stroke.toNat + 8

/-- The FIRE of this package for course `c` (R418). -/
def fireFor (s : State) (hits : BitVec 16) (c : Nat) (forced haltAfter : Bool) : CoxMsg :=
  { coxMsg s with stroke := BitVec.ofNat 10 (sampleStroke s), course := BitVec.ofNat 64 c,
                  value := (0 : BitVec 46) ++ BitVec.ofBool haltAfter ++ BitVec.ofBool forced ++ hits }

/-- A FIRE has been raised: the sequencer stops, and the message goes toward the master (R416, R418). -/
def FireRaised (s t : State) (m : CoxMsg) (q : Nat) (w : Bool) : Prop :=
  t = { s with trg := { s.trg with waiting := w, seq := q, stopped := true,
                                   raised := if isMaster s then s.trg.raised ++ [m] else s.trg.raised },
               out := if isMaster s then s.out else s.out ++ [.cox 7 m] }

/-- TRG.REC as a FIRE leaves it (R433). -/
def recOf (s : State) (m : CoxMsg) : Word :=
  (0 : BitVec 1) ++ m.value.extractLsb' 16 1 ++ m.value.extractLsb' 17 1 ++ (reg s 0x80020).extractLsb' 28 1 ++
    m.origin ++ (0 : BitVec 8) ++ m.value.extractLsb' 0 16

/-- The sample of course `c` has been written, where the writes `ws` still wait (R420, R421). -/
def writtenWith (s : State) (ws : List CapWrite) (c : Nat) : Bool :=
  decide (0 < s.trg.taken) && (decide (c < s.trg.course) || (c == s.trg.course && ws.isEmpty))

/-- TRG.REC_SAMPLES of a record with `before` samples ahead of its trigger (R423, R433). -/
def samplesWord (s : State) (before : Nat) : Word :=
  let pre := min (bits s.trg.win 16 16) before
  BitVec.ofNat 32 (pre * 2 ^ 16 + (pre + bits s.trg.win 0 16 + 1) % 2 ^ 16)

/-- Samples taken in ARMED before course `c` (R423). -/
def takenBefore (s : State) (c : Nat) : Nat :=
  if c ≤ s.trg.course then s.trg.taken - (s.trg.course - c + 1) else s.trg.taken

/-- An ARMED package has taken the master's FIRE: it is FIRED, or DONE with a valid record where the record is complete
(R418, R420, R433). -/
def FireTaken (s t : State) (m : CoxMsg) (out : List Out) : Prop :=
  let before := takenBefore s m.course.toNat
  let fired := { s.trg with st := .fired, fire := some m, stopped := true, preAtFire := before }
  if writtenWith s s.trg.writes (m.course.toNat + bits s.trg.win 0 16) then
    t.trg = { fired with st := .done, frozen := true } ∧ reg t 0x80020 = recOf s m ||| 0x80000000 ∧
    reg t 0x8002C = samplesWord s before ∧ wideReg t 0x80024 = m.course ∧
    (∀ a, a ≠ 0x80024 → wideReg t a = wideReg s a) ∧
    OnlyLogged [] [0x80020, 0x8002C] { s with trg := t.trg, wide := t.wide, out := out } t
  else reg t 0x80020 = recOf s m ∧ OnlyLogged [] [0x80020] { s with trg := fired, out := out } t

/-- A FIRE comes before the one that the master has accepted in the same stroke (R418). -/
def beatsSent (s : State) (m : CoxMsg) : Bool :=
  s.trg.st == .armed && s.trg.accepted && running s &&
    s.trg.sent.any fun e => e.2 == gOf s &&
      decide (m.course < e.1.course ∨ (m.course = e.1.course ∧ m.origin < e.1.origin))

/-- The writes that wait once a codeword of `w` has been written (R421, R422). -/
def writesAfter (s : State) (w : CapWrite) : List CapWrite :=
  if w.j + 1 < w.w then s.trg.writes.map fun x => if x = w then { w with j := w.j + 1 } else x else s.trg.writes.erase w

/-- The record that is complete once only the writes `ws` wait (R420). -/
def closedBy (s : State) (ws : List CapWrite) : Option CoxMsg :=
  if s.trg.st = .fired then s.trg.fire.filter fun m => writtenWith s ws (m.course.toNat + bits s.trg.win 0 16) else none

/-- The writes `ws` wait now, and capture is DONE with a valid record where that completes it (R420, R433). -/
def CaptureMoved (s t : State) (ws : List CapWrite) : Prop :=
  match closedBy s ws with
  | some m =>
    t.trg = { s.trg with writes := ws, st := .done, frozen := true } ∧ flag t fRecValid = true ∧
    reg t 0x8002C = samplesWord s s.trg.preAtFire ∧ wideReg t 0x80024 = m.course ∧
    ∀ a, a ≠ 0x80024 → wideReg t a = wideReg s a
  | none =>
    t.trg = { s.trg with writes := ws } ∧ t.wide = s.wide ∧ reg t 0x8002C = reg s 0x8002C ∧
    flag t fRecValid = flag s fRecValid

/-- The message as the board sees it, where there is one. -/
def onLine (s : State) (kind : BitVec 4) (m : CoxMsg) : List Out := if onBoard s then s.out ++ [.cox kind m] else s.out

/-- Entries of the density ring, its next index, and the entries that it can take (R425, R434). -/
def densRing (s : State) : Nat := 2 ^ bits (reg s 0x80030) 0 5
def densAt (s : State) : Nat := fld s fDensTail % densRing s
def densRoom (s : State) : Nat := (fld s fDensHead % densRing s + densRing s - 1 - densAt s) % densRing s
/-- The density ring is in use. -/
def densRingOn (s : State) : Bool := decide (8 ≤ bits (reg s 0x80030) 0 5) && decide (bits (reg s 0x80030) 0 5 ≤ 16)

/-- The entries of the window in progress: by increasing pavilion, and instance 0 before instance 1; none where no course
was sampled (R424, R425). -/
def densEntries (s : State) (cut : Bool) : List (List (BitVec 64)) :=
  if s.trg.densOn && decide (0 < s.trg.densN) then
    (sortBy id ((probePavs s).filter (hasTaps s))).flatMap fun p =>
      (List.range (instances s)).map fun i => densEntry s p i cut
  else []

/-- The entries have been written in order to the ring as far as it takes them, and the others counted (R425). -/
def DensityWritten (s t : State) (es : List (List (BitVec 64))) : Prop :=
  let k := if densRingOn s then min (densRoom s) es.length else 0
  let at_ := fun (j : Nat) => (densAt s + j) % densRing s
  t.out = s.out ++ (List.range k).map (fun j =>
    .hostWrite (ringBase s 0x80034 + BitVec.ofNat 64 (320 * at_ j)) (es.getD j [])) ∧
  fld t fDensTail = (if k = 0 then fld s fDensTail else at_ k) ∧
  ctr t 0x80048 = min (2 ^ 48 - 1) (ctr s 0x80048 + if densRingOn s then es.length - k else 0)

/-- The windows' working values after a window has ended. -/
def windowOver (s : State) : Trg := { s.trg with dens := [], densN := 0, densOn := false }


/-- The entries of GLB.EVLOG that this tick's `m` events have made, in their places, oldest place first (R533). -/
def tickEntries (s : State) (m : Nat) : List (BitVec 128) :=
  (List.range m).map fun i => look 0 s.evlog ((fld s fEvNext + 256 - m + i) % 256)

/-- The entries of one tick in increasing code, then increasing location (R533). -/
def inOrder (l : List (BitVec 128)) : Prop := l.Pairwise fun a b => evKey a ≤ evKey b

/-- What the fuses have blown stays blown, and what they never blow stays: no floor falls, and no record goes. -/
def FusesStay (s t : State) : Prop :=
  s.fuses.fwFloor ≤ t.fuses.fwFloor ∧ s.fuses.shFloor ≤ t.fuses.shFloor ∧ s.fuses.dsFloor ≤ t.fuses.dsFloor ∧
  s.fuses.lms ≤ t.fuses.lms ∧ s.fuses.repairs <+: t.fuses.repairs ∧ s.fuses.retired <+: t.fuses.retired ∧
  t.fuses.pavs = s.fuses.pavs ∧ t.fuses.partPavs = s.fuses.partPavs ∧ t.fuses.grade = s.fuses.grade ∧
  t.fuses.stepping = s.fuses.stepping ∧ t.fuses.deviceId = s.fuses.deviceId ∧ t.fuses.procRef = s.fuses.procRef


end Sys2Proof.Machine
end

