-- ==== Sys2Proof/Certificates/Slice0/Obligations.lean ====
section
/-! DEFINITION. The statements for the provers. Each docstring names the rules of spec/ that the statement formalises. -/

open Sys2Proof Sys2Proof.Machine

/-- EVAL computes f = tt[8·D + 4·C + 2·B + A] and writes f to slot *s* (R30); EVAL_HOLD computes f = tt[4·C + 2·B +
A], and writes f to slot *s* if D = 1 and keeps the slot if D = 0 (R31): so in the one-value modes, and in each mode
by the table's evaluation in that mode. Neither changes anything else. -/
def Obligations.BpEvalWritesSlot : Prop :=
  ∀ (s : State) (p : Pav) (c : Crew) (b : Bp), released s p 2 = true →
    let w := bpWord s p c b
    let v := fun (sel : Nat) => (operand s p.toNat c.toNat b.toNat s.cox.stroke sel).toNat % 2
    let i := 4 * v (opcOf w) + 2 * v (opbOf w) + v (opaOf w)
    (bpSound s p c b 1 = true → Answers (.eval p c b) s fun t =>
      (valsOf s = .one → WritesSlot s t p c b (if (ttOf w).testBit (8 * v (opdOf w) + i) then 1 else 0)) ∧
      WritesSlot s t p c b (evalTable (valsOf s) (BitVec.ofNat 16 (ttOf (bpWord s p c b)))
        (operands s p.toNat c.toNat b.toNat (bpWord s p c b))) ∧
      t = { s with slots := t.slots, fab := { s.fab with retired := retiredNow s p c b, past := t.fab.past } }) ∧
    (bpSound s p c b 2 = true → Answers (.evalHold p c b) s fun t =>
      (valsOf s = .one → WritesSlot s t p c b (if v (opdOf w) = 1 then (if (ttOf w).testBit i then 1 else 0)
        else slot s p.toNat c.toNat b.toNat s.cox.stroke)) ∧
      WritesSlot s t p c b (holdValue (valsOf s)
        (evalTable (valsOf s) (BitVec.ofNat 8 (ttOf (bpWord s p c b)))
          ((operands s p.toNat c.toNat b.toNat (bpWord s p c b)).take 3))
        (operand s p.toNat c.toNat b.toNat s.cox.stroke (opdOf (bpWord s p c b)))
        (slot s p.toNat c.toNat b.toNat s.cox.stroke)) ∧
      t = { s with slots := t.slots, fab := { s.fab with retired := retiredNow s p c b, past := t.fab.past } })

/-- WIDE: a member of a quad writes its own f, as an EVAL does; a leader writes what its quad forms (R53 to R57), and
keeps its slot in the two-state modes when a member's word is uncorrectable (R59). -/
def Obligations.BpWide : Prop :=
  ∀ (s : State) (p : Pav) (c : Crew) (b : Bp), released s p 2 = true → bpSound s p c b 3 = true →
    Answers (.wide p c b) s fun t =>
      t = { s with slots := t.slots, fab := { s.fab with retired := retiredNow s p c b, past := t.fab.past } } ∧
      (b.toNat % 4 ≠ 0 → WritesSlot s t p c b (evalTable (valsOf s) (BitVec.ofNat 16 (ttOf (bpWord s p c b)))
        (operands s p.toNat c.toNat b.toNat (bpWord s p c b)))) ∧
      (b.toNat % 4 = 0 → ∀ v, wideValue s p.toNat c.toNat b.toNat (bpWord s p c b) = some v →
        WritesSlot s t p c b v) ∧
      (b.toNat % 4 = 0 → fourState s = false → wideValue s p.toNat c.toNat b.toNat (bpWord s p c b) = none →
        t.slots = s.slots)

/-- SEND, DRIVE, MEMRD and MEMWR write A to slot *s* (R32) and stage their side effect in the stroke: a lane for a VN0
flit (R114), an enabled or disabled driver of a crew wire (R60), a contribution to a memory operation (R171). -/
def Obligations.BpStagesEffect : Prop :=
  ∀ (s : State) (p : Pav) (c : Crew) (b : Bp), released s p 2 = true →
    let w := bpWord s p c b
    let a := opA s p.toNat c.toNat b.toNat w
    (bpSound s p c b 4 = true → Answers (.send p c b) s fun t => WritesSlot s t p c b a ∧
      t = { s with slots := t.slots, fab := { s.fab with
        retired := retiredNow s p c b, past := t.fab.past,
        sends := s.fab.sends ++ [{ pav := p, entry := BitVec.ofNat 10 (ttOf w), lane := BitVec.ofNat 3 (ttOf w / 1024),
                                   val := a, g := gOf s }] } }) ∧
    (bpSound s p c b 5 = true → Answers (.drive p c b) s fun t => WritesSlot s t p c b a ∧
      t = { s with slots := t.slots, fab := { s.fab with
        retired := retiredNow s p c b, past := t.fab.past,
        drives := s.fab.drives ++ [{ crew := p.toNat * 64 + c.toNat, wire := BitVec.ofNat 2 (ttOf w), bp := b, val := a,
                                     en := opB s p.toNat c.toNat b.toNat w }] } }) ∧
    (∀ lat, bpSound s p c b 6 = true → Answers (.memrd p c b lat) s fun t => WritesSlot s t p c b a ∧
      t = { s with slots := t.slots, fab := { s.fab with
        retired := retiredNow s p c b, past := t.fab.past,
        contribs := s.fab.contribs ++ [{ pav := p, desc := BitVec.ofNat 6 (ttOf w),
                                         role := BitVec.ofNat 2 (ttOf w / 2 ^ 14), idx := BitVec.ofNat 8 (ttOf w / 64),
                                         val := a, lat := lat }] } }) ∧
    (bpSound s p c b 7 = true → Answers (.memwr p c b) s fun t => WritesSlot s t p c b a ∧
      t = { s with slots := t.slots, fab := { s.fab with
        retired := retiredNow s p c b, past := t.fab.past,
        contribs := s.fab.contribs ++ [{ pav := p, desc := BitVec.ofNat 6 (ttOf w),
                                         role := BitVec.ofNat 2 (ttOf w / 2 ^ 14), idx := BitVec.ofNat 8 (ttOf w / 64),
                                         val := a, lat := 0 }] } })

/-- Before release stage 1 every BP operation executes without an effect (R378): only the BP's mark changes. A NOP has
none in any stage (R23). A BP whose word is uncorrectable performs no side effect (R43): its slot is kept in the
two-state modes and becomes X in FOURSTATE, no memory, pin, driver or log is touched, and the pavilion counts the
error. -/
def Obligations.BpWithoutEffect : Prop :=
  (∀ (s : State) (p : Pav) (c : Crew) (b : Bp) (lat : BitVec 16) (op : Nat), op ≤ 10 →
    stageOf s p.toNat = 0 ∨ op = 0 → bpSound s p c b op = true →
    exec (bpCommand op p c b lat) s = .next { s with fab := { s.fab with retired := retiredNow s p c b } }) ∧
  (∀ (s : State) (p : Pav) (c : Crew) (b : Bp) (lat : BitVec 16) (op : Nat), op ≤ 10 → bpBroken s p c b = true →
    Answers (bpCommand op p c b lat) s fun t =>
      (fourState s = false → t.slots = s.slots) ∧
      (fourState s = true → released s p 2 = true → WritesSlot s t p c b vX) ∧
      t.bank = s.bank ∧ t.deep = s.deep ∧ t.pins = s.pins ∧ t.dsp = s.dsp ∧
      t.fab.drives = s.fab.drives ∧ t.fab.logs = s.fab.logs ∧
      ctr t (pavA p.toNat + 0x208) = min (2 ^ 48 - 1) (ctr s (pavA p.toNat + 0x208) + 1))

/-- PINOUT writes A to slot *s* and, for a valid output entry of a bank in ON whose pin is not shorted, has the pin
driven to A, or released where B is 0, two strokes later (R23, R32, R40, R497, R501). LOG writes A to slot *s* and,
where its log port assembles messages, records A with the enable B and the end mark for the append at the end of the
stroke (R32, R444). TRAPCHK writes f(A,B,C,D) to slot *s*; a 1 counts in the pavilion's TRAP counter and raises a halt
with cause TRAP if and only if GLB.TRAP_CTRL.trap_halt is set; a 0 does nothing else (R33). -/
def Obligations.BpOutputs : Prop :=
  (∀ (s : State) (p : Pav) (c : Crew) (b : Bp), released s p 2 = true → plainMode s = true →
    bpSound s p c b 8 = true →
    let w := bpWord s p c b
    let e := pinOut s p.toNat (ttOf w % 64)
    let a := opA s p.toNat c.toNat b.toNat w
    let en := opB s p.toNat c.toNat b.toNat w
    let ok := e.testBit 31 && podState s (bankOfPin (e % 512)) == .on &&
      !(reg s (0x200100 + 4 * bankOfPin (e % 512))).getLsbD (e % 512 % 32)
    Answers (.pinout p c b) s fun t => WritesSlot s t p c b a ∧
      t = { s with slots := t.slots, fab := { s.fab with retired := retiredNow s p c b, past := t.fab.past },
                   pins := { s.pins with due := s.pins.due ++
                     if ok then [{ pin := BitVec.ofNat 9 (e % 512),
                                   act := if en.getLsbD 0 then some (a.getLsbD 0) else none, g := gOf s + 2 }] else [] } }) ∧
  (∀ (s : State) (p : Pav) (c : Crew) (b : Bp), released s p 2 = true → fourState s = false →
    bpSound s p c b 9 = true →
    let w := bpWord s p c b
    let a := opA s p.toNat c.toNat b.toNat w
    Answers (.log p c b) s fun t => WritesSlot s t p c b a ∧
      t = { s with slots := t.slots, fab := { s.fab with
        retired := retiredNow s p c b, past := t.fab.past,
        logs := s.fab.logs ++ if logOn s (ttOf w % 256) then
          [{ bp := bpIndex p.toNat c.toNat b.toNat, port := BitVec.ofNat 8 (ttOf w % 256), val := a,
             en := opB s p.toNat c.toNat b.toNat w, last := (ttOf w).testBit 15 }] else [] } }) ∧
  (∀ (s : State) (p : Pav) (c : Crew) (b : Bp), released s p 2 = true → plainMode s = true →
    bpSound s p c b 10 = true →
    let f := evalTable .one (BitVec.ofNat 16 (ttOf (bpWord s p c b))) (operands s p.toNat c.toNat b.toNat (bpWord s p c b))
    Answers (.trapchk p c b) s fun t => WritesSlot s t p c b f ∧
      t.bank = s.bank ∧ t.deep = s.deep ∧ t.cfg = s.cfg ∧ t.pins = s.pins ∧
      (f.getLsbD 0 = false →
        t = { s with slots := t.slots, fab := { s.fab with retired := retiredNow s p c b, past := t.fab.past } }) ∧
      (f.getLsbD 0 = true →
        ctr t (pavA p.toNat + 0x218) = min (2 ^ 48 - 1) (ctr s (pavA p.toNat + 0x218) + 1) ∧
        (flag s fTrapHalt = false → t.cox = s.cox ∧ t.out = s.out) ∧
        (flag s fTrapHalt = true → t.cox.halts.any (fun h => h.cause == 4 && h.raised == gOf s) = true)))

/-- The check bits correct every single flipped bit: the data read is the data written, and the codeword that is
written back is the one that was stored (R41, R42). The check bits find every pair of flipped bits: such a codeword is
uncorrectable (R41, R43). -/
def Obligations.CheckBits : Prop :=
  (∀ (d : BitVec 64) (i : Nat), i < 72 →
    let e := check72 (encode72 d ^^^ BitVec.ofNat 72 (2 ^ i))
    (check72 (encode72 d)).cls = .clean ∧ (check72 (encode72 d)).data = d.toNat ∧
    e.cls = .fixed ∧ e.data = d.toNat ∧ BitVec.ofNat 72 e.word = encode72 d) ∧
  (∀ (d : BitVec 64) (i j : Nat), i < j → j < 72 →
    (check72 (encode72 d ^^^ BitVec.ofNat 72 (2 ^ i) ^^^ BitVec.ofNat 72 (2 ^ j))).cls = .bad)

/-- BANK_READ_DELIVER: at the start of the due stroke, the data of a sound codeword enter the port's read-data source,
bit *v* as value *v*; no memory changes (R174, R175). DMEM_RESULT_ARRIVE and DMEM_RESULT_DELIVER (R86, R174, R185): a
sound result waits in the return buffer with its data; a result that comes after its due stroke is discarded; at the
due stroke a result that has arrived moves into the pavilion's source. A deep result that is not present at its due
stroke raises a halt with cause EASY_MISS outside TETHERED (R89), and reads as 0, counted in DMEM.LATE, in TETHERED
(R185). -/
def Obligations.MemoryReads : Prop :=
  (∀ (s : State) (p : Pav) (port : BitVec 1) (r : BankRead) (k : Nat),
    (running s && s.fab.retired.isEmpty) = true → valsOf s = .one → dueBank s p.toNat port.toNat = some r →
    r.inst = 1 → r.merge = false → r.cw0 = some k → (check72 r.raw0).cls = .clean →
    Answers (.bankReadDeliver p port) s fun t =>
      (∀ v, v < 64 → bankValue t p.toNat port.toNat v = dataBit (check72 r.raw0).data v) ∧
      t = { s with fab := { s.fab with bankRds := s.fab.bankRds.erase r, bankSrc := t.fab.bankSrc } } ∧
      ∀ q, q ≠ p.toNat * 2 + port.toNat → look (blank s 64) t.fab.bankSrc q = look (blank s 64) s.fab.bankSrc q) ∧
  ((∀ (s : State) (t4 : BitVec 4) (r : DeepRead) (k : Nat), fleet s = false →
    (s.fab.deepRds.find? fun r => r.terr == t4 && r.stage != .arrived) = some r →
    r.stage = .issued → r.cw0 = some k → deepClass (checkDeep r.raw0) = .clean →
    Answers (.dmemResultArrive t4 0) s fun t =>
      t = { s with fab := { s.fab with deepRds := s.fab.deepRds.map fun x => if x = r then
        { r with stage := .arrived,
                 data := BitVec.ofNat 512 (unpack (valsOf s) 256 0 (deepData (checkDeep r.raw0))) } else x } }) ∧
  (∀ (s : State) (t4 : BitVec 4) (g : BitVec 288) (r : DeepRead),
    (s.fab.deepRds.find? fun r => r.terr == t4 && r.stage != .arrived) = some r → r.stage = .missed →
    Answers (.dmemResultArrive t4 g) s fun t =>
      t = { s with fab := { s.fab with deepRds := s.fab.deepRds.erase r } }) ∧
  (∀ (s : State) (t4 : BitVec 4) (r : DeepRead),
    (running s && s.fab.retired.isEmpty) = true → valsOf s = .one → dueDeep s t4 = some r → r.stage = .arrived →
    r.merge = false →
    Answers (.dmemResultDeliver t4) s fun t =>
      (∀ v, v < 256 → deepValue t r.pav.toNat v = r.data.extractLsb' (2 * v) 2) ∧
      t = { s with fab := { s.fab with deepRds := s.fab.deepRds.erase r, deepSrc := t.fab.deepSrc } })) ∧
  (∀ (s : State) (t4 : BitVec 4) (r : DeepRead),
    (running s && s.fab.retired.isEmpty) = true → dueDeep s t4 = some r → r.stage = .issued →
    Answers (.dmemResultDeliver t4) s fun t =>
      t.bank = s.bank ∧ t.deep = s.deep ∧ t.slots = s.slots ∧
      ((s.cox.mode == .tethered) = false → t.cox.halts.any (fun h => h.cause == 7 && h.raised == gOf s) = true) ∧
      ((s.cox.mode == .tethered) = true → ctr t 0xC0020 = min (2 ^ 48 - 1) (ctr s 0xC0020 + 1) ∧
        find t.fab.deepSrc r.pav.toNat = some 0))

/-- CORRECTION_WRITE_BACK in a cycle that the schedule leaves free writes the corrected codeword where the word as it
was read still stands, and no other codeword changes (R188); until then it waits (R176). A deep codeword takes no bank
cycle. BANK_SCRUB and DEEP_SCRUB: the scrubber reads its next codeword; a sound one changes nothing but its position
(R190) and takes one cycle of its bank. It waits where the schedule accesses that codeword in this stroke (R192). -/
def Obligations.MemoryUpkeep : Prop :=
  (∀ (s : State) (w : WriteBack) (ws : List WriteBack), s.fab.backs = w :: ws →
    (backGranted s = false → exec .correctionWriteBack s = .next s) ∧
    (w.deep = true → backGranted s = true) ∧
    (backGranted s = true → Answers .correctionWriteBack s fun t =>
      t = { s with bank := t.bank, deep := t.deep, fab := { s.fab with backs := ws, grants := t.fab.grants } } ∧
      (∀ k, bankCw t k = if w.deep = false ∧ k = w.key ∧ (bankCw s w.key).setWidth 288 = w.old then w.new.setWidth 72
        else bankCw s k) ∧
      (∀ k, deepCw t k = if w.deep = true ∧ k = w.key ∧ deepCw s w.key = w.old then w.new else deepCw s k))) ∧
  ((∀ (s : State) (n m : Nat), upState s = true → s.scb.full = none → bits (reg s 0x60100) 0 16 ≠ 0 →
    nextBankItem s (bits (reg s 0x60108) 0 23) = some n → nextBankItem s (n + 1) = some m →
    (check72 (bankCw s n)).cls = .clean → bankScrubMay s n = true →
    Answers .bankScrub s fun t => t = { s with regs := t.regs, fab := { s.fab with grants := t.fab.grants } } ∧
      ∀ a, reg t a = if a = 0x60108 then BitVec.ofNat 32 m else reg s a) ∧
  (∀ (s : State) (n : Nat), s.scb.full = none → nextBankItem s (bits (reg s 0x60108) 0 23) = some n →
    schedBank s (n / 65536) (n % 65536) = true →
    exec .bankScrub s = .next s) ∧
  (∀ (s : State), s.scb.full = none → schedDeep s (bits (reg s 0x6010C) 0 31) = true → exec (.deepScrub 0) s = .next s) ∧
  (∀ (s : State), s.scb.full = none → bits (reg s 0x60104) 0 16 ≠ 0 → deepUp s = true →
    bits (reg s 0x6010C) 0 31 + 1 < 2 ^ 31 → deepClass (checkDeep (deepCw s (bits (reg s 0x6010C) 0 31))) = .clean →
    schedDeep s (bits (reg s 0x6010C) 0 31) = false →
    Answers (.deepScrub 0) s fun t => t = { s with regs := t.regs } ∧
      ∀ a, reg t a = if a = 0x6010C then BitVec.ofNat 32 (bits (reg s 0x6010C) 0 31 + 1) else reg s a))

/-- VN0 flits. A valid route entry launches, in its cycle, one flit with the lanes of its SENDs and the tag of its
arrival cycle (R112 to R114); a router moves an unopposed flit to the neighbour that its route names, a link's cost
later (R111); a live local port lands it in its receive register (R115), and a dead one drops and counts it (R127). -/
def Obligations.Vn0Flits : Prop :=
  (∀ (s : State) (p : Pav) (e : BitVec 10), (running s && enabled s p.toNat && released s p 1 &&
      launchNow s (sroute s p.toNat e.toNat) && !s.fab.marks.contains (7, p.toNat * 1024 + e.toNat)) = true →
    let r := sroute s p.toNat e.toNat
    let half := r.getLsbD 52
    let cyc := 2 * gOf s + half.toNat
    let legs := r.extractLsb' 28 18
    let payload := lanesOf s p.toNat e.toNat (if half then gOf s else gOf s - 1)
    let tag := cycleTag s (cyc + routeCost p.toNat legs + if r.getLsbD 27 then 2 * Config.linkSlack else 0)
    Answers (.vn0Launch p e) s fun t =>
      t.net = { s.net with flits := s.net.flits ++ [{
        bits := mkFlit payload tag (bits r 46 6) legs (r.getLsbD 27) (bits r 24 3) (bits r 21 3),
        at_ := p, inp := 0, due := cyc }] } ∧
      ctr t (pavA p.toNat + 0x510) = min (2 ^ 48 - 1) (ctr s (pavA p.toNat + 0x510) + 1) ∧
      OnlyLogged [pavA p.toNat + 0x510] [] { s with net := t.net, fab := { s.fab with marks := (7, p.toNat * 1024 + e.toNat) :: s.fab.marks } } t) ∧
  (∀ (s : State) (p : Pav) (inp : RPort) (f : Flit), running s = true → inp.toNat < 6 →
    flitAt s p.toNat inp.toNat (· != 0) = some f → unopposed s f = true → flitNext f.bits ≤ 4 →
    let k := flitNext f.bits
    let legs := stepLegs (flitLegs f.bits)
    Answers (.flitSwitch p inp 0) s fun t =>
      t.net = { s.net with flits := s.net.flits.erase f ++ [{
        bits := put (put f.bits 18 18 legs.toNat) 36 3 (nextOf legs (flitEnd f.bits)),
        at_ := BitVec.ofNat 7 (neighbour p.toNat k), inp := BitVec.ofNat 3 (farInput k),
        due := cycleOf s f + linkCost p.toNat k }] } ∧
      ctr t (pavA p.toNat + 0x560 + 8 * k) = min (2 ^ 48 - 1) (ctr s (pavA p.toNat + 0x560 + 8 * k) + 1) ∧
      OnlyLogged [pavA p.toNat + 0x560 + 8 * k] [] { s with net := t.net } t) ∧
  (∀ (s : State) (p : Pav) (inp : RPort) (f : Flit), running s = true → inp.toNat < 6 →
    flitAt s p.toNat inp.toNat (· == 0) = some f → unopposed s f = true → portState s p.toNat = .live →
    flitTag f.bits = cycleTag s (cycleOf s f) → portWrites s p.toNat (flitRreg f.bits) s.cox.stroke = false →
    Answers (.vn0Land p inp 0) s fun t =>
      t.fab = { s.fab with rxNext := s.fab.rxNext ++ [{
        key := p.toNat * 64 + flitRreg f.bits, mask := 0xFF, val := flitPayload f.bits, half := cycleOf s f % 2 == 1 }] } ∧
      t.net = { s.net with flits := s.net.flits.erase f } ∧
      ctr t (pavA p.toNat + 0x518) = min (2 ^ 48 - 1) (ctr s (pavA p.toNat + 0x518) + 1) ∧
      OnlyLogged [pavA p.toNat + 0x518, pavA p.toNat + 0x560] [] { s with net := t.net, fab := t.fab } t) ∧
  (∀ (s : State) (p : Pav) (inp : RPort) (f : Flit), running s = true → inp.toNat < 6 →
    flitAt s p.toNat inp.toNat (· == 0) = some f → unopposed s f = true → portState s p.toNat ≠ .live →
    Answers (.vn0Land p inp 0) s fun t =>
      t.net = { s.net with flits := s.net.flits.erase f } ∧
      ctr t (pavA p.toNat + 0x520) = min (2 ^ 48 - 1) (ctr s (pavA p.toNat + 0x520) + 1) ∧
      OnlyLogged [pavA p.toNat + 0x520, pavA p.toNat + 0x560] [] { s with net := t.net } t)

/-- A transfer's 64 flit bits and 8 check bits are accepted where the CRC-8 matches, so that a single bit error is
always found (R107). A VN0 flit that fails its CRC is dropped and counted, and raises a halt, at a router and at a
local port alike (R122). INGRESS_HANDOFF enters a held flit at its gateway by the ingress entry of its tag cycle
(R116). -/
def Obligations.Vn0DropsAndIngress : Prop :=
  ((∀ (b : BitVec 64) (err : BitVec 72), received b err =
    if crc8 64 (b ^^^ err.extractLsb' 8 64).toNat = crc8 64 b.toNat ^^^ err.extractLsb' 0 8
      then some (b ^^^ err.extractLsb' 8 64) else none) ∧
  (∀ (b : BitVec 64) (i : Nat), i < 72 → received b (BitVec.ofNat 72 (2 ^ i)) = none) ∧
  ∀ (s : State) (p : Pav) (inp : RPort) (f : Flit) (land : Bool) (err : BitVec 72), running s = true → inp.toNat < 6 →
    flitAt s p.toNat inp.toNat (if land then (· == 0) else (· != 0)) = some f → received f.bits err = none →
    Answers (if land then .vn0Land p inp err else .flitSwitch p inp err) s fun t =>
      t.net = { s.net with flits := s.net.flits.erase f } ∧ t.fab = s.fab ∧
      ctr t (pavA p.toNat + 0x538) = min (2 ^ 48 - 1) (ctr s (pavA p.toNat + 0x538) + 1) ∧
      t.cox.halts.any (fun h => h.cause == 0xF && h.raised == gOf s) = true) ∧
  (∀ (s : State) (n : DPort) (h : HeldFlit), running s = true →
    (s.net.held.find? fun h => h.port == n && decide (h.due / 2 ≤ gOf s)) = some h → gOf s ≤ h.due / 2 →
    (s.net.held.any fun x => x.port != h.port && x.due == h.due && flitFgate x.bits == flitFgate h.bits) = false →
    let p := gatewayPav (flitFgate h.bits)
    let e := ingress s p (flitTag h.bits)
    let legs := e.extractLsb' 13 18
    e.getLsbD 31 = true →
    Answers (.ingressHandoff n) s fun t =>
      t = { s with fab := { s.fab with marks := cycleMark p (flitTag h.bits) :: s.fab.marks },
                   net := { s.net with held := s.net.held.erase h, flits := s.net.flits ++ [{
        bits := mkFlit (flitPayload h.bits).toNat (cycleTag s (h.due + routeCost p legs)) (flitRreg h.bits) legs false 0 0,
        at_ := BitVec.ofNat 7 p, inp := 5, due := h.due }] } })

/-- Packets. An output moves the packet at the head of the input it grants to the next router's buffer (R109), or to
the packets of a live local port (R127); a packet held for 4,096 cycles by a RECONF router is removed and counted
(R128); the wake latch of a die replays its packets in order (R130), and a VN1 packet of a pavilion that wakes DEAD is
answered (R126). -/
def Obligations.PacketsMove : Prop :=
  (∀ (s : State) (p : Pav) (out : RPort) (vn i : Nat) (pk : Packet) (rest : List Packet),
    1 ≤ out.toNat → out.toNat ≤ 4 → grantOf s p.toNat out.toNat = some (vn, i) →
    buf s (bufKey p.toNat i vn) = pk :: rest → hopWait s p.toNat out.toNat pk = .go →
    noneWait s p.toNat out.toNat = true →
    waiting s (bufKey (neighbour p.toNat out.toNat) (farInput out.toNat) pk.vn.toNat) = [] →
    let key := bufKey p.toNat i vn
    let far := bufKey (neighbour p.toNat out.toNat) (farInput out.toNat) pk.vn.toNat
    let legs := stepLegs pk.legs
    let left := upd [] s.net.bufs key rest
    Answers (.packetHop p out []) s fun t =>
      t.net = { s.net with
        outFrom := (takeOutput p.toNat out.toNat vn (pkSize pk) ((freeCycle s p.toNat out.toNat vn).getD (2 * gOf s)) s).net.outFrom,
        bufs := upd [] left far (look [] left far ++
          [{ pk with held := 0, legs := legs, nextPort := BitVec.ofNat 3 (nextOf legs pk.endG) }]),
        turn := upd 0 s.net.turn (bufKey p.toNat out.toNat vn) ((i + 1) % 6) } ∧
      OnlyLogged [pavA p.toNat + 0x560 + 8 * out.toNat] [] { s with net := t.net } t) ∧
  (∀ (s : State) (p : Pav) (vn i : Nat) (pk : Packet) (rest : List Packet),
    grantOf s p.toNat 0 = some (vn, i) → buf s (bufKey p.toNat i vn) = pk :: rest →
    hopWait s p.toNat 0 pk = .go → portState s p.toNat = .live → noneWait s p.toNat 0 = true → pk.bad = false →
    (pk.vn.toNat = 3 → pkOpcode pk.head ≠ 0xE) →
    Answers (.packetHop p 0 []) s fun t =>
      t.net = { s.net with
                           outFrom := (takeOutput p.toNat 0 vn (pkSize pk) ((freeCycle s p.toNat 0 vn).getD (2 * gOf s)) s).net.outFrom,
                           bufs := upd [] s.net.bufs (bufKey p.toNat i vn) rest,
                           turn := upd 0 s.net.turn (bufKey p.toNat 0 vn) ((i + 1) % 6),
                           inbox := upd [] s.net.inbox p.toNat (look [] s.net.inbox p.toNat ++ [{ pk with held := 0 }]) } ∧
      OnlyLogged [pavA p.toNat + 0x560] [] { s with net := t.net } t) ∧
  (∀ (s : State) (p : Pav) (out : RPort) (vn i : Nat) (pk : Packet), out.toNat < 6 →
    busyPacket s p.toNat out.toNat = some (vn, i, pk) →
    Answers (.routeBusy p out) s fun t =>
      ctr t (pavA p.toNat + 0x548) = min (2 ^ 48 - 1) (ctr s (pavA p.toNat + 0x548) + 1) ∧
      t.net.inbox = s.net.inbox ∧ t.net.flits = s.net.flits ∧ OnlyLogged [pavA p.toNat + 0x548] [] { s with net := t.net } t) ∧
  (∀ (s : State) (die : BitVec 2) (pk : Packet) (ps : List Packet), dieAwake s die.toNat = true →
    look [] s.net.latch die.toNat = pk :: ps → ps ≠ [] →
    let q := pkDstPav pk.head
    let s1 := { s with net := { s.net with latch := upd [] s.net.latch die.toNat ps } }
    Answers (.wakeLatchReplay die) s fun t =>
      t = if wakesDead s q && pk.vn == 1 then replyStatus q ccDeadTarget pk.head s1
        else { s1 with net := { s1.net with inbox := upd [] s.net.inbox q (look [] s.net.inbox q ++ [pk]) } })

/-- The memory services of a pavilion (R125, R179): a write puts its data under new check bits at the codeword it
names and changes no other; a read answers with the data, and changes no memory. A write is not served in Easy (R86);
one whose codeword a scheduled write of the stroke targets waits, or on bank 0 is dropped where it took that write's
cycle (R177, R192). -/
def Obligations.PacketMemoryServices : Prop :=
  (∀ (s : State) (p : Pav) (pk : Packet) (w : BitVec 64) (same : Bool), s.cox.st ≠ .easy → serves s p 1 2 pk = true →
    pk.data = [w] → bankState s p.toNat (pkAddr pk.head / 1024) = 0 → clashAt s p.toNat 1 (pkAddr pk.head) = none →
    bankBusy s p.toNat = false →
    Answers (.bankWrRequest p same) s fun t =>
      (∀ k, bankCw t k = if k = bankKey p.toNat (pkAddr pk.head) then encode72 w else bankCw s k) ∧
      look [] t.net.inbox p.toNat = (look [] s.net.inbox p.toNat).erase pk ∧
      t.deep = s.deep ∧ t.slots = s.slots ∧ t.regs = s.regs) ∧
  (∀ (s : State) (p : Pav) (pk : Packet) (w : BitVec 64) (same : Bool), s.cox.st ≠ .easy → serves s p 1 2 pk = true →
    pk.data = [w] → (schedWrites s p.toNat).contains (pkAddr pk.head) = true →
    exec (.bankWrRequest p same) s = .next (if same ∧ pkAddr pk.head < 1024 ∧ bankBusy s p.toNat = false
      then replyStatus p.toNat ccInternal pk.head (packetCycle p.toNat pk (takeInbox p.toNat pk s)) else s)) ∧
  (∀ (s : State) (p : Pav) (same : Bool), bankBusy s p.toNat = true →
    exec (.bankWrRequest p same) s = .next s ∧ exec (.bankRdRequest p) s = .next s) ∧
  (∀ (s : State) (p : Pav) (same : Bool), s.cox.st = .easy → exec (.bankWrRequest p same) s = .next s) ∧
  (∀ (s : State) (p : Pav) (pk : Packet), serves s p 1 1 pk = true → pkCount pk.head = 1 →
    bankState s p.toNat (pkAddr pk.head / 1024) = 0 → bankBusy s p.toNat = false →
    (check72 (bankCw s (bankKey p.toNat (pkAddr pk.head)))).cls = .clean →
    exec (.bankRdRequest p) s = .next (reply p.toNat 8 0
      [BitVec.ofNat 64 (check72 (bankCw s (bankKey p.toNat (pkAddr pk.head)))).data] pk.head
        (packetCycle p.toNat pk (takeInbox p.toNat pk s))))

/-- The other services of a local port (R125, R332, R544): a register read answers with the register's value; a
register write and a configuration write answer once their effect has been made; DELIVER stages the engine's message
beside its port. A response completes its requester's tag (R125): the package reports the tag with its code and data,
and the response is consumed, and its place at the requester is free for the answer of another request (R108). MGMT:
the I/O die takes its oldest VN3 packet and answers it with one RESP_ACK from gateway 0 (R125); a credit of an NI of
this package enters the matching store as an unclaimed one (R330). The layout of the notice is the model's choice
(notes/assumptions/86.md). -/
def Obligations.PacketOtherServices : Prop :=
  ((∀ (s : State) (p : Pav) (pk : Packet), serves s p 1 3 pk = true →
    let s1 := takeInbox p.toNat pk s
    let a := pavA p.toNat + 4 * (pkAddr pk.head % 16384)
    exec (.regRd p) s = .next (reply p.toNat 8 0 [(readReg s1 a).setWidth 64] pk.head (readEffects a 15 s1))) ∧
  (∀ (s : State) (p : Pav) (pk : Packet), serves s p 1 4 pk = true →
    exec (.regWr p) s = .next (reply p.toNat 9 0 [] pk.head
      (writePlain (pavA p.toNat + 4 * (pkAddr pk.head % 16384)) ((pk.data.headD 0).setWidth 32) (takeInbox p.toNat pk s)))) ∧
  (∀ (s : State) (p : Pav) (pk : Packet) (addr : BitVec 32) (word : BitVec 9) (d : BitVec 64),
    serves s p 3 0xC pk = true → pk.data = [d] → framePav addr = p.toNat → portState s p.toNat ≠ .reconf →
    Answers (.cfgWr p addr word) s fun t =>
      (∀ k, look 0 t.cfg k = if k = cfgKey (addr.toNat / 128) word.toNat then encode72 d else look 0 s.cfg k) ∧
      t.bank = s.bank ∧ t.deep = s.deep ∧ t.slots = s.slots ∧ t.shadow = s.shadow ∧ t.regs = s.regs) ∧
  (∀ (s : State) (p : Pav) (pk : Packet) (addr : BitVec 32) (word : BitVec 9), serves s p 3 0xD pk = true →
    framePav addr = p.toNat →
    exec (.cfgRd p addr word 0) s = .next (reply p.toNat 8 0
      [BitVec.ofNat 64 (cfgData s (cfgKey (addr.toNat / 128) word.toNat))] pk.head (takeInbox p.toNat pk s))) ∧
  (∀ (s : State) (p : Pav) (pk : Packet) (m : Msg), serves s p 1 5 pk = true →
    (pkSrcPos pk.head == position s && pkSrcIo pk.head) = true → sentBy s (pkTag pk.head) = some m →
    m.port.toNat = pkAddr pk.head →
    Answers (.deliver p) s fun t =>
      t.dsp.msgs = s.dsp.msgs.map (fun x => if x.order = m.order then { m with stage := 3 } else x) ∧
      look [] t.dsp.staged (msgKey m) = look [] s.dsp.staged (msgKey m) ++ [m.order] ∧
      niCredits t (msgKey m) = niCredits s (msgKey m) - 1 ∧
      t.bank = s.bank ∧ t.deep = s.deep ∧ t.fab = s.fab ∧ t.regs = s.regs)) ∧
  (∀ (s : State) (p : Pav) (pk : Packet), nextReply s false p.toNat = some pk → pk.bad = false →
    let done := fun (code : Nat) => ({ s with
      net := { s.net with inbox := upd [] s.net.inbox p.toNat ((look [] s.net.inbox p.toNat).erase pk),
                          owed := upd 0 s.net.owed p.toNat (look 0 s.net.owed p.toNat - 1) },
      out := s.out ++ [.tagDone false p (BitVec.ofNat 10 (pkTag pk.head)) (BitVec.ofNat 8 code) pk.data] } : State)
    (pkOpcode pk.head = 8 → exec (.respData false p) s = .next (done 0)) ∧
    (pkOpcode pk.head = 9 → exec (.respAck false p) s = .next (done 0)) ∧
    (pkOpcode pk.head = 0xA → exec (.respStatus false p) s = .next (done (pkAddr pk.head % 256)))) ∧
  (∀ (s : State) (pk : Packet), (s.net.ioIn.find? fun pk => pk.vn == 3) = some pk → noticeOf s (fun _ => true) pk = true →
    let d := pk.data.headD 0
    let k := piKey (bits d 0 12) (bits d 12 1)
    let ack := mkHead 9 (pkSrcPos pk.head) false (pkSrcPav pk.head) (position s) true 0 (pkTag pk.head) 0 0 0
    let key := bufKey 0 5 2
    Answers .mgmt s fun t =>
      t = { s with net := t.net, dsp := { s.dsp with
        unclaimed := if d.getLsbD 13 then upd 0 s.dsp.unclaimed k (look 0 s.dsp.unclaimed k + 1) else s.dsp.unclaimed } } ∧
      t.net.ioIn = s.net.ioIn.erase pk ∧ t.net.inbox = s.net.inbox ∧ t.net.flits = s.net.flits ∧
      (∀ x, routed s 0 ack [] = some x → waiting s key = [] → hasRoom s key 2 1 = true → buf t key = buf s key ++ [x]))

/-- RUN and STEP (R80): accepted, the controller waits with a start lead of EASY_LEAD strokes, its units ask again,
and a package in P1 wakes to P0 (R465); STEP with COX.STEP_COUNT 0, and either where it is ignored, has no effect. -/
def Obligations.RunAndStep : Prop :=
  ∀ (s : State),
    let started := fun (n : Option Nat) (t : State) =>
      t.cox = { s.cox with st := .wait, started := true, stepping := n, lead := some 64, raised := askAgain s,
                           edge := flag s fTclkEdge } ∧
      (s.pwr.st = .p0 → t = { s with cox := t.cox, pwr := { s.pwr with resuming := false } }) ∧
      (s.pwr.st = .p1 → t.pwr = { s.pwr with st := .p0, resuming := false } ∧
        OnlyLogged [0x20080] [0x20000, 0x20004] { s with cox := t.cox, pwr := t.pwr } t)
    (hostUp s = true → startable s = true → Answers .run s (started none)) ∧
    (hostUp s = true → startable s = true → fld s fStepCount ≠ 0 → Answers .step s (started (some (fld s fStepCount)))) ∧
    (startable s = false → exec .run s = .next s) ∧
    (startable s = false ∨ fld s fStepCount = 0 → exec .step s = .next s)

/-- HALT (R79, R81): in RUN and EASY a halt with cause 1 is raised for the boundary that R81 gives, and nothing else
changes but the cox line; in WAIT the controller halts at once; elsewhere it has no effect. HALT_MESSAGE (R81, R84,
R229, R239): in RUN or EASY the halt it names is pending, the master passes the message on, and a HALT for a lost link
takes the board back to FORMING, from which it measures at once where no port of this package is missing; in WAIT, a
halt for the course that waits is in force at once. -/
def Obligations.Halts : Prop :=
  (∀ (s : State), hostUp s = true → flag s fIsolated = false →
    (inCourse s = true → Answers .halt s fun t => haltRaised s t 1 ∧
      t = { s with cox := { s.cox with halts := t.cox.halts }, out := t.out }) ∧
    (s.cox.st = .wait → Answers .halt s fun t => Stopped t ∧ t.bank = s.bank ∧ t.deep = s.deep ∧ t.slots = s.slots ∧
      course t = course s ∧ (s.cox.halts = [] → fld t fHaltCause = 1)) ∧
    (inCourse s = false → s.cox.st ≠ .wait → exec .halt s = .next s)) ∧
  (∀ (s : State) (m : CoxMsg), m.origin.toNat ≠ position s → onBoard s = true →
    (inCourse s = true → Answers (.haltMessage m) s fun t =>
      (t.cox.halts.any fun h => h.cause == m.cause && h.before == m.course.toNat && h.raised == raisedAt s m) = true ∧
      t.out = (if isMaster s then s.out ++ [.cox 5 m] else s.out) ∧
      t.cox.board = (if m.cause.toNat = 6 then if missingPorts s = 0 then .measuring else .forming else .formed) ∧
      t = { s with cox := { s.cox with halts := t.cox.halts, board := t.cox.board }, out := t.out, lnk := t.lnk,
                   regs := t.regs } ∧
      (t.cox.board ≠ .measuring → t.lnk = s.lnk ∧ t.regs = s.regs)) ∧
    (s.cox.st = .wait → m.course.toNat ≤ course s → Answers (.haltMessage m) s fun t => Stopped t ∧
      t.slots = s.slots ∧ t.deep = s.deep))

/-- COURSE_BOUNDARY (R77, R81): once every BP has executed in it, stroke L − 1 retires, COX.COURSE advances, and
stroke 0 is next; a halt that is due, the last course of a step, or a mode change to SERVICE ends the run there, and
nothing else does. -/
def Obligations.CourseBoundaryAdvances : Prop :=
  ∀ (s : State), (running s && strokeDone s && s.cox.stroke + 1 == s.cox.length) = true →
    let r := passStroke s
    let ends := r.cox.halts.any (fun h => decide (h.before ≤ course s + 1)) || s.cox.stepping.map (· - 1) == some 0 ||
      s.cox.pend.any fun m => decide (m.course ≤ course s + 1) && m.mode == .service
    Answers .courseBoundary s fun t =>
      t.cox.stroke = 0 ∧ t.cox.length = s.cox.length ∧ course t = (course s + 1) % 2 ^ 64 ∧ t.slots = r.slots ∧
      t.deep = r.deep ∧ (ends = true → Stopped t) ∧
      (ends = false → t.cox.st = .run ∨ t.cox.st = .easy ∨ t.cox.st = .wait)

/-- EASY_ENTER, EASY_RESUME_POINT and EASY_LONG complete (R79, R85, R87): in RUN, with every BP of the stroke executed
and an Easy due at the next stroke, EASY_ENTER retires the stroke before P and Easy begins at P, by way of the course
boundary where P is stroke 0; in Easy, after E strokes, the course goes on at P, with every write that was held
performed; an Easy of 2^24 strokes is logged once. -/
def Obligations.EasyComesAndGoes : Prop :=
  (∀ (s : State), running s = true → strokeDone s = true → easyAt s (gOf s + 1) (wall s + 1) = true →
    (s.cox.stroke + 1 < s.cox.length → ∃ t, exec .easyEnter s = .next t ∧
      t.cox.st = .easy ∧ t.cox.easyK = 1 ∧ t.cox.stroke = s.cox.stroke + 1 ∧ course t = course s ∧
      t.bank = (passStroke s).bank ∧ t.deep = (passStroke s).deep ∧ t.slots = (passStroke s).slots ∧
      t.pins = (passStroke s).pins) ∧
    (s.cox.stroke + 1 = s.cox.length → ∃ t, exec .easyEnter s = .next t ∧ exec .courseBoundary s = .next t ∧
      t.cox.stroke = 0 ∧ course t = (course s + 1) % 2 ^ 64)) ∧
  (∀ (s : State) (e : Nat), s.cox.st = .easy → easyLength s = some e → e ≤ s.cox.easyK →
    ∃ t, exec .easyResumePoint s = .next t ∧
      t.cox.st = .run ∧ t.cox.stroke = s.cox.stroke ∧ course t = course s ∧ wall t = (wall s + 1) % 2 ^ 64 ∧
      t.slots = s.slots ∧ t.deep = s.deep ∧ (s.cox.stroke ≠ 0 → s.hif.parked = [] → t.bank = s.bank)) ∧
  (∀ (s : State), s.cox.st = .easy → 2 ^ 24 ≤ s.cox.easyK → s.cox.easyLong = false →
    ∃ t, exec .easyLong s = .next t ∧ t.cox.easyLong = true ∧
      OnlyLogged [] [] { s with cox := { s.cox with easyLong := true } } t) ∧
  (∀ (s : State), s.cox.st = .easy → s.cox.easyLong = true → exec .easyLong s = .next s)

/-- What makes and unmakes a wait at a boundary (R79, R80, R210, R212, R232): the end of the start lead, a grant and
the end of the tether lead start the course where nothing else holds it; the link timeout halts it. -/
def Obligations.WaitsAtBoundaries : Prop :=
  (∀ (s : State), s.cox.st = .wait → s.cox.lead = some 0 →
    (clearToStart s = false ∨ (paceMode s).mode = .tethered →
      exec .startLeadEnd s = .next { s with cox := { s.cox with lead := none } }) ∧
    (clearToStart s = true → (paceMode s).mode ≠ .tethered → s.cox.tether = none → Answers .startLeadEnd s fun t =>
      t.cox.st = startState s ∧ t.cox.lead = none ∧ t.slots = s.slots ∧ t.deep = s.deep ∧ course t = course s)) ∧
  (∀ (s : State) (add : BitVec 16),
    let g := setFld fGrantBal (min 0xFFFFFFFF (fld s fGrantBal + add.toNat)) s
    (lockStep s = false → exec (.grant add) s = .next s) ∧
    (hostUp s = true → lockStep s = true → waitsHere s = false → exec (.grant add) s = .next g) ∧
    (hostUp s = true → lockStep s = true → waitsHere s = true → clearToStart g = true →
      (paceMode s).mode ≠ .tethered →
      Answers (.grant add) s fun t => t.cox.st = startState s ∧ t.slots = s.slots ∧ t.deep = s.deep)) ∧
  (∀ (s : State), waitsHere { s with cox := { s.cox with tether := none } } = true → (paceMode s).mode = .tethered →
    clearToStart s = true → (s.cox.tether == some 0 || !isMaster s) = true →
    Answers .tetherLeadEnd s fun t => t.cox.st = startState s ∧ t.cox.tether = none ∧ t.slots = s.slots ∧
      t.deep = s.deep) ∧
  (∀ (s : State), s.cox.st = .wait → boardReady s = false → bits (reg s 0xB0088) 0 16 ≠ 0 →
    Answers .boardWaitTimeout s fun t => Stopped t ∧ t.slots = s.slots ∧ t.deep = s.deep ∧
      (s.cox.halts = [] → fld t fHaltCause = 6))

/-- TCLK_EDGE (R212, R215, R220, R221): an edge of the other polarity has no effect; a sampled one sets
COX.TCLK_PERIOD, and tclk_seen, and, where the master does not pace by it, nothing else; in WAIT it starts the tether
lead, and in a course it is an overrun that freezes the outputs and is counted. -/
def Obligations.TclkEdges : Prop :=
  ∀ (s : State) (falling : Bool),
    let p := min (s.cox.ticks - s.cox.lastEdge.getD 0) 0xFFFF
    let paced := (paceMode s).mode == .tethered && isMaster s
    (falling ≠ s.cox.edge → exec (.tclkEdge falling) s = .next s) ∧
    (falling = s.cox.edge → Answers (.tclkEdge falling) s fun t =>
      t.cox.lastEdge = some s.cox.ticks ∧ t.bank = s.bank ∧ t.deep = s.deep ∧ t.slots = s.slots ∧
      (s.cox.lastEdge.isSome = true → fld t fTclkLast = p ∧
        fld t fTclkShort = if fld s fTclkShort = 0 then p else min (fld s fTclkShort) p) ∧
      flag t fTclkSeen = true ∧
      (paced = false → t = { s with cox := { s.cox with lastEdge := t.cox.lastEdge }, regs := t.regs } ∧
        ∀ a, a ≠ 0xB0064 → a ≠ 0xB0060 → reg t a = reg s a) ∧
      (paced = true → waitsHere s = true → clearToStart s = true → fld s fThrLevel = 16 →
        t.cox.tether = some (bits (reg s 0xB0060) 8 8)) ∧
      (paced = true → inCourse s = true → t.pins = { s.pins with frozen := true, thaw := course s + 1 } ∧
        ctr t 0xB0068 = min (2 ^ 48 - 1) (ctr s 0xB0068 + 1) ∧
        (flag s fOverrunHalt = true → haltRaised s t 0xF)))

/-- The messages of the cox line (R84, R85, R87, R255). ASK hands a unit's request to the master; STOP puts a stop
point in force; CLEAR fixes an open request's figure, and RESUME the figure of the stop, in a package that follows. -/
def Obligations.CoxLineStops : Prop :=
  (∀ (s : State) (m : CoxMsg) (q : EasyReq), m.origin.toNat = position s →
    (s.cox.raised.find? (sameReq (reqOf s m))) = some q →
    exec (.ask m) s = .next (if isMaster s
      then { s with cox := { s.cox with raised := s.cox.raised.erase q, reqs := s.cox.reqs ++ [q] } }
      else { s with cox := { s.cox with raised := s.cox.raised.erase q }, out := s.out ++ [.cox 1 m] })) ∧
  (∀ (s : State) (m : CoxMsg), m.origin.toNat ≠ position s → isMaster s = true → s.cox.mode ≠ .tethered →
    gOf s < (reqOf s m).p →
    exec (.ask m) s = .next { s with cox := { s.cox with reqs := s.cox.reqs ++ [reqOf s m] } }) ∧
  (∀ (s : State) (x : StopIn), s.cox.mode ≠ .tethered → stopAt s (stopPoint s x.msg) = none →
    let m := x.msg
    gOf s < stopPoint s m ∨ s.cox.st = .wait →
    (isMaster s = false → exec (.stop x) s = .next { s with cox := { s.cox with stops := s.cox.stops ++
      [{ p := stopPoint s m, cause := m.cause, tick := m.value.toNat, len := m.len.toNat, opn := m.opn,
         figure := none, linkTick := x.link.toNat, dmemTick := x.dmem.toNat, linkLen := x.stretch.toNat,
         thermLen := x.thermal.toNat }] } }) ∧
    (isMaster s = true → s.cox.st ≠ .easy → gOf s + 64 = stopPoint s m + fld s fReachUp + s.cox.lead.getD 0 →
      stopNeeded s (stopPoint s m) = true → Answers (.stop x) s fun t =>
        t = { s with cox := { s.cox with stops := t.cox.stops }, out := t.out } ∧
        ∃ r, t.cox.stops = s.cox.stops ++ [r] ∧ r.p = stopPoint s m ∧
          ∀ q ∈ s.cox.reqs, q.p = stopPoint s m → match q.kind with
            | .tick n => n ≤ r.tick ∧ n ≤ if q.cause = 2 then r.linkTick else r.dmemTick
            | .len n => n ≤ r.len ∧ n ≤ if q.cause = 4 then r.thermLen else r.linkLen
            | .opn _ => r.opn = true)) ∧
  (∀ (s : State) (m : CoxMsg), hostClearOk s m = true →
    (isMaster s = false → exec (.clear m) s = .next (if m.origin.toNat = position s
      then { s with out := s.out ++ [.cox 3 m] } else s)) ∧
    (isMaster s = true → Answers (.clear m) s fun t =>
      t = { s with cox := { s.cox with reqs := t.cox.reqs, stops := t.cox.stops }, out := t.out } ∧
      t.cox.reqs = clearOne m (stopPoint s m)
        (clearFigure s (stopPoint s m) (if m.origin.toNat = position s then 0 else fld s fReachUp)) s.cox.reqs)) ∧
  (∀ (s : State) (m : CoxMsg), isMaster s = false → exec (.resume m) s = .next { s with cox := { s.cox with
    stops := s.cox.stops.map fun x => if x.p = stopPoint s m then { x with figure := some m.value.toNat } else x } })

/-- Requests for Easy that are not a unit's own (R83, R93, R213, R231, R267): a throttle step that is due, the course
stretch of the board and a drifting receive buffer each ask for a sized Easy, and change nothing else; a throttle step
outside a course is taken at once, and one that is not due at the master is not taken. In TETHERED a drift asks for
none: it recentres in the wait for TCLK, and a second drift before that takes the port to TRAIN, as the model reads
R213 (notes/assumptions/89.md). -/
def Obligations.SizedRequests : Prop :=
  (∀ (s : State) (up : Bool) (x : HeatIn),
    (if up then fld s fThrLevel < 16 else (if isMaster s then throttleFloor s else 8) < fld s fThrLevel) →
    s.cox.throttle = none → (isMaster s = true → throttleDue up x s = true) →
    (inCourse s = true → s.cox.mode ≠ .tethered → Answers (.throttleRequest up x) s fun t =>
      t = { s with cox := { s.cox with throttle := some (up, gOf s + 64 + x.ahead.toNat), raised := t.cox.raised },
                   regs := t.regs } ∧
      (∀ a, a ≠ 0xB0054 → reg t a = reg s a) ∧ fld t fThrPending = 1 ∧ fld t fThrLevel = fld s fThrLevel ∧
      t.cox.raised = s.cox.raised ++ if isMaster s then [sizedReq s 4 0 (gOf s + 64 + x.ahead.toNat) 32] else []) ∧
    (inCourse s = false → s.cox.mode ≠ .tethered ∨ up = true ∨ s.cox.st ≠ .wait →
      Answers (.throttleRequest up x) s fun t =>
        fld t fThrLevel = (if up then fld s fThrLevel + 1 else fld s fThrLevel - 1) ∧
        OnlyLogged [] [0xB0054] { s with cox := { s.cox with lastStep := some (trcTime s) } } t)) ∧
  (∀ (s : State) (up : Bool) (x : HeatIn), isMaster s = true → throttleDue up x s = false →
    exec (.throttleRequest up x) s = .next s) ∧
  (∀ (s : State), isMaster s = true → fld s fStretch ≠ 0 → s.cox.mode ≠ .tethered → running s = true →
    let p := gOf s + 64
    p % s.cox.length = 0 → s.cox.lead = none → ((s.cox.reqs ++ s.cox.raised).any fun q => q.p == p && q.cause == 2) = false →
    exec .courseStretchAsk s = .next { s with cox := { s.cox with raised := s.cox.raised ++
      [sizedReq s 2 0 p (fld s fStretch)] } }) ∧
  (∀ (s : State) (n : DPort) (ahead : BitVec 10), inCourse s = true → (lnkPort s n.toNat).st = .active →
    let x := lnkPort s n.toNat
    let p := gOf s + 64 + ahead.toNat
    let r := { sizedReq s 2 n.toNat p 0 with kind := .tick (wall s + (p - gOf s) + 32) }
    let drifts := setLnk n.toNat { x with drift := 32 } s
    (s.cox.mode ≠ .tethered → bits (reg s (lnkA n.toNat + 0x80)) 30 2 = 1 → x.drift = 0 →
      exec (.bufferDrift n ahead) s = .next { drifts with cox := { s.cox with raised := s.cox.raised ++ [r] } }) ∧
    (s.cox.mode = .tethered → x.drift = 0 → exec (.bufferDrift n ahead) s = .next drifts) ∧
    (s.cox.mode = .tethered → x.drift ≠ 0 → Answers (.bufferDrift n ahead) s fun t => PortGoes s t n .train 9))

/-- SET_MODE (R204 to R207): a word that breaks R204 or a mode that R206 refuses answers `REFUSED_MODE` and changes no
mode; an accepted one waits for the boundary of R81 while a course runs, and takes effect at once otherwise. -/
def Obligations.SetModeTakesEffect : Prop :=
  ∀ (s : State) (m : MbxArgs), mbxFree s = true →
    (modeArg m.a0 = none ∨ s.cox.pend.isSome = true ∨
        (∃ x, modeArg m.a0 = some x ∧ modeSame x s = false ∧ modeRefused x s = true) →
      Answers (.setMode m) s fun t => fld t fMbxCode = ccRefusedMode ∧ t.cox = s.cox ∧ t.pins = s.pins ∧
        t.hif.busy = false) ∧
    (∀ x, modeArg m.a0 = some x → s.cox.pend = none → modeSame x s = false → modeRefused x s = false → s.ldr.stage ≠ 0 →
      (inCourse s = true → Answers (.setMode m) s fun t => fld t fMbxCode = ccDone ∧
        t.cox = { s.cox with pend := some { x with course := haltBefore s (raiseAt s) } } ∧ t.pins = s.pins ∧
        t.bank = s.bank ∧ t.deep = s.deep) ∧
      ((s.cox.st = .ready ∨ s.cox.st = .halted) → Answers (.setMode m) s fun t => fld t fMbxCode = ccDone ∧
        t.cox.mode = x.mode ∧ t.cox.lockstep = x.lockstep ∧ t.cox.fleetPins = x.fleetPins ∧ t.cox.pend = none ∧
        t.cox.st = s.cox.st ∧ t.bank = s.bank ∧ t.deep = s.deep ∧ t.slots = s.slots))

/-- Boards (R156, R229, R230, R235, R239): a measurement that passes every step, with every package's report agreeing
with the master's, forms the board with its reach and COX.WALL, and one that fails a step does not; the link timeout
leaves the board INCOMPLETE; MOVE_MASTER sends a formed board back to measuring under the new master; an expected port
that loses its signal trains again, and the board forms again, also where the port is another package's; a formed
board measures again for another package's sake, its expected ports with their 1,024 latency markers to send. -/
def Obligations.BoardsForm : Prop :=
  (∀ (s : State) (b : BoardMeas), s.cox.board = .measuring → inCourse s = false →
    let m := masterOf s
    let rs := allReports b m s
    let reach := reachOf rs (shape s).1 (shape s).2 m
    let ref := (rs.find? fun x => x.position.toNat == m).getD (ownReport b m s)
    let ok := decide (2 * reach ≤ 56) && (worstOf rs).all (fun w => latencyClass w.worstDelta.toNat != 3) &&
      rs.all fun x => x.courseLength == ref.courseLength && (fieldDiffers ref x rs.length).isNone && x.course == ref.course
    (ok = false → Answers (.boardFormed b) s fun t => t.cox.board = .failed ∧ t.bank = s.bank ∧ t.deep = s.deep ∧
      t.slots = s.slots) ∧
    (ok = true → s.cox.st = .ready → Answers (.boardFormed b) s fun t => t.cox.board = .formed ∧
      fld t fReachUp = reach ∧ fld t fReachDown = reach ∧ fld t fBoardMaster = m ∧
      wideReg t 0xB0018 = (if m = position s then wideReg s 0xB0018 else b.wall) ∧ t.bank = s.bank ∧
      t.deep = s.deep ∧ t.slots = s.slots)) ∧
  (∀ (s : State), (s.cox.board == .forming || s.cox.board == .measuring) = true → bits (reg s 0xB0088) 0 16 ≠ 0 →
    Answers .boardIncomplete s (OnlyLogged [] [] { s with cox := { s.cox with board := .incomplete } })) ∧
  (∀ (s : State) (m : MbxArgs), mbxFree s = true → s.pwr.boot = .up → s.cox.board = .formed → inCourse s = false →
    s.cox.st ≠ .wait → m.a0.toNat < 16 → fld s fBoardMaster ≠ m.a0.toNat →
    (header s).any (fun h => h.positions.getLsbD m.a0.toNat) = true →
    Answers (.moveMaster m) s fun t => t.cox = { s.cox with board := .measuring, moving := true } ∧
      fld t fBoardMaster = m.a0.toNat ∧ t.hif.busy = true ∧ SameDesign s t) ∧
  (∀ (s : State) (pos : BitVec 4) (n : DPort), s.cox.board = .formed →
    (pos.toNat = position s → portExpected s n.toNat = true → portActive s n.toNat = true →
      (lnkPort s n.toNat).st = .active →
      Answers (.linkLost ⟨pos, n⟩) s fun t => (lnkPort t n.toNat).st = .train ∧ t.cox.board = .forming ∧
        portActive t n.toNat = false ∧ t.bank = s.bank ∧ t.deep = s.deep ∧ t.slots = s.slots) ∧
    (pos.toNat ≠ position s → exec (.linkLost ⟨pos, n⟩) s = .next
      (if missingPorts s = 0 then toMeasuring s else { s with cox := { s.cox with board := .forming } }))) ∧
  (∀ (s : State) (b : BoardMeas), s.cox.board = .formed → inCourse s = false → s.cox.st ≠ .wait →
    Answers (.boardFormed b) s fun t => t.cox.board = .measuring ∧ SameDesign s t ∧
      (∀ n, n < 8 → portExpected s n = true → (lnkPort t n).markers = 1024) ∧
      fld t fBoardMaster = if onShape s b.master.toNat then b.master.toNat else fld s fBoardMaster)

/-- Bring-up of a Daxair port (R258, R260 to R264). DETECT: no far end keeps the port there, two bad lanes or a lost
clock lane are a FAULT, and anything else goes to TRAIN; a TRAIN block names its lane and the FIR setting it asks for,
and a lane order that fits neither way is a FAULT; an adaptation step moves the search of its lane on and shows the
figure of merit; BLOCK_LOCK goes to EXCHANGE; the timeouts go back to DETECT, TRAIN or FAULT. -/
def Obligations.LinkBringUp : Prop :=
  (∀ (s : State) (n : DPort) (opens shorts : BitVec 17) (clockOk : Bool), (lnkPort s n.toNat).st = .detect →
    let none_ := opens == BitVec.allOnes 17 && shorts == 0 && !clockOk
    let bad := popcount (opens ||| shorts)
    Answers (.detect n opens shorts clockOk) s fun t =>
      (none_ = true → PortGoes s t n .detect 1 ∧ fld t (fBadLanes n.toNat) = 0) ∧
      (none_ = false → badLanes t n.toNat = opens ||| shorts ∧
        (2 ≤ bad → PortGoes s t n .fault 2) ∧ (bad < 2 → clockOk = false → PortGoes s t n .fault 3) ∧
        (bad < 2 → clockOk = true → (lnkPort t n.toNat).st = .train ∧ (lnkPort t n.toNat).adapt = [] ∧
          SameStores s t))) ∧
  (∀ (s : State) (n : DPort) (lane : BitVec 5) (block : BitVec 64), (lnkPort s n.toNat).st = .train → lane.toNat < 17 →
    (isTrain block = false → isTrain (~~~block) = false → exec (.trainBlock n lane block) s = .next s) ∧
    let copy := decide (bits block 51 5 = fld s (fSpareFor n.toNat) ∧ (lane.toNat = 16 ∨ lane.toNat = 0))
    let seen := if copy then (lnkPort s n.toNat).laneMap
      else ins (lnkPort s n.toNat).laneMap lane.toNat (block.extractLsb' 51 5)
    (isTrain block = true → bits block 51 5 ≤ 16 → Answers (.trainBlock n lane block) s fun t =>
      (lnkPort t n.toNat).laneMap = seen ∧
      find (lnkPort t n.toNat).fir (bits block 51 5) = some (block.extractLsb' 47 4, block.extractLsb' 42 5) ∧
      bits (reg t (lnkA n.toNat + 0xC)) lane.toNat 1 = 0 ∧
      match laneOrder seen (badLanes s n.toNat) with
      | none => PortGoes s t n .fault 4
      | some rev => fld t (fReversed n.toNat) = rev.toNat ∧ (lnkPort t n.toNat).st ≠ .fault ∧ SameStores s t)) ∧
  (∀ (s : State) (n : DPort) (lane : BitVec 5) (h w : BitVec 8), (lnkPort s n.toNat).st = .train → lane.toNat < 17 →
    let p := laneSwap s n.toNat lane.toNat
    let a := look adaptNew (lnkPort s n.toNat).adapt p
    (badLanes s n.toNat).getLsbD p = false → a.phase ≠ 3 → Answers (.adaptStep n lane h w) s fun t =>
      look adaptNew (lnkPort t n.toNat).adapt p = adaptNext (flag s (fLnkTest n.toNat)) (fomOf h w) a ∧
      reg t (lnkA n.toNat + 0x20 + 4 * lane.toNat) = BitVec.ofNat 32 (fomOf h w * 2 ^ 24 + h.toNat * 2 ^ 16 +
        w.toNat * 2 ^ 8 + ctleUsed s (if flag s (fLnkTest n.toNat) then 8 else a.code) * 16) ∧
      SameStores s t) ∧
  (∀ (s : State) (n : DPort), (lnkPort s n.toNat).st = .lock →
    (Answers (.blockLock n) s fun t => (lnkPort t n.toNat).st = .exchange ∧ (lnkPort t n.toNat).exchTx = 0 ∧
      (lnkPort t n.toNat).exchRx = 0 ∧ SameDesign s t) ∧
    Answers (.lockTimeout n) s fun t => PortGoes s t n .train 6 ∧ (lnkPort t n.toNat).adapt = []) ∧
  (∀ (s : State) (n : DPort), (lnkPort s n.toNat).st = .exchange →
    Answers (.exchangeTimeout n) s fun t => PortGoes s t n .train 7 ∧ (lnkPort t n.toNat).adapt = []) ∧
  (∀ (s : State) (n : DPort), (lnkPort s n.toNat).st = .train → Answers (.trainTimeout n) s fun t =>
    if (lnkPort s n.toNat).trainTo < 2 then PortGoes s t n .detect (fld s (fLnkCause n.toNat)) ∧
        (lnkPort t n.toNat).trainTo = (lnkPort s n.toNat).trainTo + 1
    else PortGoes s t n .fault 5 ∧ (lnkPort t n.toNat).trainTo = 0) ∧
  (∀ (s : State) (n : DPort), (lnkPort s n.toNat).st = .fault → Answers (.faultRetry n) s fun t =>
    t = { s with lnk := t.lnk } ∧ ∀ k, lnkPort t k =
      if k = n.toNat then { lnkPort s k with st := .detect } else lnkPort s k)

/-- Frames (R249, R252, R254, R257, R262, R264 to R266), the block of lane 16 in the place of the lane that it stands
in for. A frame that cannot be accepted is discarded: nothing but the discard's own record and the count of outvoted
lanes changes. An accepted data frame in order advances the sequence; eight equal capability frames, with eight sent,
make the port ACTIVE, one of another version is a FAULT; ALIGN brings nothing; the sleep frames take an ACTIVE port to
SLEEP. -/
def Obligations.LinkFrames : Prop :=
  (∀ (s : State) (n : DPort) (f : RxFrame), framed s n.toNat = true → inCourse s = false →
    decodeFrame (lnkPort s n.toNat).scram (asFramed s n.toNat f) = none →
    ∀ c ∈ [Instr.dataFrame n f, .exchange n f, .align n f, .sleepReq n f, .sleepAck n f], Answers c s fun t =>
      (lnkPort t n.toNat).nak = true ∧ (lnkPort t n.toNat).dropNext = true ∧
      ctr t (lnkA n.toNat + 0x208) = min (2 ^ 48 - 1) (ctr s (lnkA n.toNat + 0x208) + 1) ∧
      ctr t (lnkA n.toNat + 0x218) = min (2 ^ 48 - 1) (ctr s (lnkA n.toNat + 0x218) + ((headerVote (asFramed s n.toNat f).hdrs).map (·.2)).getD 0) ∧
      OnlyLogged [lnkA n.toNat + 0x208, lnkA n.toNat + 0x218] [] { s with lnk := t.lnk } t) ∧
  (∀ (s : State) (n : DPort) (f : RxFrame) (r : RxDone), framed s n.toNat = true →
    decodeFrame (lnkPort s n.toNat).scram (asFramed s n.toNat f) = some r → (lnkPort s n.toNat).dropNext = false →
    let x := lnkPort s n.toNat
    let seq := r.body.extractLsb' 952 8
    let pk := (slotsOf r.body).filter fun y => slVn y != 0
    (r.ctl = false → x.st = .active → (pk.all slGood) = true →
      Answers (.dataFrame n f) s fun t => (lnkPort t n.toNat).rxSeq = (if seq = x.rxSeq + 1 then seq else x.rxSeq) ∧
        SameStores s t) ∧
    (r.ctl = true → ctlType r.body = 2 → x.st = .exchange → Answers (.exchange n f) s fun t =>
      reg t (lnkA n.toNat + 8) = (r.body.extractLsb' 921 31 ++ (1 : BitVec 1) : BitVec 32) ∧ SameStores s t ∧
      (bits r.body 944 8 ≠ 1 → PortGoes s t n .fault 8) ∧
      (bits r.body 944 8 = 1 → x.exchLast = some r.body → 7 ≤ x.exchRx →
        (lnkPort t n.toNat).st = (if 8 ≤ x.exchTx then .active else .exchange)) ∧
      (bits r.body 944 8 = 1 → x.exchLast ≠ some r.body → (lnkPort t n.toNat).st = .exchange ∧
        (lnkPort t n.toNat).exchRx = 1)) ∧
    (r.ctl = true → ctlType r.body = 3 → Answers (.align n f) s fun t => lnkPort t n.toNat = { x with scram := r.scram } ∧
      OnlyLogged [lnkA n.toNat + 0x218, lnkA n.toNat + 0x200] [] { s with lnk := t.lnk } t) ∧
    (r.ctl = true → ctlType r.body = 4 → x.st = .active → sleepAllowed s = true → Answers (.sleepReq n f) s fun t =>
      lnkPort t n.toNat =
        { x with scram := r.scram, ctlQ := x.ctlQ ++ [5], st := .sleep, sleeping := true, idle := 16 } ∧
      t.out = s.out ∧ SameDesign s t) ∧
    (r.ctl = true → ctlType r.body = 5 → x.st = .active → x.sleeping = true → Answers (.sleepAck n f) s fun t =>
      lnkPort t n.toNat = { x with scram := r.scram, st := .sleep, idle := 16 } ∧ t.out = s.out ∧ SameDesign s t))

/-- Sleep, wake, losses and controls of a port (R259, R262, R266, R268, R269, R272, R279). -/
def Obligations.LinkControls : Prop :=
  (∀ (s : State) (n : DPort), (lnkPort s n.toNat).st = .active →
    (sleepAllowed s = false → exec (.sleep n) s = .next s) ∧
    (lnkWritable s n = true → sleepAllowed s = true → Answers (.sleep n) s fun t =>
      lnkPort t n.toNat = { lnkPort s n.toNat with sleeping := true, ctlQ := (lnkPort s n.toNat).ctlQ ++ [4] } ∧
      t = { s with lnk := t.lnk }) ∧
    (s.pwr.entering = true → (lnkPort s n.toNat).sleeping = true → Answers (.sleepAckTimeout n) s fun t =>
      lnkPort t n.toNat = { LnkPort.off with sleeping := true } ∧ fld t (fDomLnk n.toNat) = 3 ∧
      t = { s with lnk := t.lnk, regs := t.regs, ctrs := t.ctrs, snaps := t.snaps } ∧
      (∀ a, a < lnkA n.toNat ∨ lnkA n.toNat + 0x10000 ≤ a → ctr t a = ctr s a ∧ (a ≠ 0x20008 → reg t a = reg s a)) ∧
      ∀ o, o < 0x10000 → ctr t (lnkA n.toNat + o) = 0 ∧
        (o ≠ 0x80 → reg t (lnkA n.toNat + o) = regReset (lnkA n.toNat + o))) ∧
    (∀ (lane : BitVec 5) (lost : Bool), lane.toNat < 17 ∨ lane = 31 → Answers (.laneSignalLoss n lane lost) s fun t =>
      (lnkPort t n.toNat).st = (if 2 ≤ popcount (badLanes t n.toNat) then .fault else .train) ∧ SameStores s t ∧
      (lane ≠ 31 → (badLanes t n.toNat).getLsbD (lanePin s n.toNat lane.toNat) = true)) ∧
    (∀ (lane : BitVec 5) (h w : BitVec 8), lane.toNat < 17 → Answers (.fomRefresh n lane h w) s fun t =>
      bits (reg t (lnkA n.toNat + 0x20 + 4 * lane.toNat)) 24 8 = fomOf h w ∧
      (lnkPort t n.toNat).warned.getLsbD lane.toNat =
        decide (fomOf h w < bits (reg s (lnkA n.toNat + 0x10)) 8 8) ∧
      OnlyLogged [] [lnkA n.toNat + 0x20 + 4 * lane.toNat] { s with lnk := t.lnk } t)) ∧
  (∀ (s : State) (n : DPort), (lnkPort s n.toNat).st = .sleep →
    (lnkWritable s n = true → Answers (.wake n) s fun t =>
      lnkPort t n.toNat = { lnkPort s n.toNat with st := .lock, idle := 0, wakes := 970, ctlQ := [] } ∧
      t = { s with lnk := t.lnk }) ∧
    (∀ (lane : BitVec 5) (block : BitVec 64), lane.toNat < 17 → Answers (.wakeBlock ⟨n, lane, block⟩) s fun t =>
      lnkPort t n.toNat = { lnkPort s n.toNat with st := .lock, idle := 0, wakes := 0, ctlQ := [] } ∧ SameDesign s t)) ∧
  (∀ (s : State) (n : DPort), lnkWritable s n = true →
    (lnkPort s n.toNat).st = .active ∨ (lnkPort s n.toNat).st = .fault → Answers (.retrain n) s fun t => PortGoes s t n .detect 11) ∧
  (∀ (s : State) (n : DPort) (on : Bool), lnkWritable s n = true → Answers (.test n on) s fun t =>
    fld t (fLnkTest n.toNat) = on.toNat ∧ SameStores s t ∧
    ((if on then (lnkPort s n.toNat).st ≠ .off ∧ (lnkPort s n.toNat).st ≠ .test
      else (lnkPort s n.toNat).st = .test ∨ (lnkPort s n.toNat).st = .train) → (lnkPort t n.toNat).st = .detect)) ∧
  (∀ (s : State) (n : DPort) (v : Word), lnkWritable s n = true →
    exec (.inject n v) s = .next (setReg (lnkA n.toNat + 0x104) (v &&& 0xFFFC0000) s))

/-- Entries that a channel's fetch performs at once (R287 to R290). A NOP completes `DONE`; BANK_RD and DEEP_RD bring
the data of sound codewords to the host buffer and change no memory; BANK_WR and DEEP_WR put the host's words under
new check bits into the codewords they name and into no other, a BANK_RD or BANK_WR waiting for a free cycle of its
bank (R176), a BANK_WR in Easy being held (R86), and one that meets a scheduled write waiting or, on bank 0 in that
write's cycle, ending `INTERNAL` (R177, R192); an entry that breaks a rule of R290 completes `BAD_ENTRY` with the
lowest detail, and has no effect. -/
def Obligations.ChannelEntries : Prop :=
  (∀ (s : State) (c : Chan) (f : FetchIn), fetches s c 0 f = true → Answers (.nopEntry c f) s fun t =>
    EntryTaken s t c (some (entryEnd s c f ccDone 0 0 0)) ∧ RegsBut peakRegs s t ∧
    t = { s with hif := t.hif, regs := t.regs }) ∧
  (∀ (s : State) (c : Chan) (f : FetchIn), fetchesMem s c 2 f = true →
    let p := enUnit f.entry
    let n := enLen f.entry / 8
    portState s p ≠ .dead → routeReconf s p = false → dieIsOn s (dieOf p) = true →
    (entryBusy s c.toNat f = true → exec (.bankRd c f) s = .next s) ∧
    (entryBusy s c.toNat f = false → (∀ j, j < n → bankRefuses s p (enDev f.entry + j) = none ∧
      (check72 (bankCw s (bankKey p (enDev f.entry + j)))).cls = .clean) →
    Answers (.bankRd c f) s fun t =>
      t.out = s.out ++ [.hostWrite (enHost f.entry) ((List.range n).map fun j =>
        BitVec.ofNat 64 (check72 (bankCw s (bankKey p (enDev f.entry + j)))).data)] ∧
      EntryTaken s t c (some (entryEnd s c f ccDone 0 (8 * n) 0)) ∧ RegsBut peakRegs s t ∧
      t = { s with hif := t.hif, regs := t.regs, out := t.out, fab := { s.fab with grants := t.fab.grants } })) ∧
  (∀ (s : State) (c : Chan) (f : FetchIn) (data : List (BitVec 64)) (same : Bool), fetchesMem s c 3 f = true →
    let p := enUnit f.entry
    let n := enLen f.entry / 8
    let code := if enNarrow f.entry then ccNarrowWrite else ccDone
    portState s p ≠ .dead → routeReconf s p = false → dieIsOn s (dieOf p) = true →
    (s.cox.st = .easy → Answers (.bankWr c f data same) s fun t => EntryTaken s t c none ∧ RegsBut peakRegs s t ∧
      t = { s with hif := t.hif, regs := t.regs } ∧ ∃ w, t.hif.parked = s.hif.parked ++ [w] ∧ w.pav.toNat = p % 128 ∧
        w.index = enDev f.entry ∧ w.words = hostWords n data) ∧
    (s.cox.st ≠ .easy → (∀ j, j < n → bankRefuses s p (enDev f.entry + j) = none) →
      clashAt s p n (enDev f.entry) = none → entryBusy s c.toNat f = false → Answers (.bankWr c f data same) s fun t =>
      (∀ k, bankCw t k = if bankKey p (enDev f.entry) ≤ k ∧ k < bankKey p (enDev f.entry) + n
        then encode72 (data.getD (k - bankKey p (enDev f.entry)) 0) else bankCw s k) ∧
      EntryTaken s t c (some (entryEnd s c f code 0 0 n)) ∧ RegsBut peakRegs s t ∧
      t = { s with hif := t.hif, regs := t.regs, bank := t.bank, fab := { s.fab with
        backs := t.fab.backs, bankPast := t.fab.bankPast, grants := t.fab.grants } }) ∧
    (∀ j, s.cox.st ≠ .easy → (∀ i, i < n → bankRefuses s p (enDev f.entry + i) = none) →
      clashAt s p n (enDev f.entry) = some j →
      (same = false ∨ 1024 ≤ enDev f.entry + j → exec (.bankWr c f data same) s = .next s) ∧
      (same = true → enDev f.entry + j < 1024 → entryBusy s c.toNat f = false → Answers (.bankWr c f data same) s fun t =>
        (∀ k, bankCw t k = if bankKey p (enDev f.entry) ≤ k ∧ k < bankKey p (enDev f.entry) + j
          then encode72 (data.getD (k - bankKey p (enDev f.entry)) 0) else bankCw s k) ∧
        EntryTaken s t c (some (entryEnd s c f ccInternal 4 0 j))))) ∧
  (∀ (s : State) (c : Chan) (f : FetchIn), fetchesMem s c 4 f = true →
    let d := enUnit f.entry
    let n := enLen f.entry / 32
    dieIsOn s d = true → enDev f.entry + n ≤ 2 ^ 29 →
    (∀ j, j < n → deepClass (checkDeep (deepCw s (deepKey d (enDev f.entry + j)))) = .clean) →
    Answers (.deepRd c f 0) s fun t =>
      t.out = s.out ++ [.hostWrite (enHost f.entry) ((List.range n).flatMap fun j => splitWords (BitVec.ofNat 256
        (deepData (checkDeep (deepCw s (deepKey d (enDev f.entry + j)))))) 4)] ∧
      EntryTaken s t c (some (entryEnd s c f ccDone 0 (8 * (4 * n)) 0)) ∧ RegsBut peakRegs s t ∧
      t = { s with hif := t.hif, regs := t.regs, out := t.out }) ∧
  (∀ (s : State) (c : Chan) (f : FetchIn) (data : List (BitVec 64)), fetchesMem s c 5 f = true →
    let d := enUnit f.entry
    let n := enLen f.entry / 32
    let at_ := deepKey d (enDev f.entry)
    dieIsOn s d = true → enDev f.entry + n ≤ 2 ^ 29 → Answers (.deepWr c f data) s fun t =>
      (∀ k, deepCw t k = if at_ ≤ k ∧ k < at_ + n
        then encodeDeep (joinWords 256 ((List.range 4).map fun i => data.getD (4 * (k - at_) + i) 0)) else deepCw s k) ∧
      EntryTaken s t c (some (entryEnd s c f (if enNarrow f.entry then ccNarrowWrite else ccDone) 0 0 n)) ∧
      RegsBut peakRegs s t ∧
      t = { s with hif := t.hif, regs := t.regs, deep := t.deep, fab := { s.fab with backs := t.fab.backs } }) ∧
  (∀ (s : State) (c : Chan) (f : FetchIn) (data : List (BitVec 64)) (d : Nat) (same : Bool),
    (canServe s c.toNat && f.bus == 0 && (classOf s c.toNat == 3 || !dataStopped s)) = true →
    entryFault s c.toNat f.entry = some d → furtherOf s c.toNat f.entry = none →
    ∀ x ∈ [(0, Instr.nopEntry c f), (2, .bankRd c f), (3, .bankWr c f data same), (4, .deepRd c f 0), (5, .deepWr c f data)],
      entryIs x.1 f.entry = true → Answers x.2 s fun t =>
        EntryTaken s t c (some (entryEnd s c f ccBadEntry d 0 0)) ∧
        ctr t 0xA0060 = min (2 ^ 48 - 1) (ctr s 0xA0060 + 1) ∧ SameDesign s t ∧ t.out = s.out ∧ t.dsp = s.dsp)

/-- SEND_MSG (R289, R292, R294, R296, R331, R335). A fragment of a message that has ended is taken with no effect. On
a channel of class BULK or BACKGROUND the first fragment of a message for a bound port enters the matching store, or
the channel waits where the store has no room; a TIMED message that nothing refuses is promised its course, claims a
credit, and is answered `ACCEPTED`; for a port that another channel has, it is refused `PORT_CLOSED`. -/
def Obligations.SendMsgEnters : Prop :=
  (∀ (s : State) (c : Chan) (f : FetchIn), fetches s c 1 f = true → restFound s c.toNat f.entry = none → noRoom s c.toNat f.entry = true →
    Answers (.sendMsg c f) s fun t =>
      chan t c.toNat = { chan s c.toNat with bpD := true } ∧ t = { s with hif := t.hif }) ∧
  (∀ (s : State) (c : Chan) (f : FetchIn) (r : Rest), fetches s c 1 f = true → restFound s c.toNat f.entry = some r →
    Answers (.sendMsg c f) s fun t => EntryTaken s t c none ∧ t = { s with hif := t.hif, dsp := { s.dsp with
      dropped := t.dsp.dropped } }) ∧
  ∀ (s : State) (c : Chan) (f : FetchIn), fetches s c 1 f = true →
    restFound s c.toNat f.entry = none → furtherOf s c.toNat f.entry = none →
    let m := { newMsg s c.toNat f with sqHead := headAfter s c }
    let p := enUnit f.entry
    let k := msgKey m
    (noRoom s c.toNat f.entry = false → replaying s = false → (find s.dsp.bind p).map (·.toNat) = some c.toNat →
      s.dsp.deadPav.contains (pePav (portEntry s p)) = false → tooLong s m = false →
      (classOf s c.toNat ≠ 0 → Answers (.sendMsg c f) s fun t => t.dsp.msgs = s.dsp.msgs ++ [m] ∧
        t.dsp = { s.dsp with msgs := t.dsp.msgs, nextOrd := s.dsp.nextOrd + 1 } ∧ EntryTaken s t c none ∧
        RegsBut peakRegs s t ∧ t = { s with hif := t.hif, regs := t.regs, dsp := t.dsp }) ∧
      (classOf s c.toNat = 0 → timedRefused s m (course s + timedLead s) = none → storeUsed s < 16384 →
        slotsTaken s < 128 → Answers (.sendMsg c f) s fun t =>
          t.dsp.msgs = s.dsp.msgs ++
            [{ m with promise := some (course s + timedLead s), claimed := true, ready := true }] ∧
          t.dsp.readyT = s.dsp.readyT ++ [m.order] ∧ unclaimed t k = unclaimed s k - 1 ∧
          t.hif.admits = s.hif.admits ++ [(m.chan, m.port, m.inst, course s + timedLead s)] ∧
          EntryTaken s t c (some { entryEnd s c f ccAccepted 0 0 0 with
            final := false, course := BitVec.ofNat 64 (course s + timedLead s) }) ∧ SameDesign s t)) ∧
    (noRoom s c.toNat f.entry = false → replaying s = false → (find s.dsp.bind p).map (·.toNat) ≠ some c.toNat →
      Answers (.sendMsg c f) s fun t => EntryTaken s t c (some (entryEnd s c f ccPortClosed 0 0 0)) ∧
        t.dsp.msgs = s.dsp.msgs ∧ SameDesign s t)

/-- The registers of a channel (R285, R286, R291, R300, R303, R322), as a function that owns the page sees them; any
other function changes nothing. -/
def Obligations.ChannelRegisters : Prop :=
  (∀ (s : State) (c : Chan) (fn : Fn), (hostUp s && ownsPage s fn.toNat c.toNat) = false →
    ∀ (v : BitVec 16) (w : Word), ∀ x ∈ [Instr.sqTail c fn v, .cqHead c fn v, .abort c fn v, .channelEnable c fn w,
      .channelDisable c fn], exec x s = .next s) ∧
  (∀ (s : State) (c : Chan) (fn : Fn), (hostUp s && ownsPage s fn.toNat c.toNat) = true →
    let n := c.toNat
    (∀ (v : BitVec 16),
      (exec (.sqTail c fn v) s = .next (setReg (chnA n) (BitVec.ofNat 32 (v.toNat % sqSize s n)) s)) ∧
      (exec (.cqHead c fn v) s = .next (setReg (chnA n + 4) (BitVec.ofNat 32 (v.toNat % cqSize s n)) s))) ∧
    (∀ (v : Word), (chan s n).st = .disabled →
      (cfgOk s n v = true → Answers (.channelEnable c fn v) s fun t =>
        chan t n = { ChanSt.off with st := .active } ∧ reg t (chnA n) = 0 ∧ reg t (chnA n + 4) = 0 ∧
        reg t (chnA n + 0x20) = v &&& 0x9F1F07FF ∧ RegsBut [chnA n, chnA n + 4, chnA n + 0x20] s t ∧
        t = { s with regs := t.regs, hif := { s.hif with chans := t.hif.chans } }) ∧
      (cfgOk s n v = false → Answers (.channelEnable c fn v) s fun t =>
        chan t n = { chan s n with st := .error, err := 3 } ∧
        t = { s with regs := t.regs, hif := { s.hif with chans := t.hif.chans } })) ∧
    (∀ (v : Word), (chan s n).st = .active ∨ (chan s n).st = .draining →
      exec (.channelEnable c fn v) s = .next (setReg (chnA n + 0x20) (v &&& 0x9F1F07FF) s)) ∧
    (∀ (v : Word), (chan s n).st = .error → exec (.channelEnable c fn v) s = .next s) ∧
    ((chan s n).st = .active → Answers (.channelDisable c fn) s fun t =>
      (chan t n).st = (if (chan s n).held.isEmpty && (tagsOf s n).isEmpty then .disabled else .draining) ∧
      reg t (chnA n + 0x20) = reg s (chnA n + 0x20) &&& 0x1F1F07FF ∧
      t = { s with regs := t.regs, hif := { s.hif with chans := t.hif.chans },
                   dsp := { s.dsp with dropped := t.dsp.dropped } } ∧
      ((chan t n).st = .draining → t.dsp = s.dsp)) ∧
    (∀ (tag : BitVec 16), (chan s n).st = .active →
      (s.dsp.msgs.find? fun m => m.chan.toNat == n && m.replay.isNone && m.tag == tag) = none →
      (s.hif.parked.find? fun w => w.chan.toNat == n && w.done.tag == tag) = none →
      Answers (.abort c fn tag) s fun t => (chan t n).held = (chan s n).held ++
          [{ entryOf tag ccAbortTooLate 1 (chan s n).sqHead 0 false with abortF := true }] ∧
        ctr t 0xA0058 = min (2 ^ 48 - 1) (ctr s 0xA0058 + 1) ∧ t.dsp = s.dsp ∧ SameDesign s t) ∧
    (∀ (tag : BitVec 16) (m : Msg), (chan s n).st = .active → m.stage = 0 →
      (s.dsp.msgs.find? fun m => m.chan.toNat == n && m.replay.isNone && m.tag == tag) = some m →
      Answers (.abort c fn tag) s fun t => t.dsp.msgs = s.dsp.msgs.filter (·.order != m.order) ∧
        unclaimed t (msgKey m) = (if m.claimed then unclaimed s (msgKey m) + 1 else unclaimed s (msgKey m)) ∧
        SameDesign s t)) ∧
  (∀ (s : State) (v : Word), hostUp s = true →
    (ownRefused s (chSel s) v = true → exec (.chOwn v) s = .next (setFlag ⟨0xA0000, 31, 1⟩ true s)) ∧
    (ownRefused s (chSel s) v = false → Answers (.chOwn v) s fun t => ownOf t (chSel s) = v &&& 0xFFF0FF00 ∧
      (∀ k, k ≠ chSel s → ownOf t k = ownOf s k) ∧ t = { s with hif := { s.hif with owner := t.hif.owner } }) ∧
    (inCourse s = true → exec (.chBudget v) s = .next { s with hif := { s.hif with
      budNext := s.hif.budNext ++ [(BitVec.ofNat 13 (chSel s), v.setWidth 13)] } }) ∧
    (inCourse s = false → Answers (.chBudget v) s fun t => look 0 t.hif.budget (chSel s) = v.setWidth 13 ∧
      (∀ k, k ≠ chSel s → look 0 t.hif.budget k = look 0 s.hif.budget k) ∧
      t = { s with hif := { s.hif with budget := t.hif.budget } }))

/-- COMPLETION_WRITE (R291) writes the oldest completion of a channel as a 32-byte entry at the tail of its ring,
where that has room, with the message of an entry that asked for one, and moves the tail and at a wrap the phase; a
ring that cannot be accessed is an ERROR of the channel (R303). The functions: a reset and D3cold disable every
channel of the function with nothing written; D3hot holds completions, and D0 lets them go (R303); the return or
D3cold of PF0 releases WAKE# (R467). -/
def Obligations.CompletionsAndFunctions : Prop :=
  (∀ (s : State) (c : Chan) (e : Completion) (es : List Completion),
    let n := c.toNat
    let x := chan s n
    let tail := (x.cqTail.toNat + 1) % cqSize s n
    x.held = e :: es → (hostUp s && (x.st == .active || x.st == .draining)) = true →
    (s.hif.d3.getLsbD (fnOf s n) = true ∨ ringRoom s n = false → exec (.completionWrite c false) s = .next s) ∧
    (s.hif.d3.getLsbD (fnOf s n) = false → ringRoom s n = true →
      (Answers (.completionWrite c false) s fun t =>
        t.out = s.out ++ .completion (BitVec.ofNat 13 n) (cqAddr s n) (completionWords x.phase e) ::
          (if e.irq && e.final && !msixMasked s (fnOf s n) (chnVector s n).toNat then
            [.msix (BitVec.ofNat 5 (fnOf s n)) (chnVector s n)] else []) ∧
        t.hif.msix = (if e.irq && e.final && msixMasked s (fnOf s n) (chnVector s n).toNat then
          putBit s.hif.msix (msixIndex (fnOf s n) (chnVector s n).toNat) true else s.hif.msix) ∧
        (chan t n).cqTail = BitVec.ofNat 16 tail ∧ (chan t n).phase = (x.phase ^^ (tail == 0)) ∧ (chan t n).held = es ∧
        (∀ k, k ≠ n → chan t k = chan s k) ∧
        t = { s with hif := { s.hif with chans := t.hif.chans, msix := t.hif.msix }, out := t.out,
                     dsp := if x.st = .draining ∧ (chan t n).st = .disabled then (forgetRests n s).dsp else s.dsp }) ∧
      Answers (.completionWrite c true) s fun t => (chan t n).st = .error ∧ (chan t n).err = 2 ∧ (chan t n).held = [] ∧
        t.out = s.out ∧ SameDesign s t)) ∧
  (∀ (s : State) (fn : Fn), hostUp s = true → Answers (.functionLevelReset fn) s fun t =>
    (∀ c ∈ chansOf s fn.toNat, (chan t c).st = .disabled ∧ (chan t c).held = []) ∧ t.out = s.out ∧ SameDesign s t) ∧
  (∀ (s : State) (fn : Fn), hostUp s = true →
    (exec (.d3hotEntry fn) s = .next { s with hif := { s.hif with d3 := putBit s.hif.d3 fn.toNat true } }) ∧
    (exec (.d0Return fn) s = .next { s with hif := { s.hif with d3 := putBit s.hif.d3 fn.toNat false }, pwr := wakePinOff s fn }) ∧
    Answers (.d3coldEntry fn) s fun t => t.hif.d3 = putBit s.hif.d3 fn.toNat true ∧ t.out = s.out ∧ t.pwr = wakePinOff s fn ∧
      (∀ c ∈ chansOf s fn.toNat, (chan t c).st = .disabled ∧ (chan t c).held = []) ∧ SameDesign s t)

/-- The mailbox (R304, R305). A command written while it is busy is ignored and counted; a reserved code completes
`INTERNAL` with detail 0x10 and no effect; MBX_COMPLETE shows the result of a long command, frees the mailbox and
signals PF0 vector 0 where the command asked for it. -/
def Obligations.MailboxProtocol : Prop :=
  (∀ (s : State) (m : MbxArgs) (tok : Option TokenIn) (faults : List FaultRec) (b : BistIn),
    mbxOpen s = true → s.hif.busy = true →
    ∀ x ∈ [Instr.setMode m, .moveMaster m, .release m, .installToken m tok, .loadFull m, .loadPartial m, .rollback m,
        .march m faults, .bist m b, .fuseRepair m, .scrubFull m], Answers x s fun t =>
      ctr t 0x10040 = min (2 ^ 48 - 1) (ctr s 0x10040 + 1) ∧ OnlyLogged [0x10040] [] s t) ∧
  (∀ (s : State) (m : MbxArgs) (code : BitVec 8), mbxFree s = true → mbxCodes.contains code.toNat = false →
    Answers (.reservedCommand m code) s fun t => MbxDone t ccInternal 0x100000 ∧ t.cox = s.cox ∧ t.ldr = s.ldr ∧
      SameDesign s t) ∧
  (∀ (s : State) (r : MbxRes), s.hif.busy = true → s.hif.due = some r → Answers .mbxComplete s fun t =>
    fld t fMbxCode = r.code.toNat ∧ reg t 0x10030 = r.r0 ∧ reg t 0x10034 = r.r1 ∧ reg t 0x10038 = r.r2 ∧
    reg t 0x1003C = r.r3 ∧ t.out = (if s.hif.irq && !msixMasked s 0 0 then s.out ++ [.msix 0 0] else s.out) ∧
    t.hif.msix = (if s.hif.irq && msixMasked s 0 0 then putBit s.hif.msix 0 true else s.hif.msix) ∧
    OnlyLogged [] [0x10004, 0x10030, 0x10034, 0x10038, 0x1003C]
      { s with hif := { s.hif with busy := false, irq := false, due := none, msix := t.hif.msix },
               out := t.out } t)

/-- RELEASE and INSTALL_TOKEN (R355, R357, R380). A release schedules the stages its action names, of the base image
or of a loaded region, and its commit bits raise the anti-rollback floors; without an image it is `NOT_RUNNING`. A
token that passes every check is installed with its rights, one that does not leaves the installed token, and the zero
address removes it. -/
def Obligations.ReleaseAndTokens : Prop :=
  (∀ (s : State) (m : MbxArgs), mbxFree s = true → releaseArgOk m.a0 = true →
    let a := bits m.a0 0 3
    let r := bits m.a0 9 6
    (m.a0.getLsbD 8 = false → a = 0 ∨ (image s).isSome = true → Answers (.release m) s fun t =>
      t.ldr = { s.ldr with target := nextTarget a s.ldr.target } ∧ MbxDone t ccDone (nextTarget a s.ldr.target) ∧
      (∀ i, image s = some i → t.fuses.dsFloor =
        if m.a0.getLsbD 16 then laterVer s.fuses.dsFloor i.man.version else s.fuses.dsFloor) ∧
      t.fuses.shFloor = (if m.a0.getLsbD 17 then laterVer s.fuses.shFloor s.ldr.shVer else s.fuses.shFloor) ∧
      t.fuses.fwFloor = (if m.a0.getLsbD 18 then laterVer s.fuses.fwFloor s.ldr.fwVer else s.fuses.fwFloor) ∧
      t.cox = s.cox ∧ SameDesign s t) ∧
    (m.a0.getLsbD 8 = false → a ≠ 0 → image s = none → Answers (.release m) s fun t => MbxDone t ccNotRunning 0 ∧
      t.ldr = s.ldr ∧ t.fuses = s.fuses) ∧
    (m.a0.getLsbD 8 = true → ((image s).isSome && ((regionRec s r).partial_ || (regionRec s r).since.isSome) && !(regionRec s r).dead) = true →
      Answers (.release m) s fun t => (find t.ldr.regions r).map (·.target) =
          some (nextTarget a (regionRec s r).target) ∧
        (∀ q, q ≠ r → find t.ldr.regions q = find s.ldr.regions q) ∧
        MbxDone t ccDone (nextTarget a (regionRec s r).target) ∧ t.cox = s.cox ∧ SameDesign s t)) ∧
  (∀ (s : State) (m : MbxArgs) (tok : TokenIn), mbxFree s = true →
    (m.a0 = 0 → m.a1 = 0 → Answers (.installToken m none) s fun t => t.ldr = { s.ldr with token := none } ∧
      MbxDone t ccDone 0 ∧ SameDesign s t) ∧
    ((m.a0 ≠ 0 ∨ m.a1 ≠ 0) → tokenDetail s tok = 0 → Answers (.installToken m (some tok)) s fun t =>
      t.ldr = { s.ldr with token := some (tok.rights.extractLsb' 0 2) } ∧ MbxDone t ccDone 0 ∧ SameDesign s t) ∧
    ((m.a0 ≠ 0 ∨ m.a1 ≠ 0) → tokenDetail s tok ≠ 0 → Answers (.installToken m (some tok)) s fun t =>
      t.ldr = s.ldr ∧ MbxDone t ccSigFail (tokenDetail s tok * 2 ^ 16) ∧ SameDesign s t))

/-- POWER_DOMAIN (R130, R464, R465). PACKAGE_STATE accepts an entry, and halts a run for it; a die that the image uses
stays, another goes down with its domains off; a die that comes up has them on, one that does not is DEAD with
`WAKE_TIMEOUT`; a port goes down with its domain off, and comes up in OFF, which it leaves for DETECT once start-up
has opened the links. -/
def Obligations.PowerDomains : Prop :=
  ∀ (s : State) (m : MbxArgs), mbxFree s = true → powerArgOk m.a0 = true →
    let op := bits m.a0 0 3
    let d := bits m.a0 8 2
    let n := bits m.a0 12 3
    let e : Entry := { target := argState m.a0, resume := m.a0.getLsbD 16, tclkWake := m.a0.getLsbD 17 }
    (op = 0 → (m.a0.getLsbD 17 = false ∨ (argState m.a0 = .p2 ∧ s.cox.mode = .tethered)) → argState m.a0 ≠ s.pwr.st →
      argState m.a0 ≠ .p0 → s.pwr.entry = none → s.pwr.entering = false →
      (s.cox.board = .formed ∨ s.cox.board = .none) → s.cox.st ≠ .wait → Answers (.packageState m) s fun t =>
        t.pwr.entry = some e ∧ fld t fMbxCode = ccDone ∧ SameDesign s t ∧ (inCourse s = true → haltRaised s t 1) ∧
        (inCourse s = false → t.cox = s.cox)) ∧
    (op = 1 → ((pavsOfDie d).any fun p => usedPav s p || portState s p == .reconf) = true →
      Answers (.dieDown m) s fun t => MbxDone t ccBusyInUse 0 ∧ t.pwr.dieOff = s.pwr.dieOff ∧ t.net = s.net) ∧
    (op = 1 → ((pavsOfDie d).any fun p => usedPav s p || portState s p == .reconf) = false →
      Answers (.dieDown m) s fun t => MbxDone t ccDone 0 ∧ fld t (fDomDie d) = 3 ∧ fld t (fDomStore d) = 3 ∧
        t.pwr.dieOff.getLsbD d = true ∧ (∀ p ∈ pavsOfDie d, enabled s p = true → portState t p = .down) ∧
        SameDesign s t) ∧
    (op = 2 → s.hlt.clocksBad = false → dieIsOn s d = false →
      (Answers (.dieUp m true) s fun t => MbxDone t ccDone 0 ∧ dieIsOn t d = true ∧ t.pwr.dieOff.getLsbD d = false ∧
        SameDesign s t) ∧
      Answers (.dieUp m false) s fun t => MbxDone t ccWakeTimeout 0 ∧ t.pwr.dieDead.getLsbD d = true ∧
        (∀ p ∈ pavsOfDie d, portState t p = .dead) ∧ SameDesign s t) ∧
    (op = 3 → (portExpected s n && s.cox.board != .none) = false → Answers (.portDown m) s fun t =>
      MbxDone t ccDone 0 ∧ fld t (fDomLnk n) = 3 ∧ (lnkPort t n).st = .off ∧ SameDesign s t) ∧
    (op = 4 → fld s (fDomLnk n) = 3 → Answers (.portUp m) s fun t =>
      MbxDone t ccDone 0 ∧ fld t (fDomLnk n) = 0 ∧ (lnkPort t n).st = (if s.pwr.linksOpen then .detect else .off) ∧ SameDesign s t)

/-- The load commands (R368 to R370): one that nothing bars begins pass A of the job it names and takes nothing away
yet; one whose words break the rules, or that finds the loader barred, has no effect but its refusal. -/
def Obligations.LoadCommands : Prop :=
  ∀ (s : State) (m : MbxArgs), mbxFree s = true →
    let host := bits m.a0 0 4 == 1
    let object := bits m.a0 8 2
    let r := bits m.a0 12 6
    let regional := m.a0.getLsbD 7
    let rr := bits m.a0 0 6
    let entry : Option DirEntry := if regional then rollbackEntry s rr else dirEntry s rolePrevious 0
    (loadArgsOk false m = true → object = 0 ∨ (m.a0.getLsbD 10 = true ∧ s.cox.mode = .service) →
      (loadBars host (dirEntry s (objectRole object) 0) s = none → Answers (.loadFull m) s fun t =>
        LoadBegun s t (hostJob 1 host object (m.a0.getLsbD 10) (m.a0.getLsbD 11) 0 false
          (if host then 0 else objectRole object))) ∧
      (∀ c d, loadBars host (dirEntry s (objectRole object) 0) s = some (c, d) → Answers (.loadFull m) s fun t =>
        MbxWaits t c ∧ t.ldr = s.ldr ∧ t.cox = s.cox ∧ SameDesign s t)) ∧
    (loadArgsOk false m = false → Answers (.loadFull m) s fun t => MbxWaits t ccInternal ∧ t.ldr = s.ldr ∧
      t.cox = s.cox ∧ SameDesign s t) ∧
    (loadArgsOk true m = true → s.ldr.stage ≠ 0 → declared s r = true → loadBars host (dirEntry s rolePartial r) s = none →
      Answers (.loadPartial m) s fun t => LoadBegun s t (hostJob 2 host 0 (m.a0.getLsbD 10) (m.a0.getLsbD 11) r true
        (if host then 0 else rolePartial))) ∧
    (loadArgsOk true m = true → s.ldr.stage ≠ 0 → declared s r = false → Answers (.loadPartial m) s fun t =>
      MbxWaits t ccOutOfRegion ∧ t.ldr = s.ldr ∧ SameDesign s t) ∧
    (m.a0 &&& 0xFFFFFE40 = 0 → (regional = false ∨ declared s rr = true) → loadBars false entry s = none →
      Answers (.rollback m) s fun t => LoadBegun s t
        (hostJob 3 false 0 false (m.a0.getLsbD 8) (if regional then rr else 0) regional
          (entry.elim 0 fun e => e.role.toNat)) ∧ (s.scb.st = .failed → t.scb.st = .idle))

/-- MARCH, BIST, FUSE_REPAIR and SCRUB_FULL (R191, R404, R525, R527, R528). Each but a preserving MARCH and a scrub
drops the image; MARCH reports the faults it finds and leaves the banks it tested off; BIST reports the slices that
fail, in HLT.POST too; FUSE_REPAIR blows the soft records; a scrub begins with its configuration pass. While the
controller runs, the first three are `BUSY_IN_USE`. -/
def Obligations.TestAndRepairCommands : Prop :=
  ∀ (s : State) (m : MbxArgs), mbxFree s = true →
    (∀ (faults : List FaultRec), marchArgsOk m = true → controllerBusy s = false → Answers (.march m faults) s fun t =>
      MbxWaits t ccDone ∧ (t.hif.due.map (·.r0)) = some (BitVec.ofNat 32 (faults.filter (marched m s)).length) ∧
      (m.a0.getLsbD 4 = false → ImageDropped t ∧ (m.a0.getLsbD 10 = true → ∀ p k, p < 128 → k < 64 →
        marchPav m s p = true → bankState t p k = 2)) ∧ (m.a0.getLsbD 4 = true → t.ldr.image = s.ldr.image ∧ SameDesign s t)) ∧
    (∀ (b : BistIn), controllerBusy s = false → Answers (.bist m b) s fun t =>
      MbxWaits t ccDone ∧ (t.hif.due.map (·.r0)) = some (m.a0 &&& b.failed &&& ~~~b.late) ∧ ImageDropped t ∧
      ∀ k, k < 32 → m.a0.getLsbD k = true →
        (b.late.getLsbD k = true → fld t (fPost k) = 4) ∧
        (b.late.getLsbD k = false → b.failed.getLsbD k = false → fld t (fPost k) = 1) ∧
        (b.late.getLsbD k = false → b.failed.getLsbD k = true → fld t (fPost k) = 3 ∨
          (fld t (fPost k) = 2 ∧ repairSlice k ≠ none))) ∧
    (m.a0 &&& 0xFFFFFFFE = 0 → s.cox.mode = .service → controllerBusy s = false → railBad s = false →
      s.fuses.repairs.length + s.hlt.soft.length ≤ 2048 → Answers (.fuseRepair m) s fun t => MbxWaits t ccDone ∧
        ImageDropped t ∧ t.fuses.repairs = s.fuses.repairs ++ s.hlt.soft ∧ t.hlt.soft = []) ∧
    (∀ b : BistIn, controllerBusy s = true → ∀ x ∈ [Instr.bist m b, .march { m with a0 := 0x100, a1 := 0, a2 := 0, a3 := 0 } []],
      Answers x s fun t => MbxWaits t ccBusyInUse ∧ t.ldr = s.ldr ∧ t.cox = s.cox ∧ SameDesign s t) ∧
    (fullArgsOk m = true → Answers (.scrubFull m) s fun t => t.hif.busy = true ∧
      t.scb.full = some { step := 1, pos := 0, fixed := 0, care := 0, dc := 0,
                          rec_ := m.a0.getLsbD 0 && s.scb.st == .needHost, memory := m.a0.getLsbD 1 } ∧
      t.scb.st = (if m.a0.getLsbD 0 && s.scb.st == .needHost then .read else s.scb.st) ∧ SameDesign s t)

/-- The responder of PF0's DOE mailbox (R306, R307, R356). Outside P0 or P1 with the Keeper up nothing answers.
Discovery names itself and SPDM; an SPDM connection goes VERSION, CAPABILITIES, ALGORITHMS (P-384 and SHA-384 alone),
and only then answers for digests, slot 0's certificates, a signed challenge and measurements, blocks 1 to 4 being the
digests of the boot ROM, the firmware's and the shell's manifests and the released design's; the report of block 0x10
takes one LMS leaf, with a fuse blown before each 512th and the next leaf recorded, and shows the requester's nonce.
The response codes are those that the log presumes (21). -/
def Obligations.IdentityResponder : Prop :=
  (∀ (s : State) (x y : BitVec 8) (a b : BitVec 32) (o l : BitVec 16) (g : Bool) (n : BitVec 256), doeUp s = false →
    ∀ c ∈ [Instr.doeDiscovery x, .getVersion, .getCapabilities, .negotiateAlgorithms a b, .getDigests,
      .getCertificate x o l, .challenge y n, .getMeasurements x g n], exec c s = .next s) ∧
  (∀ (s : State), doeUp s = true →
    let k := keeperUp s
    let answer := fun (code : BitVec 8) (fs : List (BitVec 64)) (ecdsa : Bool) =>
      { k with out := k.out ++ [.doe code fs ecdsa none] }
    let goes := fun (n : BitVec 2) (code : BitVec 8) (fs : List (BitVec 64)) =>
      { k with out := k.out ++ [.doe code fs false none], hif := { k.hif with spdm := n } }
    (∀ (x : BitVec 8), exec (.doeDiscovery x) s =
      .next (answer 0 (if x = 0 then [1, 0, 1] else if x = 1 then [1, 1, 0] else [0xFFFF, 0, 0]) false)) ∧
    (exec .getVersion s = .next (goes 1 0x04 [0x12])) ∧
    (s.hif.spdm = 1 → exec .getCapabilities s = .next (goes 2 0x61 [0x16])) ∧
    (s.hif.spdm = 2 → ∀ (a b : BitVec 32),
      exec (.negotiateAlgorithms a b) s =
        .next (if a.getLsbD 7 && b.getLsbD 1 then goes 3 0x63 [0x80, 2] else answer 0x7F [1] false)) ∧
    (s.hif.spdm = 3 → ∀ (slot index : BitVec 8) (o l : BitVec 16) (g : Bool) (n : BitVec 256),
      (exec .getDigests s = .next (answer 0x01 [1] false)) ∧
      (exec (.getCertificate slot o l) s =
        .next (if slot = 0 then answer 0x02 [0, o.setWidth 64, l.setWidth 64] false else answer 0x7F [1] false)) ∧
      (exec (.challenge slot n) s = .next (if slot = 0 then answer 0x03 (splitWords n 4) true else answer 0x7F [1] false)) ∧
      (exec (.getMeasurements 0 g n) s = .next (answer 0x60 [6] g)) ∧
      (exec (.getMeasurements 1 g n) s = .next (answer 0x60 (splitWords Config.bootRomDigest 6) g)) ∧
      (exec (.getMeasurements 2 g n) s = .next (answer 0x60 (splitWords s.ldr.fwDig 6) g)) ∧
      (exec (.getMeasurements 3 g n) s = .next (answer 0x60 (splitWords s.ldr.shDig 6) g)) ∧
      (exec (.getMeasurements 4 g n) s = .next (answer 0x60 (splitWords (digest s 4) 6) g)) ∧
      (s.ldr.stage = 0 → digest s 4 = 0) ∧ (∀ i, s.ldr.stage ≠ 0 → s.ldr.image = some i → digest s 4 = i.man.digest) ∧
      (5 < index.toNat → index.toNat ≠ 0x10 → index.toNat ≠ 0xFF →
        exec (.getMeasurements index g n) s = .next (answer 0x7F [1] false)) ∧
      (fld s fExhausted = 0 → ∀ m ∈ [(0x10 : BitVec 8), 0xFF], Answers (.getMeasurements m g n) s fun t =>
        let leaf := fld s fLeaf
        (∃ fs, t.out = s.out ++ [.doe 0x60 (fs ++ splitWords n 4) g (some (BitVec.ofNat 16 leaf))]) ∧
        (reg t 0x40054 = if leaf + 1 < 32768 then BitVec.ofNat 32 (leaf + 1) else 0x80008000) ∧
        (t.fuses.lms = if leaf % 512 = 0 then s.fuses.lms + 1 else s.fuses.lms) ∧
        t.hif = s.hif ∧ t.cox = s.cox ∧ t.ldr = { s.ldr with lmsRec := BitVec.ofNat 16 (leaf + 1) } ∧ SameDesign s t) ∧
      (fld s fExhausted = 1 → Answers (.getMeasurements 0x10 g n) s fun t => ∃ fs,
        t.out = s.out ++ [.doe 0x60 (fs ++ splitWords n 4) g none] ∧ reg t 0x40054 = reg s 0x40054 ∧
        t.fuses = s.fuses ∧ t.hif = s.hif ∧ SameDesign s t)) ∧
    (s.hif.spdm ≠ 3 → ∀ (slot index : BitVec 8) (o l : BitVec 16) (g : Bool) (n : BitVec 256),
      ∀ c ∈ [Instr.getDigests, .getCertificate slot o l, .challenge slot n, .getMeasurements index g n],
        exec c s = .next (answer 0x7F [4] false)))

/-- Message dispatch (R324, R330 to R333, R345). PORT_BIND binds the selected port, or is ignored with its cause. A
take signal grants each instance a credit up to 15. A complete message claims a credit and joins its class's ready
list; an engine takes the ready messages TIMED first and sends one as a DELIVER packet to the port's pavilion. A port
decides 64 strokes ahead: a staged message lands, and a paced port in COMODEL asks for Easy. The landing writes the
receive registers, completes the message `DELIVERED` and makes its record (R337); without one, or in TETHERED with a
full record ring that stalls (R339), the valid flag is written 0. -/
def Obligations.DispatchDelivers : Prop :=
  (∀ (s : State) (v : Word), hostUp s = true →
    let p := portSel s
    (bindRefused s p v = none → Answers (.portBind v) s fun t =>
      (find t.dsp.bind p = if v.getLsbD 31 then some (v.setWidth 13) else none) ∧
      (∀ q, q ≠ p → find t.dsp.bind q = find s.dsp.bind q) ∧ bits (viewBind t) 0 13 = bits v 0 13 ∧
      t = { s with dsp := { s.dsp with bind := t.dsp.bind, unbound := t.dsp.unbound } }) ∧
    (∀ k, bindRefused s p v = some k → Answers (.portBind v) s fun t =>
      bits (reg t 0x90008) 26 2 = k ∧ (reg t 0x90008).getLsbD 31 = true ∧ portSel t = p ∧ RegsBut [0x90008] s t ∧
      t = { s with regs := t.regs })) ∧
  (∀ (s : State) (p : MPort),
    let n := p.toNat
    let e := portEntry s n
    (portActs s n (peTake e) 52 && s.fab.retired.contains (bpIndex (pePav e) (peCrew e) (peBp e))) = true →
    Answers (.creditGrant p) s fun t =>
      (∀ i, i < instances s → niCredits t (piKey n i) =
        if takes s e i && decide (niCredits s (piKey n i) < 15) then niCredits s (piKey n i) + 1
        else niCredits s (piKey n i)) ∧
      (∀ k, (∀ i, i < instances s → k ≠ piKey n i) → niCredits t k = niCredits s k) ∧
      (instances s = 1 → takes s e 0 = true → niCredits s (piKey n 0) < 15 → Notified s t (pePav e) n 0 true) ∧
      OnlyLogged [0x90088] [] { s with
        dsp := { s.dsp with credits := t.dsp.credits }, net := t.net, fab := { s.fab with marks := t.fab.marks } } t) ∧
  (∀ (s : State) (c : Chan) (tag : BitVec 16) (m : Msg),
    (s.dsp.msgs.find? fun m => m.chan == c && m.tag == tag && m.replay.isNone) = some m → becomesReady s m = true →
    Answers (.messageReady c tag) s fun t =>
      t.dsp.msgs = s.dsp.msgs.map (fun x => if x.order = m.order then { m with ready := true, claimed := true } else x) ∧
      (∀ k, unclaimed t k = if k = msgKey m then unclaimed s k - 1 else unclaimed s k) ∧
      (t.dsp.readyT = s.dsp.readyT ++ if m.cls.toNat = 0 then [m.order] else []) ∧
      (t.dsp.readyB = s.dsp.readyB ++ if m.cls.toNat = 1 then [m.order] else []) ∧
      (t.dsp.readyG = s.dsp.readyG ++ if 2 ≤ m.cls.toNat then [m.order] else []) ∧
      RegsBut peakRegs s t ∧ t = { s with regs := t.regs, dsp := t.dsp } ∧ t.dsp.credits = s.dsp.credits) ∧
  (∀ (s : State) (e : BitVec 6),
    (∀ a b r, engine s e.toNat = [] → s.dsp.readyT = a :: b :: r → Answers (.engineSend e) s fun t =>
      engine t e.toNat = [a, b] ∧ t.dsp.readyT = r ∧ t.dsp.readyB = s.dsp.readyB ∧ t.dsp.readyG = s.dsp.readyG) ∧
    (nextSend s e.toNat = none → exec (.engineSend e) s = .next (filled s e.toNat)) ∧
    (∀ m x, nextSend s e.toNat = some m →
      let f := filled s e.toNat
      let g := gateFor (pePav (portEntry s m.port.toNat))
      let data := byteWords (((payload m).length + 7) / 8) (payload m)
      routed s g (deliverHead s e.toNat m) data = some x →
      waiting s (bufKey g 5 1) = [] → inputTakes s g 5 x = true →
      x.head = deliverHead s e.toNat m ∧ x.data = data ∧
      Answers (.engineSend e) s fun t =>
        t.dsp.msgs = f.dsp.msgs.map (fun y => if y.order = m.order then { m with stage := 2 } else y) ∧
        t = { f with dsp := { f.dsp with msgs := t.dsp.msgs }, net := { s.net with bufs := bufsWith s g 5 x } })) ∧
  (∀ (s : State) (busy : List (BitVec 8)), Answers (.engineLoadWindow busy) s fun t =>
    (∀ e, e < 64 → reg t (0x90100 + 4 * e) = (busy.getD e 0).setWidth 32) ∧
    RegsBut ((List.range 64).map fun e => 0x90100 + 4 * e) s t ∧ t = { s with regs := t.regs }) ∧
  (∀ (s : State) (p : MPort), portDecides s p.toNat = true → replaying s = false →
    let n := p.toNat
    Answers (.portDecision p) s fun t =>
      t.dsp.decided = s.dsp.decided ++ (List.range (instances s)).flatMap (fun i =>
        if 0 < unplanned s (piKey n i) then [decision s n i true]
        else if asksEasy s n i then [decision s n i false] else []) ∧
      t.cox.raised = s.cox.raised ++ ((List.range (instances s)).filter (asksEasy s n)).map (fun _ => hostAsk s n) ∧
      t = { s with dsp := { s.dsp with decided := t.dsp.decided }, cox := { s.cox with raised := t.cox.raised },
                   fab := { s.fab with marks := (54, n) :: s.fab.marks } }) ∧
  (∀ (s : State) (p : MPort) (w : BitVec 32 × BitVec 32),
    let n := p.toNat
    let e := portEntry s n
    portActs s n (peStroke e) 53 = true →
    (landsNothing s = true ∨ (∀ i, i < instances s → landsNow s n i = false) → Answers (.portLanding p w) s fun t =>
      t.fab.rxNext = s.fab.rxNext ++ (List.range (instances s)).map (rxIdle s e) ∧
      t = { s with fab := { s.fab with rxNext := t.fab.rxNext, marks := (53, n) :: s.fab.marks },
                   dsp := { s.dsp with decided := t.dsp.decided } }) ∧
    (∀ i m, landsNothing s = false → i < instances s → landsNow s n i = true → (∀ j, j < instances s → j ≠ i → landsNow s n j = false) →
      landingMsg s (piKey n i) = some m → m.replay = none → m.late = 0 →
      ((chan s m.chan.toNat).st = .active ∨ (chan s m.chan.toNat).st = .draining) →
      let bs := payload m
      let us := (if i = 0 then w.1 else w.2).toNat
      Answers (.portLanding p w) s fun t =>
        t.fab.rxNext = s.fab.rxNext ++ (List.range (instances s)).flatMap
          (fun j => if j = i then rxLanded s e i bs else [rxIdle s e j]) ∧
        (chan t m.chan.toNat).held = (chan s m.chan.toNat).held ++
          [{ entryOf m.tag ccDelivered 0 m.sqHead m.waitUs m.irq with
            course := BitVec.ofNat 64 (course s), devWords := 1 }] ∧
        (∀ x ∈ t.dsp.msgs, x.order ≠ m.order) ∧ Notified s t (pePav e) n i false ∧
        ctr t 0x90090 = min (2 ^ 48 - 1) (ctr s 0x90090 + 1) ∧
        ctr t (0x90200 + 0x80 * m.cls.toNat + 8 * min 15 (Nat.log2 (us + 1))) =
          min (2 ^ 48 - 1) (ctr s (0x90200 + 0x80 * m.cls.toNat + 8 * min 15 (Nat.log2 (us + 1))) + 1) ∧
        t.dsp.recHeld = (if recOn s then ins s.dsp.recHeld (gOf s * 8192 + msgKey m) (recordEntry s m bs)
          else s.dsp.recHeld) ∧
        SameDesign s t))

/-- Replay and the two rings (R337, R338, R340, R347). A record that waits for room is written at the tail of the ring
as the host moves the head on. DSP.CTRL changes only while no image is released; in replay an entry read enters as a
copy for its port and course, the end entry ends every wait, and a port lands its copy where a credit is free,
diverges with a halt where none is, and asks for Easy while the reader is behind in COMODEL. Enabling a ring sets its
indices to 0. -/
def Obligations.ReplayDelivers : Prop :=
  (∀ (s : State) (on : Bool), hostUp s = true →
    (s.ldr.stage = 0 → Answers (.replayEnable on) s fun t => reg t 0x90000 = (if on then 1 else 0) ∧
      RegsBut [0x90000] s t ∧ (∀ m ∈ t.dsp.msgs, m.replay = none) ∧ t.dsp.rplEnd = false ∧ t.dsp.rplLast = none ∧
      t = { s with regs := t.regs, dsp := { s.dsp with
        msgs := t.dsp.msgs, rplEnd := t.dsp.rplEnd, rplLast := t.dsp.rplLast } }) ∧
    (s.ldr.stage ≠ 0 → exec (.replayEnable on) s = .next s)) ∧
  (∀ (s : State) (replay : Bool) (v : Word), hostUp s = true →
    let a := if replay then 0x90058 else 0x90038
    Answers (.recEnable replay v) s fun t => reg t a = v &&& rwMask a ∧
      (v.getLsbD 31 = true → (reg s a).getLsbD 31 = false → reg t (a + 4) = 0 ∧ reg t (a + 8) = 0) ∧
      RegsBut (if v.getLsbD 31 && !(reg s a).getLsbD 31 then [a, a + 4, a + 8] else [a]) s t ∧
      t = { s with regs := t.regs }) ∧
  (∀ (s : State) (e : BitVec 512), replayReads s = true →
    let head := BitVec.ofNat 32 ((bits (reg s 0x90060) 0 20 + 1) % rplSize s)
    let m := replayMsg s e
    (bits e 64 16 = 0xFFFF → (∀ d ∈ s.dsp.decided, d.wait = true → d.land = false →
        replayCopy s (piKey d.port.toNat d.inst.toNat) (d.due / s.cox.length) = none) →
      Answers (.replayEntryRead e) s fun t =>
      reg t 0x90060 = head ∧ RegsBut [0x90060] s t ∧ t.dsp.rplEnd = true ∧ t.dsp.msgs = s.dsp.msgs ∧
      (∀ d ∈ t.dsp.decided, d.wait = true → d.land = true) ∧
      t = { s with regs := t.regs, dsp := { s.dsp with rplEnd := true, decided := t.dsp.decided } }) ∧
    (bits e 64 16 < 4096 → (∀ d ∈ s.dsp.decided, d.wait = true → d.land = false → d.free = true) →
      (s.dsp.msgs.any fun x => x.replay.isSome && msgKey x == msgKey m && x.stage == 0) = false →
      Answers (.replayEntryRead e) s fun t => reg t 0x90060 = head ∧ RegsBut (0x90060 :: peakRegs) s t ∧
        t.dsp.rplLast = some (bits e 0 64) ∧
        (∃ x ∈ t.dsp.msgs, x.replay = some (bits e 0 64) ∧ x.port.toNat = bits e 64 16 ∧ payload x = payload m) ∧
        t = { s with regs := t.regs, dsp := t.dsp })) ∧
  (∀ (s : State) (p : MPort), fleet s = false → portDecides s p.toNat = true → replaying s = true →
    let n := p.toNat
    let k := piKey n 0
    let c := (gOf s + 64) / s.cox.length
    (∀ m, replayCopy s k c = some m → creditsNow s (portEntry s n) k ≠ 0 → Answers (.portDecision p) s fun t =>
      t.dsp.decided = s.dsp.decided ++ [decision s n 0 true] ∧
      (∀ j, niCredits t j = if j = k then niCredits s k - 1 else niCredits s j) ∧ t.cox = s.cox ∧ SameDesign s t) ∧
    (∀ m, replayCopy s k c = some m → creditsNow s (portEntry s n) k = 0 → Answers (.portDecision p) s fun t =>
      haltRaised s t 15 ∧ (∀ x ∈ t.dsp.msgs, x.order ≠ m.order) ∧ t.dsp.decided = s.dsp.decided ∧ SameDesign s t) ∧
    (replayCopy s k c = none → replayBehind s c = true → s.cox.mode = .comodel → Answers (.portDecision p) s fun t =>
      t.dsp.decided = s.dsp.decided ++
        [{ decision s n 0 false with free := decide (0 < creditsNow s (portEntry s n) k) }] ∧
      t.cox.raised = s.cox.raised ++ [hostAsk s n] ∧ SameDesign s t)) ∧
  (∀ (s : State) (v : Word) (x : WriteIn) (k : Nat) (ws : List (BitVec 64)), hostUp s = true → x.be = 0xF →
    s.dsp.recHeld = [(k, ws)] → k / 8192 ≠ gOf s →
    let h := writePlain 0x9003C v s
    let tail := bits (reg s 0x90040) 0 20 % recSize s
    recOn s = true →
    (recFull h = true → (reg s 0x90038).getLsbD 30 = true → exec (.registerWrite .bar0 0x9003C v x) s = .next h) ∧
    (recFull h = false → Answers (.registerWrite .bar0 0x9003C v x) s fun t =>
      t.out = s.out ++ [.hostWrite ((reg s 0x90034 ++ (reg s 0x90030 &&& 0xFFFFF000) : BitVec 64) +
        BitVec.ofNat 64 (64 * tail)) ws] ∧
      reg t 0x90040 = BitVec.ofNat 32 ((tail + 1) % recSize s) ∧ RegsBut [0x9003C, 0x90040] s t ∧
      t = { s with regs := t.regs, out := t.out, dsp := { s.dsp with recHeld := [] } }))

/-- Pass A (R353, R355, R371, R375, R376): a stream that fails changes nothing but CFG and its completion, whose code
and detail are those of the check that fails first; one that passes brings the loader to QUIESCE with a halt, to
WRITE, or to WAKE. The quiesce and wake timeouts abandon the load. -/
def Obligations.PassA : Prop :=
  (∀ (s : State) (j : Job), s.ldr.job = some j → s.ldr.st = .manifest → j.recovery = false →
    (Answers (.passAEnd none) s fun t => LoadEnds s t ccInternal (2 * 2 ^ 16) ∧ t.cox = s.cox ∧ SameDesign s t) ∧
    (∀ (x : Stream) (v : Verdict), (passA s j x).fails = some v → Answers (.passAEnd (some x)) s fun t =>
      LoadEnds s t (v.code % 256) (v.check * 2 ^ 24 + v.detail * 2 ^ 16) ∧ t.cox = s.cox ∧ SameDesign s t) ∧
    (∀ (x : Stream), manifestDetail s (wantedKind j) x.man ≠ 0 → Answers (.passAEnd (some x)) s fun t =>
      LoadEnds s t ccSigFail (manifestDetail s (wantedKind j) x.man * 2 ^ 16)) ∧
    (∀ (x : Stream), manifestDetail s (wantedKind j) x.man = 0 → x.man.version.toNat < floorOf s (wantedKind j) →
      Answers (.passAEnd (some x)) s fun t => LoadEnds s t ccRollbackDenied (1 * 2 ^ 16)) ∧
    (∀ (x : Stream), passesA s j x = true → Answers (.passAEnd (some x)) s fun t =>
      t.ldr.stream = some x ∧ t.ldr.image = s.ldr.image ∧ t.ldr.job = some j ∧ t.ldr.stage = s.ldr.stage ∧
      (baseJob j = true → inCourse s = true → t.ldr.st = .quiesce ∧ haltRaised s t 1 ∧ SameDesign s t) ∧
      (baseJob j = true → s.cox.st = .wait → t.ldr.st = .write ∧ t.cox.st = .halted) ∧
      (baseJob j = true → inCourse s = false → s.cox.st ≠ .wait → t.ldr.st = .write ∧ t.cox = s.cox ∧ SameDesign s t) ∧
      (baseJob j = false → j.regional = true → t.cox = s.cox ∧ SameDesign s t ∧
        t.ldr.st = if (downDies s j.region.toNat).isEmpty then .write else .wake) ∧
      (baseJob j = false → j.regional = false → t.ldr.st = .write ∧ t.ldr.passB = true ∧ t.cox = s.cox ∧
        SameDesign s t))) ∧
  (∀ (s : State), s.ldr.st = .quiesce → s.ldr.job.any (·.recovery) = false → Answers .quiesceTimeout s fun t =>
    LoadEnds s t ccBusyInUse 0 ∧ t.cox = s.cox ∧ SameDesign s t) ∧
  (∀ (s : State) (j : Job), s.ldr.job = some j → s.ldr.st = .wake → j.recovery = false →
    Answers .loaderWakeTimeout s fun t => LoadEnds s t ccWakeTimeout 0 ∧ t.cox = s.cox ∧ SameDesign s t ∧
      ∀ d ∈ downDies s j.region.toNat, t.pwr.dieDead.getLsbD d = true ∧ ∀ p ∈ pavsOfDie d, portState t p = .dead)

/-- Pass B (R367, R372, R373, R377). Of a base part: the old image is gone, in SERVICE with every pin released and
every port unbound; a configuration word that the stream lists holds the stream's data, any other of its frames zero;
deep memory that the new image allocates is zero. Of a partial part: the region's local ports are RECONF and its
release starts anew, and nothing outside its pavilions changes. -/
def Obligations.PassB : Prop :=
  (∀ (s : State) (j : Job) (x : Stream), s.ldr.job = some j → s.ldr.stream = some x → s.ldr.st = .write →
    baseJob j = true → s.ldr.passB = false → Answers .loadPassB s fun t =>
      t.ldr = { s.ldr with passB := true, image := none, fromHost := false, role := 0, stage := 0, target := 0,
                           auto := false, regions := [] } ∧
      t.cox.mode = .service ∧ t.cox.board = .none ∧ t.cox.length = 0 ∧ t.dsp.bind = [] ∧ t.dsp.credits = [] ∧
      t.pins.drvOn = 0 ∧ t.net.flits = [] ∧ t.slots = [] ∧ t.groups = [] ∧ t.fab.rx = [] ∧ t.fab.keepers = [] ∧
      t.scb.st = .idle ∧ t.scb.queue = [] ∧
      (∀ f ∈ x.frames, ∀ e ∈ f.words, enabled s (frPav f) = true → bankFrame f = false → keyType
          (cfgKey (f.addr.toNat / 128) e.1) ≠ 0 →
        (∀ g ∈ x.frames, ∀ a ∈ g.words, cfgKey (g.addr.toNat / 128) a.1 = cfgKey (f.addr.toNat / 128) e.1 →
          a.2 = e.2) →
        look 0 t.cfg (cfgKey (f.addr.toNat / 128) e.1) = encode72 e.2) ∧
      (∀ k, keyType k ≠ 0 → (∀ f ∈ x.frames, ∀ e ∈ f.words, cfgKey (f.addr.toNat / 128) e.1 ≠ k) →
        look 0 t.cfg k = 0) ∧
      (∀ k, keyType k = 0 → (∀ f ∈ x.frames, ∀ e ∈ f.words, cfgKey (f.addr.toNat / 128) e.1 ≠ k) →
        look 0 t.cfg k = look 0 s.cfg k) ∧
      (∀ a ∈ x.hdr.allocs, alKind a.2 = 2 → ∀ i, i < 256 * alSize a.2 →
        deepCw t (deepKey (alOwner a.2) (256 * alBase a.2) + i) = 0)) ∧
  (∀ (s : State) (j : Job) (x : Stream), s.ldr.job = some j → s.ldr.stream = some x →
    (s.ldr.st = .write ∨ s.ldr.st = .wake) → j.regional = true → s.ldr.passB = false → streamOk x = true →
    let r := j.region.toNat
    let ps := regionPavs s r
    Answers .partialPassB s fun t =>
      t.ldr.st = .write ∧ t.ldr.passB = true ∧ t.ldr.stage = s.ldr.stage ∧
      (∀ p ∈ ps, enabled s p = true → portState t p = .reconf) ∧
      (regionRec t r).stage = 0 ∧ (regionRec t r).target = 0 ∧
      (∀ q, q ≠ r → find t.ldr.regions q = find s.ldr.regions q) ∧
      (∀ k, k / 2 ^ 20 ∉ ps → find t.slots k = find s.slots k) ∧
      (∀ k, k / 2 ^ 20 ∈ ps → find t.slots k = none) ∧
      (∀ k, keyPav k ∉ ps → look 0 t.cfg k = look 0 s.cfg k ∧ look 0 t.shadow k = look 0 s.shadow k) ∧
      (∀ k, k / 65536 ∉ ps → bankCw t k = bankCw s k) ∧
      (∀ k, k / 64 ∉ ps → find t.fab.rx k = find s.fab.rx k) ∧ (∀ k, k / 64 ∈ ps → find t.fab.rx k = none) ∧
      t.deep = s.deep ∧ t.cox = s.cox)

/-- The end of pass B (R362, R368, R372, R373, R375, R376). Done, a base part stands READY at course 0, a region
awaits its release, and firmware or a shell starts the package again; with a store the loader programs flash first,
and both directory copies then hold the new entries. A failed base part completes at once and the Keeper begins the
recovery load, or with no entry the package is left with no image; a failed partial part leaves its region DEAD. -/
def Obligations.LoadsEnd : Prop :=
  (∀ (s : State) (j : Job) (x : Stream) (n : BitVec 64), writing s j x →
    (j.store = true → Answers (.loadWriteDone ⟨0, n⟩) s fun t => t.ldr = { s.ldr with st := .store } ∧ t.cox = s.cox ∧
      SameDesign s t) ∧
    (j.store = false → baseJob j = true → Answers (.loadWriteDone ⟨0, n⟩) s fun t => BasePlaced t j x ∧
      (waitsForRelease j x = true → t.cox.st = .ready) ∧ t.bank = s.bank ∧ t.deep = s.deep ∧ t.cfg = s.cfg ∧
      t.slots = s.slots) ∧
    (j.store = false → j.object = 0 → j.regional = true → Answers (.loadWriteDone ⟨0, n⟩) s fun t =>
      LoadEnds { s with ldr := { s.ldr with regions := t.ldr.regions } } t ccDone 0 ∧
      (regionRec t j.region.toNat).partial_ = (wantedKind j == 4) ∧ (regionRec t j.region.toNat).stage = 0 ∧
      (regionRec t j.region.toNat).target = (if j.auto then 3 else 0) ∧
      (∀ q, q ≠ j.region.toNat → find t.ldr.regions q = find s.ldr.regions q) ∧ t.cox = s.cox ∧ SameDesign s t) ∧
    (j.store = false → j.object ≠ 0 → Answers (.loadWriteDone ⟨0, n⟩) s fun t => MbxDone t ccDone 0 ∧ t.ldr.st = .idle ∧
      t.pwr.boot = (if s.pwr.boot = .recovery ∧ j.object = 2 then .keeper else .rom) ∧ t.cox = s.cox ∧
      SameDesign s t) ∧
    (baseJob j = true → j.recovery = false →
      (Answers (.loadWriteDone ⟨1, n⟩) s fun t => t.ldr.st = .recover ∧ fld t fMbxCode = ccSourceChanged ∧
        fld t fMbxSeq = 0 ∧ reg t 0x1003C = 6 ∧ t.hif.busy = true ∧ t.hif.due = none ∧ SameDesign s t) ∧
      Answers (.loadWriteDone ⟨2, n⟩) s fun t => t.ldr.st = .recover ∧ fld t fMbxCode = ccInternal ∧
        reg t 0x10030 = 0x20000 ∧ t.hif.busy = true ∧ t.hif.due = none ∧ SameDesign s t) ∧
    (baseJob j = false → j.regional = true → Answers (.loadWriteDone ⟨1, n⟩) s fun t =>
      LoadEnds { s with ldr := { s.ldr with regions := t.ldr.regions } } t ccSourceChanged 0 ∧
      (regionRec t j.region.toNat).dead = true ∧ t.cox = s.cox ∧ t.bank = s.bank ∧ t.deep = s.deep ∧ t.slots = s.slots ∧
      t.groups = s.groups ∧ t.pins = s.pins ∧
      (∀ k, keyPav k ∉ regionPavs s j.region.toNat → look 0 t.cfg k = look 0 s.cfg k) ∧
      ∀ p ∈ regionPavs s j.region.toNat, enabled s p = true → portState t p = .dead)) ∧
  (∀ (s : State) (j : Job) (x : Stream), s.ldr.job = some j → s.ldr.stream = some x → s.ldr.st = .store →
    baseJob j = true →
    (j.op ≠ 3 → Answers (.loadStoreDone true) s fun t => BasePlaced t j x ∧ t.ldr.dir0 = t.ldr.dir1 ∧
      t.ldr.dir0.sequence = nextSequence s ∧ t.ldr.dir0.entries =
        storedEntries roleCurrent 0 (newEntry roleCurrent 0 x.man s) (dirBase s).entries ∧ t.bank = s.bank ∧
      t.deep = s.deep ∧ t.cfg = s.cfg) ∧
    Answers (.loadStoreDone false) s fun t => t.ldr.image = some x ∧ t.ldr.st = .idle ∧
      (t.hif.due.map fun r => (r.code.toNat, r.r0)) = some (ccInternal, 0x130000) ∧
      (x.hdr.packageCount.toNat ≤ 1 → t.cox.st = .ready) ∧ t.ldr.dir0 = s.ldr.dir0 ∧ t.ldr.dir1 = s.ldr.dir1) ∧
  (∀ (s : State) (j : Job), s.ldr.job = some j → s.ldr.st = .recover →
    let role := if j.role.toNat = roleCurrent then rolePrevious else roleCurrent
    (∀ d e, dirInUse s = some d → dirEntry s role 0 = some e → Answers .loadRecovery s fun t =>
      t.ldr.st = .manifest ∧ t.ldr.job = some (recoveryJob role d.autoRelease) ∧ t.ldr.stream = none ∧
      t.cox = s.cox ∧ SameDesign s t) ∧
    ((dirEntry s role 0).isNone = true → Answers .loadRecovery s fun t =>
      LoadEnds s t ccRollbackDenied 0x20000 ∧ t.cox = { s.cox with st := .noImage } ∧ SameDesign s t))

/-- Power (R16, R439, R463, R477, R493, R530). POWER_ON latches the position and draws the token nonce; without
VDD_AON everything but the fuses and the flash is gone; a rail that does not rise asserts FAULT#; a rail lost in P2
loses the retained state. A rail above 5 does not exist. -/
def Obligations.SuppliesRiseAndFall : Prop :=
  (∀ (s : State) (pos : BitVec 4) (nonce : BitVec 64), s.pwr.boot = .off → Answers (.powerOn pos nonce) s fun t =>
    position t = pos.toNat ∧ wideReg t 0x40044 = nonce ∧ t.pwr = { State.reset.pwr with boot := .supply } ∧
    t.cox = State.reset.cox ∧ t.bank = [] ∧ t.deep = [] ∧ t.ldr.image = none ∧ t.fuses = s.fuses ∧
    t.ldr.dir0 = s.ldr.dir0 ∧ t.ldr.dir1 = s.ldr.dir1 ∧ t.pins.land = s.pins.land) ∧
  (∀ (s : State), s.pwr.boot ≠ .off → Answers .powerLoss s fun t => t.regs = [] ∧ t.ctrs = [] ∧
    t.pwr = State.reset.pwr ∧ t.cox = State.reset.cox ∧ t.bank = [] ∧ t.deep = [] ∧ t.ldr.image = none ∧
    t.fuses = s.fuses ∧ t.ldr.dir0 = s.ldr.dir0 ∧ t.ldr.dir1 = s.ldr.dir1 ∧ t.pins.land = s.pins.land) ∧
  (∀ (s : State) (rail : BitVec 3), rail.toNat < 6 → rail ≠ 4 → s.pwr.boot = .supply → s.pwr.st = .p0 →
    Answers (.supplyRiseTimeout rail) s fun t =>
      OnlyLogged [] [] { s with pwr := { s.pwr with faultPin := true } } t) ∧
  (∀ (s : State) (rail : BitVec 3), rail.toNat < 6 → rail ≠ 4 → s.pwr.st = .p2 →
    Answers (.retentionRailLoss rail) s fun t => t.pwr.lost = true ∧ t.pwr.boot = .supply ∧ t.pwr.st = .p2 ∧
      t.bank = [] ∧ t.deep = [] ∧ t.slots = [] ∧ t.cfg = [] ∧ t.ldr.image = none ∧ t.cox.st = .noImage ∧
      t.fuses = s.fuses ∧ position t = position s ∧ t.ldr.dir0 = s.ldr.dir0 ∧ t.ldr.dir1 = s.ldr.dir1) ∧
  (∀ (s : State) (rail : BitVec 3), 6 ≤ rail.toNat → exec (.supplyRiseTimeout rail) s = .fault .noSuchUnit ∧
    exec (.retentionRailLoss rail) s = .fault .noSuchUnit) ∧
  (∀ (s : State) (present : Bool), exec (.brefLost present) s = .next { s with trc := { s.trc with bref := present } })

/-- Start-up (R16, R182, R354, R360, R362, R363, R521, R522). The slices of self-test run in order, each with its
result; the last ends it; a retention slice dwells. The boot ROM resolves the key slots by the vote of their copies
and chooses a directory copy by R360; firmware that can be started starts the Keeper, and with none the package is in
ROM recovery with FAULT# asserted. The Keeper makes the copies match, and with autoload begins the load of
DESIGN_CURRENT. Deep memory is zero once DMEM is initialised. -/
def Obligations.StartsUp : Prop :=
  (∀ (s : State) (k : BitVec 6) (pass : Bool) (us : BitVec 15) (bad : List (BitVec 7)) (fs : List FaultRec),
    k.toNat < 0x23 → sliceRuns s k.toNat = true →
    let n := k.toNat
    let ends := fun (t : State) => t.pwr.boot = (if n = 0x22 then BootStep.rom else .selfTest) ∧
      t.hlt.dwell = (n == 0x20 || n == 0x21) ∧ (n = 0x22 → flag t fPostDone = true) ∧ SameDesign s t ∧ t.cox = s.cox
    (Answers (.postSlice k pass us bad fs) s fun t => fld t (fPost n) = (if pass then 1 else 3) ∧
      fld t (fPostUs n) = us.toNat ∧ (pass = false → flag t fPostFail = true) ∧
      (pass = false → n = 0 → t.pwr.faultPin = true ∧ t.hlt.clocksBad = true) ∧
      (pass = false → 4 ≤ n → n < 0x14 → ∀ f ∈ fs, sliceFault n f = true → f ∈ t.hlt.soft) ∧ ends t) ∧
    Answers (.incomplete k) s fun t => fld t (fPost n) = 4 ∧ fld t (fPostUs n) = 20000 ∧ ends t) ∧
  (∀ (s : State) (k : BitVec 6) (us : BitVec 15), 0x23 ≤ k.toNat →
    exec (.postSlice k true us [] []) s = .fault .noSuchUnit ∧ exec (.incomplete k) s = .fault .noSuchUnit) ∧
  (∀ (s : State), s.hlt.dwell = true →
    exec .retentionDwellEnd s = .next { s with hlt := { s.hlt with dwell := false } }) ∧
  (∀ (s : State), (flag s fPostDone && s.ldr.stage == 0 && !flag s fDmemInit && fld s fDomDmem == 0) = true →
    (s.cox.st ≠ .wait → Answers .dmemInitDone s fun t => flag t fDmemInit = true ∧
      t = { s with deep := [], regs := t.regs }) ∧
    exec .dmemInitDone s = .next (retryStart (setFlag fDmemInit true { s with deep := [] }))) ∧
  (∀ (s : State) (o0 o1 : Option DirCopy) (keys : List KeyRead) (fw0 fw1 : Option (Stream × Bool))
      (leaf : Option (BitVec 16)), s.pwr.boot = .rom →
    let d0 := o0.getD s.ldr.dir0
    let d1 := o1.getD s.ldr.dir1
    let f0 := firmwareOk (resolveKeys keys s) d0 fw0
    let f1 := firmwareOk (resolveKeys keys s) d1 fw1
    let both := dirValid d0 && dirValid d1
    let starts := fun (use : Nat) (clash : Bool) (fw : Option (Stream × Bool)) =>
      Answers (.bootRomStart o0 o1 keys fw0 fw1 leaf) s fun t => t.pwr.boot = .keeper ∧ fld t fDirUse = use ∧
        flag t fDirConflict = clash ∧ flag t fDirRecovery = false ∧ t.ldr.dir0 = d0 ∧ t.ldr.dir1 = d1 ∧
        some (t.ldr.fwVer, t.ldr.fwDig) = fw.map (fun x => (x.1.man.version, x.1.man.digest)) ∧ t.cox = s.cox ∧ SameDesign s t ∧
        ∀ k v, keys[k]? = some v → k < 8 → t.fuses.keyUse.getLsbD k = keyUsable v ∧
          t.fuses.keyRev.getLsbD k = keyRevoked v ∧
          (∀ h, vote3 v.hash0 v.hash1 v.hash2 = some h → look 0 t.fuses.keyHash k = h)
    (both = true → d0 = d1 → f0 = true → starts 0 false fw0) ∧
    (both = true → d0.sequence < d1.sequence → f1 = true → starts 1 false fw1) ∧
    (both = true → d1.sequence < d0.sequence → f0 = true → starts 0 false fw0) ∧
    (dirValid d0 = true → dirValid d1 = false → f0 = true → starts 0 false fw0) ∧
    (dirValid d0 = false → dirValid d1 = true → f1 = true → starts 1 false fw1) ∧
    (both = true → d0 ≠ d1 → d0.sequence = d1.sequence → f0 = true → (f1 = false ∨ fwVersion d1 ≤ fwVersion d0) →
      starts 0 true fw0) ∧
    (both = true → d0 ≠ d1 → d0.sequence = d1.sequence → f1 = true → (f0 = false ∨ fwVersion d0 < fwVersion d1) →
      starts 0 true fw1) ∧
    (((dirValid d0 || dirValid d1) = false ∨ (f0 || f1) = false) →
      Answers (.bootRomStart o0 o1 keys fw0 fw1 leaf) s fun t => t.pwr.boot = .recovery ∧ t.pwr.faultPin = true ∧
        flag t fDirRecovery = true ∧ t.cox = s.cox ∧ SameDesign s t)) ∧
  (∀ (s : State) (shell : Option Stream) (code : BitVec 8) (routes : Sparse (BitVec 32)), s.pwr.boot = .keeper →
    (dirEntry s roleShell 0).isNone = true → Answers (.keeperStart shell code routes) s fun t =>
      t.pwr.boot = .up ∧ t.pwr.asleep = false ∧ t.hlt.applied = true ∧
      t.bank = s.bank ∧ t.deep = s.deep ∧ t.slots = s.slots ∧ t.ldr.image = s.ldr.image ∧
      (∀ d, dirInUse s = some d → s.ldr.dir0 ≠ s.ldr.dir1 → t.ldr.dir0 = d ∧ t.ldr.dir1 = d) ∧
      (∀ d e, dirInUse s = some d → d.autoload = true → dirEntry s roleCurrent 0 = some e → s.hlt.clocksBad = false →
        t.ldr.job = some (bootJob 0 roleCurrent d.autoRelease) ∧ t.ldr.st = .manifest ∧ t.hif.busy = true) ∧
      ((dirInUse s).any (·.autoload) = false → t.ldr.job = s.ldr.job ∧ t.ldr.st = s.ldr.st ∧ t.hif.busy = s.hif.busy))

/-- Package power states (R462 to R467, R470 to R475). An entry goes to P1 at once, to P2 or P3 once no link is
active: P2 retains the design with the pads latched, P3 loses it. A wake source that PWR.WAKE_EN enables begins a
wake; its steps turn the domains on in the order of R470, one that was off with its registers at reset (R8), and the
last leaves P1, or P0 after P3 or with resume = 1; a step that fails ends the wake with FAULT# asserted, or a die
woken on demand DEAD. A resumed run starts; PAD_RELEASE gives the named banks back. -/
def Obligations.PackageStates : Prop :=
  (∀ (s : State) (e : Entry), s.pwr.entry = some e →
    (s.pwr.entering = false → inCourse s = false → s.cox.st ≠ .wait →
      (e.target = .p1 → Answers .powerEntry s fun t => t.pwr.st = .p1 ∧ t.pwr.entry = none ∧ t.cox = s.cox ∧
        (∀ d, d < 4 → s.pwr.dieOff.getLsbD d = false → fld s (fDomDie d) ≠ 3 →
          fld t (fDomDie d) = 1 ∧ fld t (fDomStore d) = 1) ∧ SameDesign s t) ∧
      (e.target ≠ .p1 → Answers .powerEntry s fun t => (t.pwr.entering = true ∧ t.pwr.entry = some e) ∨
        (t.pwr.st = e.target ∧ t.pwr.entry = none))) ∧
    (s.pwr.entering = true → linksAsleep s = true → Answers .powerEntry s fun t =>
      t.pwr.st = e.target ∧ t.pwr.entry = none ∧ t.pwr.entering = false ∧ t.pwr.asleep = true ∧
      (e.target = .p2 → fld t fDomDmem = 2 ∧ fld t fDomIod = 2 ∧ t.pins.padLev = s.pins.drv ∧
        t.pins.padOn = s.pins.drvOn ∧ fld t fPadLatched = 0xFFFF ∧ t.cox = s.cox ∧ SameDesign s t) ∧
      (e.target = .p3 → t.pwr.boot = .supply ∧ t.bank = [] ∧ t.deep = [] ∧ t.slots = [] ∧ t.ldr.image = none ∧
        t.cox.st = .noImage ∧ t.fuses = s.fuses ∧ t.pins.drvOn = 0))) ∧
  (∀ (s : State), (mayWake s 2 = true → Answers .pcieWake s fun t => WakeBegun s t 2) ∧
    (upState s = true → exec .pcieWake s = .next s)) ∧
  (∀ (s : State) (n : DPort), (lnkPort s n.toNat).st = .sleep →
    (upState s = true → Answers (.daxairWake n) s fun t => (lnkPort t n.toNat).st = .lock ∧ t.pwr = s.pwr ∧
      (∀ m, m ≠ n.toNat → lnkPort t m = lnkPort s m) ∧ SameDesign s t) ∧
    (mayWake s 3 = true → s.pwr.st = .p2 → Answers (.daxairWake n) s fun t => (lnkPort t n.toNat).st = .lock ∧
      WakeBegun s t 3)) ∧
  (∀ (s : State) (src : BitVec 4) (n total : Nat) (p3 : Bool) (us : BitVec 32),
    s.pwr.waking = some (src, n, total, p3) →
    let k := nextStep s n
    (k = 0 → Answers (.wakeStep us) s fun t => fld t fDomIod = 0 ∧ fld t fDomPcie = 0 ∧ t.pwr.sclHeld = false ∧
      t.pwr.waking = some (src, 1, total + us.toNat, p3) ∧ (p3 = true → t.pwr.boot = .selfTest) ∧ t.cox = s.cox ∧
      SameDesign s t) ∧
    (1 ≤ k → k ≤ 12 → Answers (.wakeStep us) s fun t => fld t (seqFld k) = 0 ∧
      t = { s with regs := t.regs, ctrs := t.ctrs, snaps := t.snaps,
                   pwr := stillWaking s src (k + 1) (total + us.toNat) p3 } ∧
      (fld s (seqFld k) ≠ 3 → t.ctrs = s.ctrs ∧ t.snaps = s.snaps ∧ RegsBut [0x20004] s t) ∧
      (9 ≤ k → fld s (seqFld k) = 3 → ∀ p ∈ pavsOfDie (k - 9), ctr t (pavA p + 0x510) = 0)) ∧
    (13 ≤ k → k ≤ 16 → Answers (.wakeStep us) s fun t =>
      (∀ p ∈ pavsOfDie (k - 13), ∀ b, b < 64 → bankState t p b = if bankKept s p b then 0 else bankState s p b) ∧
      t = { s with regs := t.regs, pwr := stillWaking s src (k + 1) (total + us.toNat) p3 }) ∧
    (k = 17 → Answers (.wakeStep us) s fun t => fld t fDomDmem = 0 ∧ RegsBut [0x20004] s t ∧
      t = { s with regs := t.regs, pwr := stillWaking s src 18 (total + us.toNat) p3 }) ∧
    (18 ≤ k → Answers (.wakeStep us) s fun t => t.pwr.waking = none ∧ t.pwr.st = (if p3 || flag s fPwrResume then .p0 else .p1) ∧
      (p3 = false → t.pwr.resuming = (flag s fPwrResume || s.pwr.resuming)) ∧
      fld t fWakeUs = min (total + us.toNat) 0xFFFFFFFF ∧ t.pwr.lost = false ∧ SameStores s t) ∧
    Answers .wakeFail s fun t => t.pwr.waking = none ∧ t.pwr.faultPin = true ∧ t.pwr.st = .p1 ∧
      flag t fPwrFailed = true ∧ t.cox = s.cox ∧ SameDesign s t) ∧
  (∀ (s : State) (d : Nat) (us : BitVec 32), s.pwr.waking = none → latchWaits s = some d →
    (Answers (.wakeStep us) s fun t => dieIsOn t d = true ∧ t.net.latch = s.net.latch ∧ t.cox = s.cox ∧
      SameDesign s t) ∧
    Answers .wakeFail s fun t => t.pwr.dieDead.getLsbD d = true ∧ look [] t.net.latch d = [] ∧
      (∀ p ∈ pavsOfDie d, portState t p = .dead) ∧ t.cox = s.cox ∧ SameDesign s t) ∧
  (∀ (s : State), (s.pwr.resuming = true → startable s = true → Answers .resumeAfterWake s fun t => t.cox.st = .wait ∧
      t.cox.started = true ∧ t.cox.stepping = none ∧ t.cox.lead = some Config.easyLead ∧ t.pwr.st = .p0 ∧
      t.pwr.resuming = false ∧ SameDesign s t) ∧
    (s.pwr.resuming = false → exec .resumeAfterWake s = .next s)) ∧
  (∀ (s : State) (v : Word), hostUp s = true → (s.cox.st ≠ .wait → Answers (.padRelease v) s fun t =>
      fld t fPadLatched = fld s fPadLatched &&& (0xFFFF - bits v 0 16) ∧ RegsBut [0x20010] s t ∧
      t = { s with regs := t.regs }) ∧
    exec (.padRelease v) s =
      .next (retryStart (setFld fPadLatched (fld s fPadLatched &&& (0xFFFF - bits v 0 16)) s)))

/-- The SMBus target (R467 to R469). A match of this package's address is acknowledged, and in P2 or P3 wakes the
package with SCL held, for 10 ms at most. A sound block write sets the pointer or an RW field of PWR; a read answers a
word of GLB, PWR, HLT or COX, and 0 elsewhere; both advance the pointer by 4. The byte after a late hold is not
acknowledged. While ALERT# is asserted the alert response is this package's address. -/
def Obligations.SmbusTarget : Prop :=
  (∀ (s : State) (addr : BitVec 7), s.pwr.boot ≠ .off →
    (addr.toNat ≠ 0x40 + position s → exec (.smbusAddressMatch addr) s = .next s) ∧
    (addr.toNat = 0x40 + position s → fld s fDomIod = 0 →
      exec (.smbusAddressMatch addr) s = .next { s with out := s.out ++ [.smbus true 0] }) ∧
    (addr.toNat = 0x40 + position s → fld s fDomIod ≠ 0 → mayWake s 1 = true →
      Answers (.smbusAddressMatch addr) s fun t => t.out = s.out ++ [.smbus true 0, .scl true] ∧
        t.pwr.sclHeld = true ∧ WakeBegun s t 1)) ∧
  (∀ (s : State), s.pwr.sclHeld = true → exec .smbusHoldTimeout s =
    .next { s with out := s.out ++ [.scl false], pwr := holdLate s }) ∧
  (∀ (s : State) (len : BitVec 8) (v : Word) (pec : Option Bool), s.pwr.nackNext = true →
    ∀ c ∈ [Instr.smbusAddr len v pec, .smbusDataRead, .smbusDataWrite len v pec],
      exec c s = .next { s with out := s.out ++ [.smbus false 0], pwr := { s.pwr with nackNext := false } }) ∧
  (∀ (s : State) (len : BitVec 8) (v : Word) (pec : Option Bool), smReady s = true → s.pwr.nackNext = false →
    len ≠ 4 → ∀ c ∈ [Instr.smbusAddr len v pec, .smbusDataWrite len v pec],
      exec c s = .next { s with out := s.out ++ [.smbus false 0] }) ∧
  (∀ (s : State) (v : Word) (pec : Option Bool), smTakes s pec = true →
    let a := s.pwr.smPtr.toNat / 4 * 4
    (exec (.smbusAddr 4 v pec) s =
      .next { s with out := s.out ++ [.smbus true 0], pwr := { s.pwr with smPtr := v } }) ∧
    Answers (.smbusDataWrite 4 v pec) s fun t => t.out = s.out ++ [.smbus true 0] ∧ t.pwr.smPtr = s.pwr.smPtr + 4 ∧
      t = { s with out := t.out, regs := t.regs, pwr := { s.pwr with smPtr := t.pwr.smPtr } } ∧
      ∀ b, reg t b = if b = a ∧ 0x20000 ≤ a ∧ a < 0x30000 then (reg s a &&& ~~~rwMask a) ||| (v &&& rwMask a)
        else reg s b) ∧
  (∀ (s : State), smReady s = true → s.pwr.nackNext = false →
    let a := s.pwr.smPtr.toNat / 4 * 4
    Answers .smbusDataRead s fun t =>
      t.out = s.out ++ [.smbus true (if smReads a then readReg s a else 0)] ∧ t.pwr.smPtr = s.pwr.smPtr + 4 ∧
      (∀ b, reg t b = if b = a ∧ smReads a = true ∧ answers s a = true then reg s a &&& ~~~rcMask a else reg s b) ∧
      t = { s with out := t.out, regs := t.regs, snaps := t.snaps, pwr := { s.pwr with smPtr := t.pwr.smPtr } }) ∧
  (∀ (s : State), smReady s = true →
    (alertPin s = true → exec .alertResponseAddress s =
      .next { s with out := s.out ++ [.smbus true (BitVec.ofNat 32 (0x40 + position s))] }) ∧
    (alertPin s = false → exec .alertResponseAddress s = .next s))

/-- Target banks (R494 to R497, R515). A bank that has become wanted goes to CHECK, and one wanted no longer to OFF; a
seated pod within ±10 % of the expected voltage turns it ON; a reversed or mis-keyed pod is POD_FAULT, which ends with
no pod; a pod removed or VCCIO out of its window brings it back to CHECK. Leaving ON releases the bank's pins. Target
pins (R501, R502, R517, R518, R553). A shorted pin is released and flagged until software clears it; the pull test
runs in SERVICE on banks in ON, and leaves in TIO.OPEN the pins that followed the pulls and that nothing holds; a
target drives its land or lets it go. -/
def Obligations.TargetBanksAndPins : Prop :=
  (∀ (s : State) (b : BitVec 4),
    let n := b.toNat
    (bankIsWanted s n = true → podState s n = .off → Answers (.bankWanted b) s fun t => PodGoes s t n .check) ∧
    (bankIsWanted s n = false → podState s n ≠ .off → Answers (.bankWanted b) s fun t => PodGoes s t n .off ∧
      fld t (fBankCause n) = 0) ∧
    ((bankIsWanted s n == (podState s n != .off)) = true → exec (.bankWanted b) s = .next s) ∧
    (∀ (mv : BitVec 13), bankIsWanted s n = true →
      (podState s n = .check → podFits s n mv.toNat = true → Answers (.bankOn b mv) s fun t => PodGoes s t n .on ∧
        podReads t n = (0, mv.toNat, false, true)) ∧
      ((podState s n = .on ∨ podState s n = .check) → mv.toNat < 100 → Answers (.podMiskeyed b true mv) s fun t =>
        PodGoes s t n .podFault ∧ fld t (fBankCause n) = 3 ∧ fld t (fPodid n) = mv.toNat ∧
        flag t (fPodkeyHigh n) = true) ∧
      ((podState s n = .on ∨ podState s n = .check) → podFits s n mv.toNat = false →
        Answers (.podMiskeyed b false mv) s fun t => PodGoes s t n .podFault ∧ fld t (fBankCause n) = 2 ∧
          fld t (fPodid n) = mv.toNat ∧ flag t (fPodkeyHigh n) = false)) ∧
    (podState s n = .on → Answers (.podRemoved b) s fun t => PodGoes s t n .check ∧ fld t (fBankCause n) = 5 ∧
      flag t (fPodkeyHigh n) = true) ∧
    (∀ (mv : BitVec 16), podState s n = .on → vccioBad s n mv.toNat = true → Answers (.vccioFault b mv) s fun t =>
      PodGoes s t n .check ∧ fld t (fBankCause n) = 4 ∧ flag t (fVccioOk n) = false) ∧
    (hostUp s = true → podState s n = .podFault → Answers (.podFaultClear b) s fun t => PodGoes s t n .check ∧
      fld t (fBankCause n) = 1)) ∧
  ((∀ (s : State) (pin : BitVec 9), shorted s pin.toNat = true →
    let a := 0x200100 + 4 * (pin.toNat / 32)
    Answers (.pinShort pin) s fun t =>
      (∀ i, i < 512 → t.pins.drvOn.getLsbD i = (s.pins.drvOn.getLsbD i && i != pin.toNat)) ∧
      (∀ i, i < 32 → (reg t a).getLsbD i = ((reg s a).getLsbD i || i == pin.toNat % 32)) ∧
      OnlyLogged [] [a] { s with pins := { s.pins with drvOn := t.pins.drvOn },
                                 fab := { s.fab with marks := t.fab.marks } } t) ∧
  (∀ (s : State) (b : BitVec 4) (v : Word), hostUp s = true →
    let a := 0x200100 + 4 * b.toNat
    Answers (.shortClear b v) s fun t => reg t a = reg s a &&& ~~~v ∧ RegsBut [a] s t ∧ t = { s with regs := t.regs }) ∧
  (∀ (s : State) (v : Word), hostUp s = true → v.getLsbD 31 = true →
    (pullOk v s = true → Answers (.pulltest v) s fun t => t.pins = { s.pins with pulling := true } ∧
      fld t fPullBanks = bits v 0 16 ∧ flag t fPullDone = false ∧ RegsBut [0x200200] s t ∧
      t = { s with regs := t.regs, pins := t.pins }) ∧
    (pullOk v s = false → Answers (.pulltest v) s fun t => flag t fPullErr = true ∧
      fld t fPullBanks = fld s fPullBanks ∧ RegsBut [0x200200] s t ∧ t = { s with regs := t.regs })) ∧
  (∀ (s : State) (followed : BitVec 512), s.pins.pulling = true → Answers (.pulltestDone followed) s fun t =>
    (∀ i, i < 512 → (reg t (0x200140 + 4 * (i / 32))).getLsbD (i % 32) =
      (followed.getLsbD i && pullTested s i && !s.pins.landOn.getLsbD i)) ∧
    flag t fPullDone = true ∧ OnlyLogged [] (0x200200 :: (List.range 16).map fun b => 0x200140 + 4 * b)
      { s with pins := { s.pins with pulling := false } } t) ∧
  (∀ (s : State) (pin : BitVec 9) (level : Option Bool), Answers (.targetPinLevel pin level) s fun t =>
    (∀ i, i < 512 → t.pins.landOn.getLsbD i = if i = pin.toNat then level.isSome else s.pins.landOn.getLsbD i) ∧
    (∀ i, i < 512 → t.pins.land.getLsbD i = if i = pin.toNat then level == some true else s.pins.land.getLsbD i) ∧
    t = { s with pins := { s.pins with land := t.pins.land, landOn := t.pins.landOn } }))

/-- The JTAG port (R505, R508, R509). IDCODE shows the stepping, the part and the maker; SAMPLE_PRELOAD and EXTEST
capture the lands of the banks in ON; the other codes only select their instruction, and a private code acts as BYPASS
unless an installed token grants debug, where the spec gives it no effect. -/
def Obligations.JtagPort : Prop :=
  ∀ (s : State), s.pwr.boot ≠ .off →
    (Answers .idcode s fun t => t = { withIr s 1 with out := s.out ++ [.readData (idWord s)] } ∧
      (idWord s).extractLsb' 28 4 = s.fuses.stepping ∧ (idWord s).extractLsb' 12 16 = 0x4B04 ∧
      (idWord s).getLsbD 0 = true) ∧
    (∀ (pre : BitVec 1899), Answers (.samplePreload pre) s fun t => t.jtag.ir = 2 ∧ t.jtag.boundary = pre ∧
      (∀ i, i < 512 → (onPins s).getLsbD i = true → (takeSample (withIr s 2)).float.getLsbD i = false →
        t.jtag.capture.getLsbD (3 * i) = (takeSample (withIr s 2)).lev.getLsbD i) ∧
      t = { s with jtag := t.jtag, free := s.free + 1 }) ∧
    (Answers .extest s fun t => t.jtag.ir = 3 ∧ t.jtag.boundary = s.jtag.boundary ∧
      (∀ i, i < 512 → (onPins s).getLsbD i = true → (takeSample (withIr s 3)).float.getLsbD i = false →
        t.jtag.capture.getLsbD (3 * i) = (takeSample (withIr s 3)).lev.getLsbD i) ∧
      t = { s with jtag := t.jtag, free := s.free + 1 }) ∧
    (exec .highz s = .next (withIr s 4)) ∧ (exec .clamp s = .next (withIr s 5)) ∧
    (exec .extestPulse s = .next (withIr s 6)) ∧ (exec .extestTrain s = .next (withIr s 7)) ∧
    (exec .tapReset s = .next (withIr s 1)) ∧
    (∀ (code : BitVec 8), (bypassCode code = true → exec (.bypass code) s = .next (withIr s code)) ∧
      (privateCode code = true → tokenRight s 1 = false → exec (.debugAccess code) s = .next (withIr s code)) ∧
      (privateCode code = true → tokenRight s 1 = true → exec (.debugAccess code) s = .refused .folarvenDebug))

/-- Health (R463, R522, R529 to R531, R538, R539). A sample shows in HLT.TEMP and HLT.RAIL, flags a hot good sensor
and a rail outside its window, and stops the package on a supply fault; in P2 and P3 only the AON comparator is read.
A sensor at 115 °C for two samples, or the comparator, shuts the package down to P3, which holds wakes off. A sensor
above 71 does not exist. -/
def Obligations.HealthMonitors : Prop :=
  (∀ (s : State) (h : HealthIn), monitored h = true → powered s = true → (s.pwr.st = .p0 ∨ s.pwr.st = .p1) →
    Answers (.healthSample h) s fun t =>
      (∀ n, n < 72 → fld t ⟨0x30100 + 4 * n, 0, 16⟩ = (h.temps.getD n 0).toNat ∧
        sensorGood t n = sensorGood s n) ∧
      (∀ r, r < 6 → bits (reg t (0x30300 + 4 * r)) 16 16 = (h.railMv.getD r 0).toNat ∧
        bits (reg t (0x30300 + 4 * r)) 0 14 = (h.railDa.getD r 0).toNat) ∧
      (∀ n, n < 72 → sensorGood s n = true → 1600 ≤ (h.temps.getD n 0).toInt → (reg t 0x30600).getLsbD 0 = true) ∧
      (∀ n, n < 72 → sensorGood s n = true → 1680 ≤ (h.temps.getD n 0).toInt → (reg t 0x30600).getLsbD 1 = true) ∧
      (∀ r, railTrips s h r = true → t.pwr.supplyLock = true ∧ t.pwr.faultPin = true ∧ t.pins.drvOn = 0 ∧
        (reg t 0x30600).getLsbD 3 = true ∧ (controllerBusy s = true → t.cox.st = .halted)) ∧
      SameStores s t) ∧
  (∀ (s : State) (h : HealthIn), monitored h = true → powered s = true → (s.pwr.st = .p2 ∨ s.pwr.st = .p3) →
    Answers (.healthSample h) s fun t => t = { s with pwr := { s.pwr with aonHot := t.pwr.aonHot } } ∧
      t.pwr.aonHot = (s.pwr.aonHot && (List.range 8).any fun i => decide (1360 ≤ (h.temps.getD (64 + i) 0).toInt))) ∧
  (∀ (s : State) (n : BitVec 7) (temp : BitVec 16), powered s = true → n.toNat < 72 → 1840 ≤ temp.toInt →
    (s.hlt.hotTwice.getLsbD n.toNat = true ∨ 64 ≤ n.toNat) → Answers (.thermalShutdown n temp) s fun t =>
      t.pwr.st = .p3 ∧ t.pwr.aonHot = true ∧ t.pwr.faultPin = true ∧ t.pwr.thermal = some (n, temp) ∧
      t.pwr.waking = none ∧ t.bank = [] ∧ t.deep = [] ∧ t.slots = [] ∧ t.pins.drvOn = 0 ∧ t.cox.st = .noImage ∧
      t.fuses = s.fuses) ∧
  (∀ (s : State) (n : BitVec 7) (temp : BitVec 16), 72 ≤ n.toNat →
    exec (.thermalShutdown n temp) s = .fault .noSuchUnit)

/-- Registers (R4 to R7, R49, R532, R535, R543 to R549). A whole-word write sets a register's RW bits and clears its
W1C bits written 1, and one with a byte missing, or to BAR4, does nothing; a write with a row of its own is that row,
and one of MBX.CMD the mailbox row of its command (R305, R308); a read returns the bytes enabled, clears the RC
fields, of which a peak goes on from what is in use, and takes the snapshot of a counter's high word; a counter's
words and the event log are cleared; the window reads and writes sound codewords of SERVICE's bank memory by pairs of
words; a dead pavilion answers all ones and logs it. -/
def Obligations.Registers : Prop :=
  (∀ (s : State) (a : Nat) (v : Word) (be : BitVec 4) (x : CmdIn), takesWrite s a = true →
    (Answers (.registerWrite .bar0 (BitVec.ofNat 32 a) v ⟨0xF, x⟩) s fun t => reg t a = written s a v ∧ RegsBut [a] s t ∧
      t = { s with regs := t.regs }) ∧
    (be ≠ 0xF → exec (.registerWrite .bar0 (BitVec.ofNat 32 a) v ⟨be, x⟩) s = .next s) ∧
    exec (.registerWrite .bar4 (BitVec.ofNat 32 a) v ⟨0xF, x⟩) s = .next s) ∧
  (∀ (s : State) (v : Word) (x : CmdIn), hostUp s = true →
    (exec (.registerWrite .bar0 0xB0070 v ⟨0xF, x⟩) s = exec (.grant (v.setWidth 16)) s) ∧
    (exec (.registerWrite .bar0 0x70000 v ⟨0xF, x⟩) s = exec (.traceEnable v) s) ∧
    (exec (.registerWrite .bar0 0x20014 v ⟨0xF, x⟩) s = exec (.padRelease v) s) ∧
    (exec (.registerWrite .bar0 0x9000C v ⟨0xF, x⟩) s = exec (.portBind v) s) ∧
    (exec (.registerWrite .bar0 0xA0004 v ⟨0xF, x⟩) s = exec (.chOwn v) s) ∧
    (exec (.registerWrite .bar0 0xB0000 2 ⟨0xF, x⟩) s = exec .halt s) ∧
    (exec (.registerWrite .bar0 0xB0000 1 ⟨0xF, x⟩) s = exec .run s) ∧
    let m := cmdArgs v s
    ∀ r ∈ [(0x10, Instr.setMode m), (0x11, .moveMaster m), (0x12, .release m), (0x14, .installToken m x.token),
      (0x20, .loadFull m), (0x21, .loadPartial m), (0x22, .rollback m), (0x23, .march m x.faults), (0x24, .bist m x.bist),
      (0x25, .fuseRepair m), (0x26, .scrubFull m)],
      bits v 0 8 = r.1 → exec (.registerWrite .bar0 0x10000 v ⟨0xF, x⟩) s = exec r.2 s) ∧
  (∀ (s : State) (v : Word) (x : CmdIn), hostUp s = true → bits v 0 8 = 0x13 →
    let m := cmdArgs v s
    ∀ r ∈ [(1, Instr.dieDown m), (2, .dieUp m x.ready), (3, .portDown m), (4, .portUp m)],
      bits m.a0 0 3 = r.1 → exec (.registerWrite .bar0 0x10000 v ⟨0xF, x⟩) s = exec r.2 s) ∧
  (∀ (s : State) (a : Nat) (be : BitVec 4), reaches s a = true → be ≠ 0 →
    ∀ c ∈ [Instr.readClear .bar0 (BitVec.ofNat 32 a) be, .snapshotRead .bar0 (BitVec.ofNat 32 a) be],
      Answers c s fun t => t.out = s.out ++ [.readData (readReg s a &&& byteMask be)] ∧
        (∀ b, reg t b = if b = a ∧ answers s a = true ∧ rcMask a &&& byteMask be ≠ 0 then afterRead s a else reg s b) ∧
        (isCtr a = true → answers s a = true → look 0 t.snaps (a + 4) = BitVec.ofNat 32 (ctr s a / 2 ^ 32)) ∧
        t = { s with out := t.out, regs := t.regs, snaps := t.snaps }) ∧
  (∀ (s : State) (a : Nat), reaches s a = true → answers s a = true → ctrWord a = true →
    Answers (.counterClear (BitVec.ofNat 32 a)) s fun t =>
      (isCtr a = true → ctr t a = ctr s a / 2 ^ 32 * 2 ^ 32) ∧
      (isCtr a = false → ctr t (a - 4) = ctr s (a - 4) % 2 ^ 32) ∧
      (∀ b, b ≠ (if isCtr a then a else a - 4) → ctr t b = ctr s b) ∧
      t = { s with ctrs := t.ctrs, snaps := t.snaps }) ∧
  (∀ (s : State), hostUp s = true → Answers .evlogClear s fun t => t.evlog = [] ∧ reg t 0x20 = 0 ∧ RegsBut [0x20] s t ∧
    t = { s with evlog := [], evIn := 0, regs := t.regs }) ∧
  (∀ (s : State) (p : Pav) (v : Word), hostUp s = true → portState s p.toNat = .live → routeReconf s p.toNat = false →
    let a := pavA p.toNat + 0x214
    Answers (.schedInject p v) s fun t => reg t a = written s a v ∧ RegsBut [a] s t ∧ t = { s with regs := t.regs }) ∧
  (∀ (s : State) (p : Pav) (be : BitVec 4), hostUp s = true → enabled s p.toNat = true → portState s p.toNat = .dead →
    Answers (.readClear .bar0 (BitVec.ofNat 32 (pavA p.toNat)) be) s fun t =>
      t.out = s.out ++ [.readData (byteMask be)] ∧ OnlyLogged [] [] { s with out := t.out } t) ∧
  (∀ (s : State) (off : BitVec 24) (v : Word), windowAt s off = true →
    let k := windowKey s off
    (off.toNat / 4 % 2 = 0 → exec (.bankWindowWrite off v) s = .next { s with winLow := some (k, v) }) ∧
    (off.toNat / 4 % 2 = 1 → ∀ lo, s.winLow = some (k, lo) → Answers (.bankWindowWrite off v) s fun t =>
      (∀ j, bankCw t j = if j = k then encode72 (v ++ lo) else bankCw s j) ∧
      t = { s with bank := t.bank, winLow := none, fab := { s.fab with
        backs := t.fab.backs, bankPast := t.fab.bankPast } }) ∧
    ((check72 (bankCw s k)).cls = .clean → exec (.bankWindowRead off) s = .next { s with
      out := s.out ++ [.readData (half (BitVec.ofNat 64 (check72 (bankCw s k)).data) (off.toNat / 4))] })) ∧
  (∀ (s : State) (off : BitVec 24) (v : Word), hostUp s = true → windowOpen s off.toNat = false →
    (exec (.bankWindowRead off) s = .next { s with out := s.out ++ [.readData 0] }) ∧
    exec (.bankWindowWrite off v) s = .next { s with winLow := none }) ∧
  (∀ (s : State) (v : Word), hostUp s = true → Answers (.bankPage v) s fun t =>
    fld t fBankPage = bits v 0 2 ∧ RegsBut [0x400] s t ∧ t = { s with regs := t.regs, winLow := none })

/-- MSI-X vectors (R283, R284), in the layout that the model takes from the PCI Express standard (log entry 66, not a
rule of the spec). A vector that is signalled sends its message, or is pending while it is masked; a write that
unmasks a pending vector sends its message; the pending bits are read through PF0's BAR0, or a VF's own; a function
sees no other function's vectors, and a reset of it masks its own. -/
def Obligations.InterruptVectors : Prop :=
  (∀ (s : State) (fn : Fn) (vec : Nat) (v : Word) (x : CmdIn), hostUp s = true → ownVector fn vec = true →
    let a := msixCtl fn.toNat vec
    let k := msixIndex fn.toNat vec
    let fires := s.hif.msix.getLsbD k && !v.getLsbD 0
    Answers (.registerWrite (vectorBar fn) (vectorAddr fn vec) v ⟨0xF, x⟩) s fun t => reg t a = v &&& 1 ∧ RegsBut [a] s t ∧
      t.out = (if fires then s.out ++ [.msix fn (BitVec.ofNat 11 vec)] else s.out) ∧
      (∀ j, j < 2048 → t.hif.msix.getLsbD j = (if fires ∧ j = k then false else s.hif.msix.getLsbD j)) ∧
      t = { s with regs := t.regs, out := t.out, hif := { s.hif with msix := t.hif.msix } }) ∧
  (∀ (s : State) (fn : Fn) (w : Nat), hostUp s = true → w < (if fn = 0 then 33 else 1) →
    exec (.readClear (vectorBar fn) (BitVec.ofNat 32 ((if fn = 0 then 0xAF000 else 0x8000) + 4 * w)) 0xF) s =
      .next { s with out := s.out ++ [.readData ((s.hif.msix >>> (msixIndex fn.toNat 0 + 32 * w)).setWidth 32)] }) ∧
  (∀ (s : State) (fn : Fn), hostUp s = true → Answers (.functionLevelReset fn) s fun t => ∀ f vec, ownVector f vec = true →
    msixMasked t f.toNat vec = (f == fn || msixMasked s f.toNat vec) ∧
    t.hif.msix.getLsbD (msixIndex f.toNat vec) = (f != fn && s.hif.msix.getLsbD (msixIndex f.toNat vec)))

/-- Configuration integrity (R393 to R403, R41, R187). The scrubber walks item by item: a sound one changes nothing, a
correctable one is corrected in place and counted, an uncorrectable care item is counted, halts the course and queues
its frame, and a don't-care one becomes zero. Recovery reads the part, writes every queued frame as the part lists it
and nothing else, or fails. A voted register with one copy wrong is counted; with three it takes its reset value. An
upset flips the one bit it strikes. -/
def Obligations.ConfigurationIntegrity : Prop :=
  (∀ (s : State) (x : Item), reads s x = true →
    ((itemCheck s x).cls = .clean → Answers .scrubItem s fun t => RegsBut [0x60004, 0x60008] s t ∧
      t = { s with regs := t.regs }) ∧
    ((itemCheck s x).cls = .fixed → Answers .scrubItem s fun t =>
      ctr t 0x60020 = min (2 ^ 48 - 1) (ctr s 0x60020 + 1) ∧
      (∀ k, look 0 t.cfg k = if k = x.key ∧ x.area ≠ 1 then BitVec.ofNat 72 (itemCheck s x).word else look 0 s.cfg k) ∧
      (∀ k, look 0 t.groups k = if k = x.key ∧ x.area = 1
        then BitVec.ofNat 39 ((itemCheck s x).word ^^^ groupInit s x) else look 0 s.groups k) ∧
      t.bank = s.bank ∧ t.deep = s.deep ∧ t.slots = s.slots ∧ t.cox = s.cox ∧ t.scb = s.scb) ∧
    (plainBad s x = true → itemCare s x = true → s.scb.queue.length < 16 → Answers .scrubItem s fun t =>
      ctr t 0x60028 = min (2 ^ 48 - 1) (ctr s 0x60028 + 1) ∧ BitVec.ofNat 32 (x.frame * 128) ∈ t.scb.queue ∧
      (inCourse s = true → haltRaised s t 3) ∧ SameDesign s t) ∧
    (plainBad s x = true → itemCare s x = false → Answers .scrubItem s fun t =>
      ctr t 0x60030 = min (2 ^ 48 - 1) (ctr s 0x60030 + 1) ∧ t.scb = s.scb ∧ t.cox = s.cox ∧
      (x.area ≠ 1 → look 0 t.cfg x.key = 0 ∧ t.groups = s.groups) ∧
      (x.area = 1 → look 0 t.groups x.key = BitVec.ofNat 39 (groupInit s x) ∧ t.cfg = s.cfg) ∧
      (∀ k, k ≠ x.key → look 0 t.cfg k = look 0 s.cfg k ∧ look 0 t.groups k = look 0 s.groups k) ∧
      t.bank = s.bank ∧ t.deep = s.deep ∧ t.slots = s.slots)) ∧
  (∀ (s : State), s.scb.st = .read → s.scb.full = none →
    (exec (.recoveryRead 0) s = .next { s with scb := { s.scb with st := .write } }) ∧
    ∀ c ∈ [Instr.recoveryRead 1, .recoveryRead 2, .recoveryTimeout], Answers c s fun t =>
      OnlyLogged [] [] { s with scb := { s.scb with st := .failed, fail := t.scb.fail } } t) ∧
  (∀ (s : State), s.scb.st = .write → s.scb.full = none → (image s).all streamOk = true →
    (∀ a ∈ s.scb.queue, a.toNat % 128 = 0) → Answers .recoveryWrite s fun t =>
      t.scb.st = .idle ∧ t.scb.queue = [] ∧
      (∀ a ∈ s.scb.queue, ∀ w, w < 512 → look 0 t.cfg (cfgKey (a.toNat / 128) w) =
        look 0 (ownWords s a) (cfgKey (a.toNat / 128) w)) ∧
      (∀ k, (∀ a ∈ s.scb.queue, k / 512 ≠ a.toNat / 128) → look 0 t.cfg k = look 0 s.cfg k) ∧
      t.bank = s.bank ∧ t.deep = s.deep ∧ t.shadow = s.shadow ∧ t.cox = s.cox) ∧
  (∀ (s : State) (k : BitVec 4), hostUp s = true → k.toNat < 9 →
    (Answers (.scrubSelfCorrect k false) s fun t => ctr t 0x60038 = min (2 ^ 48 - 1) (ctr s 0x60038 + 1) ∧
      OnlyLogged [0x60038] [] s t) ∧
    Answers (.scrubSelfCorrect k true) s fun t => reg t (voted.getD k.toNat 0) = regReset (voted.getD k.toNat 0) ∧
      (recovering s = true → t.scb.st = .failed) ∧
      (k = 3 → t.scb.queue = [] ∧ (recovering s = false → t.scb.st = .idle)) ∧
      SameStores s { t with cfg := s.cfg } ∧ t.pins = s.pins ∧ ((k = 0 → s.ldr.passB = false) → SameDesign s t)) ∧
  (∀ (s : State) (k : BitVec 4) (three : Bool), 9 ≤ k.toNat →
    exec (.scrubSelfCorrect k three) s = .fault .noSuchUnit) ∧
  (∀ (s : State) (p : Pav) (c : Crew) (b : Bp) (n : BitVec 10),
    (∀ (bit : BitVec 7), bit.toNat < 72 → Answers (.upset (.sched p c b n bit)) s fun t =>
      FlipsBit s.cfg t.cfg (schedKey p.toNat c.toNat b.toNat n.toNat) bit.toNat ∧ t = { s with cfg := t.cfg }) ∧
    (∀ (bit : BitVec 1), n.toNat < s.cox.length → Answers (.upset (.slot p c b n bit)) s fun t =>
      cell t p.toNat c.toNat b.toNat n.toNat = cell s p.toNat c.toNat b.toNat n.toNat ^^^ BitVec.ofNat 2 (2 ^ bit.toNat) ∧
      (∀ k, k ≠ slotKey p.toNat c.toNat b.toNat n.toNat → find t.slots k = find s.slots k) ∧
      t = { s with slots := t.slots }) ∧
    (∀ (g bit : BitVec 6), s.cox.length ≤ 16 * g.toNat → bit.toNat < 39 → Answers (.upset (.group p c b g bit)) s fun t =>
      FlipsBit s.groups t.groups (bpIndex p.toNat c.toNat b.toNat * 64 + g.toNat) bit.toNat ∧
      t = { s with groups := t.groups })) ∧
  (∀ (s : State) (a : BitVec 32) (w : BitVec 9) (bit : BitVec 7), bit.toNat < 72 →
    (frameType a = 0 ∨ (3 ≤ frameType a ∧ frameType a ≤ 9)) → Answers (.upset (.table a w bit)) s fun t =>
      FlipsBit s.cfg t.cfg (cfgKey (a.toNat / 128) w.toNat) bit.toNat ∧ t = { s with cfg := t.cfg }) ∧
  (∀ (s : State) (p : Pav) (cw : BitVec 16) (bit : BitVec 7), bit.toNat < 72 →
    Answers (.upset (.bank p cw bit)) s fun t =>
      FlipsBit s.bank t.bank (bankKey p.toNat cw.toNat) bit.toNat ∧ t = { s with bank := t.bank }) ∧
  (∀ (s : State) (st : BitVec 2) (cw : BitVec 29) (bit : BitVec 9), bit.toNat < 288 →
    Answers (.upset (.deep st cw bit)) s fun t =>
      FlipsBit s.deep t.deep (deepKey st.toNat cw.toNat) bit.toNat ∧ t = { s with deep := t.deep })

/-- Arming and firing (R417 to R420). Only the course master acts on TRG.CTRL: it sends ARM for course *a*, a disarm,
or a forced FIRE for the next sample. A package that receives ARM with sound settings goes to ARMING, with broken ones
it stays and reports arm_err. A FIRE from the master brings an ARMED package to FIRED with TRG.REC from the message,
and to DONE where its record is complete by then; the master accepts the first FIRE after arming, the first in order
of those of one stroke, and counts every other; in auto mode it raises one itself. -/
def Obligations.TriggersArmAndFire : Prop :=
  (∀ (s : State), isMaster s = false → ∀ c ∈ [Instr.arm, .disarm, .force], exec c s = .next s) ∧
  (∀ (s : State) (m : CoxMsg),
    let a := armCourse s
    let sent : CoxMsg := { coxMsg s with course := BitVec.ofNat 64 a, value := 1 }
    let armed := fun (n : Nat) (t : State) =>
      t.trg = { s.trg with st := (if s.trg.st = .armed ∨ s.trg.st = .fired then s.trg.st else .arming), armAt := some n,
                           win := reg s 0x80010, depth := bits (reg s 0x80014) 0 17 } ∧
      fld t fArmErr = 0 ∧ RegsBut [0x80004] s t ∧ t = { s with trg := t.trg, regs := t.regs, out := t.out }
    let idle := fun (t : State) => t = { s with out := t.out, trg := { s.trg with
      st := .idle, armAt := none, waiting := false, raised := [], sent := none, fire := none, accepted := false,
      haltAt := none, writes := [] } }
    (hostUp s = true → isMaster s = true → armErr s = 0 → Answers .arm s fun t => armed a t ∧ t.out = onLine s 6 sent) ∧
    (hostUp s = true → isMaster s = true → armErr s ≠ 0 → Answers .arm s fun t => fld t fArmErr = armErr s ∧
      OnlyLogged [] [0x80004] { s with out := onLine s 6 sent } t) ∧
    (hostUp s = true → isMaster s = true → Answers .disarm s idle) ∧
    (m.origin.toNat ≠ position s → m.value.getLsbD 0 = true → armErr s = 0 →
      Answers (.armMessage m) s fun t => armed m.course.toNat t ∧ t.out = s.out) ∧
    (m.origin.toNat ≠ position s → m.value.getLsbD 0 = true → armErr s ≠ 0 →
      Answers (.armMessage m) s fun t => fld t fArmErr = armErr s ∧ OnlyLogged [] [0x80004] s t) ∧
    (m.origin.toNat ≠ position s → m.value.getLsbD 0 = false → Answers (.armMessage m) s idle)) ∧
  (∀ (s : State), isMaster s = true →
    (hostUp s = true → s.trg.st = .armed → Answers .force s fun t =>
      FireRaised s t (fireFor s 0 (nextSample s) true false) s.trg.seq s.trg.waiting) ∧
    (s.trg.st ≠ .armed → exec .force s = .next s)) ∧
  (∀ (s : State) (m : CoxMsg), isMaster s = false →
    (s.trg.st ≠ .armed → exec (.fire m) s = .next s) ∧
    (s.trg.st = .armed → Answers (.fire m) s fun t => FireTaken s t m s.out)) ∧
  (∀ (s : State) (m : CoxMsg), isMaster s = true → m.origin.toNat ≠ position s ∨ m ∈ s.trg.raised →
    let left := { s.trg with raised := s.trg.raised.erase m }
    (s.trg.st = .armed → s.trg.accepted = false → running s = true → exec (.fire m) s =
      .next { s with trg := { left with accepted := true, sent := some (m, gOf s) } }) ∧
    (s.trg.st = .armed → s.trg.accepted = false → running s = false →
      (m.value.getLsbD 17 = false ∨ gOf s < haltOf s m) → Answers (.fire m) s fun t =>
        FireTaken { s with trg := { left with accepted := true,
                                              haltAt := if m.value.getLsbD 17 then some (haltOf s m) else s.trg.haltAt } }
          t m (onLine s 7 m)) ∧
    (s.trg.accepted = true ∨ s.trg.st ≠ .armed → Answers (.fire m) s fun t =>
      ctr t 0x80058 = min (2 ^ 48 - 1) (ctr s 0x80058 + 1) ∧
      OnlyLogged [0x80058] [] { s with trg := { left with sent := if beatsSent s m then some (m, gOf s) else s.trg.sent } } t)) ∧
  (∀ (s : State) (m : CoxMsg), isMaster s = true → m.origin.toNat = position s → m ∉ s.trg.raised →
    exec (.fire m) s = .next s) ∧
  (∀ (s : State),
    let auto := running s && isMaster s && s.trg.st == .armed && !s.trg.accepted &&
      !(s.trg.raised.any fun m => m.value.getLsbD 16 && m.course.toNat == s.trg.course) &&
      reg s 0x8000C != 0 && s.trg.taken == (reg s 0x8000C).toNat && gOf s == decisionStroke s
    (auto = true → Answers .triggerTimeout s fun t =>
      FireRaised s t (fireFor s s.trg.met s.trg.course true false) s.trg.seq s.trg.waiting) ∧
    (auto = false → exec .triggerTimeout s = .next s))

/-- Samples, decisions, capture, density and measurement (R414 to R416, R420 to R422, R424 to R426). A sample is taken
at stroke S of a course; every active condition that it meets sets its TRG.HIT bit and adds to its HITS, a write of it
waits for every pavilion with taps, and no memory of the design changes. Eight strokes on, the sequencer takes the
action of the lowest condition met, and a FIRE_HALT whose record is complete raises its halt. A capture write with a
bank cycle stores the next codeword of its sample in the pavilion's ring and changes no other codeword; one that finds
none before the next sample is dropped and counted; the last write of the record ends the capture. A density window's
end writes its entries to the ring, and counts those that meet a full one. Enabling a measurement unit clears its
results. -/
def Obligations.SamplesAndDecisions : Prop :=
  (∀ (s : State), (samplesNow s = false → exec .probeSample s = .next s) ∧
    (samplesNow s = true → Answers .probeSample s fun t =>
      t.trg.cur = samplesOf s ∧ t.trg.prev = s.trg.cur ∧ t.trg.course = course s ∧
      t.trg.taken = (withSample s).trg.taken ∧ t.fab = { s.fab with marks := (8, 0) :: s.fab.marks } ∧
      (∀ c, c < 16 → t.trg.met.getLsbD c = meets s c ∧
        (reg t 0x80008).getLsbD c = ((reg s 0x80008).getLsbD c || meets s c) ∧
        ctr t (condA c + 0x18) =
          if meets s c then min (2 ^ 48 - 1) (ctr s (condA c + 0x18) + 1) else ctr s (condA c + 0x18)) ∧
      t.trg.writes = (if s.trg.st = .armed ∨ s.trg.st = .fired then sampleWrites s else s.trg.writes) ∧
      ctr t 0x80050 = min (2 ^ 48 - 1) (ctr s 0x80050 +
        if s.trg.st = .armed ∨ s.trg.st = .fired then s.trg.writes.length else 0) ∧
      t.cox = s.cox ∧ SameDesign s t)) ∧
  (∀ (s : State), (decidesNow s = false → exec .sequencerDecision s = .next s) ∧
    (decidesNow s = true →
      let left := { s.trg with waiting := false, haltAt := if haltDue s then none else s.trg.haltAt }
      (lowestMet s = none → Answers .sequencerDecision s fun t => t.trg = left ∧ SameDesign s t ∧
        (haltDue s = false → t = { s with trg := left }) ∧ (haltDue s = true → haltRaised s t 15)) ∧
      ∀ c, lowestMet s = some c →
        let next := bits (reg s (condA c)) 13 3
        let action := bits (reg s (condA c)) 11 2
        let m := fireFor s s.trg.met s.trg.course false (action == 2)
        Answers .sequencerDecision s fun t => SameDesign s t ∧
          (action = 0 ∨ action = 3 → t.trg = { left with seq := next }) ∧
          (action = 1 ∨ action = 2 → t.trg = { left with
            seq := next, stopped := true, raised := if isMaster s then s.trg.raised ++ [m] else s.trg.raised }) ∧
          (action = 3 ∨ haltDue s = true → haltRaised s t 15) ∧
          (haltDue s = false → action ≠ 3 → t = { s with
            trg := t.trg, out := if (action == 1 || action == 2) && !isMaster s then s.out ++ [.cox 7 m] else s.out }))) ∧
  (∀ (s : State) (p : Pav) (w : CapWrite),
    (s.cox.st = .easy ∨ waitingWrite s p = none → ∀ granted, exec (.captureWrite p granted) s = .next s) ∧
    (s.cox.st ≠ .easy → waitingWrite s p = some w →
      let dropped := fun (t : State) => ctr t 0x80050 = min (2 ^ 48 - 1) (ctr s 0x80050 + 1) ∧ flag t fRecGap = true ∧
        CaptureMoved s t (s.trg.writes.erase w) ∧
        OnlyLogged [0x80050] [0x80020, 0x8002C] { s with trg := t.trg, wide := t.wide } t
      (captureGranted s w = false → exec (.captureWrite p true) s = .next s) ∧
      (captureGranted s w = true → captureClash s w = false → Answers (.captureWrite p true) s fun t =>
        (∀ k, capKey s p.toNat w.pos w.j = some k → bankCw t k = encode72 (w.val.extractLsb' (64 * w.j) 64)) ∧
        (∀ k, capKey s p.toNat w.pos w.j ≠ some k → bankCw t k = bankCw s k) ∧
        CaptureMoved s t (writesAfter s w) ∧
        reg t 0x80020 &&& 0x7FFFFFFF = reg s 0x80020 &&& 0x7FFFFFFF ∧
        OnlyLogged [] [0x80020, 0x8002C]
          { s with bank := t.bank, fab := { s.fab with
            backs := t.fab.backs, bankPast := t.fab.bankPast, grants := t.fab.grants }, trg := t.trg,
                   wide := t.wide } t) ∧
      (captureGranted s w = true → captureClash s w = true → Answers (.captureWrite p true) s dropped) ∧
      (beforeSample s = true ∧ captureGranted s w = false → Answers (.captureWrite p false) s dropped) ∧
      (beforeSample s = false ∨ captureGranted s w = true → exec (.captureWrite p false) s = .next s))) ∧
  (∀ (s : State), (densFull s = false → exec .densityWindowEnd s = .next s) ∧
    (densFull s = true → Answers .densityWindowEnd s fun t => DensityWritten s t (densEntries s false) ∧
      OnlyLogged [0x80048] [0x80040] { s with trg := windowOver s, out := t.out } t)) ∧
  (∀ (s : State) (u : BitVec 5) (v : Word), hostUp s = true →
    let a := measA u.toNat
    (v.getLsbD 31 = true → Answers (.measEnable u v) s fun t => reg t a = v &&& rwMask a ∧
      (∀ x ∈ [a + 4, a + 8, a + 12, a + 16], reg t x = 0) ∧ wideReg t (a + 0x20) = 0 ∧ wideReg t (a + 0x28) = 0 ∧
      ctr t (a + 0x18) = 0 ∧ (∀ x ∈ [a + 0x1C, a + 0x24, a + 0x2C], look 0 t.snaps x = 0) ∧
      look measNew t.trg.meas u.toNat = measNew ∧
      RegsBut [a, a + 4, a + 8, a + 12, a + 16] s t ∧
      (∀ x, x ≠ a + 0x18 → ctr t x = ctr s x) ∧ (∀ x, x ≠ a + 0x20 → x ≠ a + 0x28 → wideReg t x = wideReg s x) ∧
      t = { s with regs := t.regs, wide := t.wide, ctrs := t.ctrs, snaps := t.snaps,
                   trg := { s.trg with meas := t.trg.meas } }) ∧
    (v.getLsbD 31 = false → Answers (.measEnable u v) s fun t => reg t a = v &&& rwMask a ∧ RegsBut [a] s t ∧
      t = { s with regs := t.regs })) ∧
  (∀ (s : State) (v : Word), hostUp s = true →
    let was := (reg s 0x80030).getLsbD 31
    (was = false ∨ v.getLsbD 31 = true → Answers (.densEnable v) s fun t => reg t 0x80030 = v &&& rwMask 0x80030 ∧
      (was = false → v.getLsbD 31 = true → fld t fDensHead = 0 ∧ fld t fDensTail = 0) ∧
      RegsBut (if was then [0x80030] else [0x80030, 0x8003C, 0x80040]) s t ∧ t = { s with regs := t.regs }) ∧
    (was = true ∧ v.getLsbD 31 = false → Answers (.densEnable v) s fun t => reg t 0x80030 = v &&& rwMask 0x80030 ∧
      DensityWritten s t (densEntries s true) ∧
      OnlyLogged [0x80048] [0x80030, 0x80040] { s with trg := windowOver s, out := t.out } t))

/-- Host markers (R446). A write of MSG_CTRL copies the words of MSG_DATA into a queue of four messages, and each
message is committed in turn as a HOST packet; a write while the queue holds four, which TRC.STATUS.msg_full shows, or
with count 0 or above 8 is ignored and counted in TRC.MSG_REJECT. -/
def Obligations.HostMarkers : Prop :=
  (∀ (s : State) (v : Word), hostUp s = true →
    let n := bits v 0 4
    let bad := decide (n = 0) || decide (8 < n) || decide (4 ≤ s.trc.hostQ.length)
    (bad = true → Answers (.msgCtrl v) s fun t => ctr t 0x700D0 = min (2 ^ 48 - 1) (ctr s 0x700D0 + 1) ∧
      OnlyLogged [0x700D0] [] s t) ∧
    (bad = false → exec (.msgCtrl v) s = .next { s with trc := { s.trc with hostQ := s.trc.hostQ ++
      [(v.extractLsb' 8 8, (List.range n).map fun i => reg s (0x70080 + 4 * i))] } })) ∧
  (∀ (s : State) (tag : BitVec 8) (ws : List Word) (r : List (BitVec 8 × List Word)), s.trc.hostQ = (tag, ws) :: r →
    exec .hostMarkerCommit s = .next { s with trc := { s.trc with
      hostQ := r, committed := committedWith s (packetNow s 0x20 0 tag (markerWords ws)) } } ∧
    ∀ i, 2 * i < ws.length → (markerWords ws)[i]? = some (ws.getD (2 * i + 1) 0 ++ ws.getD (2 * i) 0)) ∧
  (∀ (s : State), (view s 0x70004).getLsbD 28 = decide (4 ≤ s.trc.hostQ.length))

/-- Message trace (R440, R444, R447 to R451, R453, R454, R476). Enabling clears the ring's indices and makes a SYNC
due; a flush completes with the last packet committed before it. Log messages are committed with their payloads, in
the order of R450 within a tick. The sink takes the oldest packet, after the OVERFLOW and the SYNC that are due before
it, at the next write of its ring and changes no other word of it; on a full sink the packet is lost and counted, and
a failed bus access disables trace. The Keeper's sleep commits POWER and flushes; its wake commits SYNC and POWER. -/
def Obligations.TraceStream : Prop :=
  (∀ (s : State) (v : Word), hostUp s = true →
    let starts := v.getLsbD 0 && (!flag s fTrcEnable || flag s fTrcStopped)
    let trc := if starts then traceCleared s else s.trc
    (flag s fTrcEnable = true ∧ bits v 1 2 ≠ fld s fTrcSink → exec (.traceEnable v) s = .next s) ∧
    (flag s fTrcEnable = false ∨ bits v 1 2 = fld s fTrcSink → Answers (.traceEnable v) s fun t =>
      reg t 0x70000 = v &&& rwMask 0x70000 ∧
      (starts = true → reg t 0x70010 = 0 ∧ reg t 0x70024 = 0 ∧ reg t 0x70028 = 0) ∧
      flag t fTrcStopped = (flag s fTrcStopped && !starts) ∧
      flag t fTrcFlushDone = (flag s fTrcFlushDone || (v.getLsbD 4 && trc.committed.isEmpty)) ∧
      RegsBut (if starts then [0x70000, 0x70004, 0x70010, 0x70024, 0x70028] else [0x70000, 0x70004]) s t ∧
      t.trc = (if v.getLsbD 4 && !trc.committed.isEmpty then { trc with flushing := some trc.committed.length } else trc) ∧
      t = { s with regs := t.regs, trc := t.trc })) ∧
  (∀ (s : State), hostUp s = true →
    (s.trc.committed = [] → Answers .flush s fun t => flag t fTrcFlushDone = true ∧ RegsBut [0x70004] s t ∧
      t = { s with regs := t.regs }) ∧
    (s.trc.committed ≠ [] → exec .flush s =
      .next { s with trc := { s.trc with flushing := some s.trc.committed.length } })) ∧
  (∀ (s : State), s.trc.ended = [] → exec .logPacketCommit s = .next s) ∧
  (∀ (s : State) (m : LogMsg) (r : List LogMsg), s.trc.ended = m :: r →
    exec .logPacketCommit s = .next { s with trc := { s.trc with
      ended := r, committed := committedWith s (logPacket s m) } } ∧
    ∀ v, v < m.vals.length →
      if m.two then ((logData true m.vals).getD (v / 32) 0).extractLsb' (2 * (v % 32)) 2 = m.vals.getD v 0
      else ((logData false m.vals).getD (v / 64) 0).getLsbD (v % 64) = (m.vals.getD v 0).getLsbD 0) ∧
  (∀ (s : State) (p : TracePacket), ranked s.trc.committed → ranked (committedWith s { p with time := wideReg s 0x70008 })) ∧
  (∀ (s : State) (busErr : Bool), s.trc.committed = [] → exec (.traceSinkWrite busErr) s = .next s) ∧
  (∀ (s : State) (p : TracePacket) (r : List TracePacket) (busErr : Bool), s.trc.committed = p :: r →
    let g := groupOf s p
    let ws := groupWords s.trc.lastTime.toNat g
    let n := 8 * ws.length
    let off := fld s fTrcOff
    let lost := fun (t : State) => ctr t 0x700C0 = min (2 ^ 48 - 1) (ctr s 0x700C0 + 1) ∧
      OnlyLogged [0x700C0] [0x70004] { s with trc := trcLost s r } t
    let put_ := fun (t : State) => ctr t 0x700D8 = min (2 ^ 48 - 1) (ctr s 0x700D8 + g.length) ∧
      reg t 0x70004 = statusFlushed s (reg s 0x70004)
    (fld s fTrcSink = 1 →
      let room := !flag s fTrcStopped && (flag s fTrcWrap || decide (off + n ≤ 0xFFF8))
      (room = true → Answers (.traceSinkWrite busErr) s fun t =>
        (p.words.length < 256 →
          (∀ i, i < ws.length → look 0 t.trc.ring ((off / 8 + i) % 8192) = ws.getD i 0) ∧
          ∀ k, (∀ i, i < ws.length → k ≠ (off / 8 + i) % 8192) → look 0 t.trc.ring k = look 0 s.trc.ring k) ∧
        fld t fTrcOff = (off + n) % 65536 ∧ flag t fTrcWrapped = (flag s fTrcWrapped || decide (65536 ≤ off + n)) ∧
        put_ t ∧
        OnlyLogged [0x700D8] [0x70004, 0x70010] { s with trc := { trcPut s p r g n with ring := t.trc.ring } } t) ∧
      (room = false → Answers (.traceSinkWrite busErr) s fun t =>
        reg t 0x70004 = statusFlushed s (reg s 0x70004 ||| 0x40000000) ∧ lost t)) ∧
    (fld s fTrcSink = 2 →
      let k := (hostRing s - hostTail s) / 8
      let used := (hostTail s + hostRing s - hostHead s % hostRing s) % hostRing s
      (used + n + 8 ≤ hostRing s → Answers (.traceSinkWrite false) s fun t =>
        reg t 0x70028 = BitVec.ofNat 32 ((hostTail s + n) % hostRing s) ∧ put_ t ∧
        OnlyLogged [0x700D8] [0x70004, 0x70028]
          { s with trc := trcPut s p r g n, out := s.out ++
              .hostWrite (ringBase s 0x70018 + BitVec.ofNat 64 (hostTail s)) (ws.take k) ::
                (if ws.length ≤ k then [] else [.hostWrite (ringBase s 0x70018) (ws.drop k)]) } t) ∧
      (hostRing s < used + n + 8 → Answers (.traceSinkWrite false) s fun t =>
        reg t 0x70004 = statusFlushed s (reg s 0x70004) ∧ lost t) ∧
      Answers (.traceSinkWrite true) s fun t => flag t fTrcEnable = false ∧
        flag t fTrcDmaErr = true ∧ OnlyLogged [] [0x70000, 0x70004]
          { s with trc := { s.trc with committed := [], flushing := none } } t) ∧
    (fld s fTrcSink ≠ 1 ∧ fld s fTrcSink ≠ 2 → Answers (.traceSinkWrite busErr) s fun t =>
      reg t 0x70004 = statusFlushed s (reg s 0x70004) ∧ RegsBut [0x70004] s t ∧
      t = { s with regs := t.regs, trc := { s.trc with committed := r, flushing := flushLeft s } })) ∧
  (∀ (s : State),
    let c := committedWith s (powerPacket s false)
    (maySleep s = true → Answers .keeperSleep s fun t =>
      reg t 0x70004 = (if c = [] then reg s 0x70004 ||| 0x80000000 else reg s 0x70004) ∧ RegsBut [0x70004] s t ∧
      t = { s with pwr := { s.pwr with asleep := true }, regs := t.regs,
                   trc := { s.trc with committed := c,
                                       flushing := if c = [] then s.trc.flushing else some c.length } }) ∧
    (maySleep s = false → exec .keeperSleep s = .next s) ∧
    (upState s = true → s.pwr.asleep = true → exec .keeperWake s = .next { s with
      pwr := { s.pwr with asleep := false }, trc := { s.trc with committed := wakePackets s } }) ∧
    ((upState s && s.pwr.asleep) = false → exec .keeperWake s = .next s))

/-- A step runs the command at the front of the queue on the state with the queue's rest; on an empty queue a tick of
the stroke clock passes and the Daxair ports send (the model's choice, log entries 2 and 87), and with no port on it
is the tick alone. -/
def Obligations.StepRunsFront : Prop :=
  (∀ (s : State) (c : Instr) (rest : List Instr), s.pending = c :: rest →
    step s = exec c { s with pending := rest }) ∧
  (∀ (s : State), s.pending = [] → step s = .next (idle s) ∧
    ((tick s).lnk = [] → step s =
      .next { tick s with net := { (tick s).net with sent := (tick s).out.length } }))

/-- Bank memory and deep memory keep their canonical form through every step: whatever command runs, or on a tick, no
codeword is listed twice, out of order, or with the value that an unlisted one reads as. -/
def Obligations.EveryStepKeepsMemory : Prop :=
  ∀ (s t : State), Memory.wf s → step s = .next t → Memory.wf t

/-- Fuses (R355, R356, R380, R525): no step lowers an anti-rollback floor, un-counts a leaf fuse, drops a repair
record or a retired pavilion, or changes what the fuses hold of the part. -/
def Obligations.FusesNeverUnblow : Prop := ∀ (s t : State), step s = .next t → FusesStay s t

/-- After reset (R16, R462): the memories list nothing, no supply has risen, the controller holds no image in SERVICE,
capture, loader, recovery and channels are idle, and the queue is empty. -/
def Obligations.ResetState : Prop :=
  let s := State.reset
  Memory.wf s ∧ storesOk s = true ∧ s.pwr.boot = .off ∧ s.pwr.st = .p0 ∧ s.cox.st = .noImage ∧ s.cox.mode = .service ∧
  s.cox.board = .none ∧ course s = 0 ∧ s.ldr.st = .idle ∧ s.ldr.image = none ∧ s.ldr.stage = 0 ∧ s.scb.st = .idle ∧
  s.trg.st = .idle ∧ s.pins.drvOn = 0 ∧ s.pending = [] ∧
  (∀ c, chan s c = ChanSt.off) ∧ (∀ n, lnkPort s n = LnkPort.off) ∧ (∀ b, podState s b = .off) ∧
  (∀ k, bankCw s k = 0) ∧ (∀ k, deepCw s k = 0) ∧ (∀ a, reg s a = regReset a) ∧ ∀ a, ctr s a = 0

/-- GLB.EVLOG (R533): a logged event stands at GLB.EVLOG_PTR.next, which advances mod 256 and sets wrapped as it
returns to 0; among the events of one tick the entries stay in increasing code and then increasing location, and no
other entry changes. -/
def Obligations.EventsOfATickInOrder : Prop :=
  ∀ (s : State) (code loc detail : Nat),
    let e := evEntry code loc detail s.cox.stroke (course s)
    let m := if running s && s.evTick == s.cox.ticks then s.evIn else 0
    let t := log0 code loc detail s
    m < 255 → inOrder (tickEntries s m) →
      inOrder (tickEntries t (m + 1)) ∧ (tickEntries t (m + 1)).Perm (e :: tickEntries s m) ∧
      t.evIn = m + 1 ∧ fld t fEvNext = (fld s fEvNext + 1) % 256 ∧
      flag t fEvWrapped = (flag s fEvWrapped || fld s fEvNext == 255) ∧
      ctr t 0x24 = (if flag s fEvWrapped then min (2 ^ 48 - 1) (ctr s 0x24 + 1) else ctr s 0x24) ∧
      ∀ k, k < 256 → (∀ i, i < m + 1 → k ≠ (fld s fEvNext + 256 - m + i) % 256) → look 0 t.evlog k = look 0 s.evlog k
end

