-- ==== Sys2Proof/Laws/Dir.lean ====
section
/-! SUPPORT. NVM directory copies: a copy that is sealed has its CRC-32C, and what makes such a copy valid. -/

namespace Sys2Proof.Machine

/-- A sealed copy has the magic, the format and the CRC-32C that R358 gives it. -/
theorem sealDir_crcOk (d : DirCopy) (h : d.entries.length ≤ 62) : crcOk (sealDir d) = true := by
  have hc : dirCrc (sealDir d) = (sealDir d).crc := rfl
  unfold crcOk
  rw [hc]
  simp [sealDir, h]

/-- What R359 asks of a copy beside its CRC. -/
theorem dirValid_of_crc {d : DirCopy} (h : crcOk d = true) :
    dirValid d = ((ofRole d roleFirmware).length == 1 &&
      [roleShell, roleCurrent, rolePrevious].all (fun r => decide ((ofRole d r).length ≤ 1)) &&
      (List.range 64).all (fun r => decide (((ofRole d rolePartial).filter fun e => e.region.toNat == r).length ≤ 1)) &&
      noOverlap d.entries) := by
  unfold dirValid
  rw [h, Bool.true_and]

end Sys2Proof.Machine
end

