-- ==== Sys2Proof/Laws/State.lean ====
section
/-! SUPPORT. One lemma per field of `State` for each of the plain updates: the field that it writes, and the fields that it leaves
as they stand. All hold by `rfl`. -/

namespace Sys2Proof.Machine

/-! `setReg`. -/
@[simp] theorem setReg_ctrs (a : Nat) (v : Word) (s : State) : (setReg a v s).ctrs = s.ctrs := rfl
@[simp] theorem setReg_wide (a : Nat) (v : Word) (s : State) : (setReg a v s).wide = s.wide := rfl
@[simp] theorem setReg_snaps (a : Nat) (v : Word) (s : State) : (setReg a v s).snaps = s.snaps := rfl
@[simp] theorem setReg_evlog (a : Nat) (v : Word) (s : State) : (setReg a v s).evlog = s.evlog := rfl
@[simp] theorem setReg_evTick (a : Nat) (v : Word) (s : State) : (setReg a v s).evTick = s.evTick := rfl
@[simp] theorem setReg_evIn (a : Nat) (v : Word) (s : State) : (setReg a v s).evIn = s.evIn := rfl
@[simp] theorem setReg_satDue (a : Nat) (v : Word) (s : State) : (setReg a v s).satDue = s.satDue := rfl
@[simp] theorem setReg_cfg (a : Nat) (v : Word) (s : State) : (setReg a v s).cfg = s.cfg := rfl
@[simp] theorem setReg_shadow (a : Nat) (v : Word) (s : State) : (setReg a v s).shadow = s.shadow := rfl
@[simp] theorem setReg_slots (a : Nat) (v : Word) (s : State) : (setReg a v s).slots = s.slots := rfl
@[simp] theorem setReg_groups (a : Nat) (v : Word) (s : State) : (setReg a v s).groups = s.groups := rfl
@[simp] theorem setReg_bank (a : Nat) (v : Word) (s : State) : (setReg a v s).bank = s.bank := rfl
@[simp] theorem setReg_deep (a : Nat) (v : Word) (s : State) : (setReg a v s).deep = s.deep := rfl
@[simp] theorem setReg_winLow (a : Nat) (v : Word) (s : State) : (setReg a v s).winLow = s.winLow := rfl
@[simp] theorem setReg_fab (a : Nat) (v : Word) (s : State) : (setReg a v s).fab = s.fab := rfl
@[simp] theorem setReg_cox (a : Nat) (v : Word) (s : State) : (setReg a v s).cox = s.cox := rfl
@[simp] theorem setReg_net (a : Nat) (v : Word) (s : State) : (setReg a v s).net = s.net := rfl
@[simp] theorem setReg_lnk (a : Nat) (v : Word) (s : State) : (setReg a v s).lnk = s.lnk := rfl
@[simp] theorem setReg_hif (a : Nat) (v : Word) (s : State) : (setReg a v s).hif = s.hif := rfl
@[simp] theorem setReg_dsp (a : Nat) (v : Word) (s : State) : (setReg a v s).dsp = s.dsp := rfl
@[simp] theorem setReg_ldr (a : Nat) (v : Word) (s : State) : (setReg a v s).ldr = s.ldr := rfl
@[simp] theorem setReg_scb (a : Nat) (v : Word) (s : State) : (setReg a v s).scb = s.scb := rfl
@[simp] theorem setReg_trg (a : Nat) (v : Word) (s : State) : (setReg a v s).trg = s.trg := rfl
@[simp] theorem setReg_trc (a : Nat) (v : Word) (s : State) : (setReg a v s).trc = s.trc := rfl
@[simp] theorem setReg_pwr (a : Nat) (v : Word) (s : State) : (setReg a v s).pwr = s.pwr := rfl
@[simp] theorem setReg_pins (a : Nat) (v : Word) (s : State) : (setReg a v s).pins = s.pins := rfl
@[simp] theorem setReg_jtag (a : Nat) (v : Word) (s : State) : (setReg a v s).jtag = s.jtag := rfl
@[simp] theorem setReg_hlt (a : Nat) (v : Word) (s : State) : (setReg a v s).hlt = s.hlt := rfl
@[simp] theorem setReg_fuses (a : Nat) (v : Word) (s : State) : (setReg a v s).fuses = s.fuses := rfl
@[simp] theorem setReg_out (a : Nat) (v : Word) (s : State) : (setReg a v s).out = s.out := rfl
@[simp] theorem setReg_free (a : Nat) (v : Word) (s : State) : (setReg a v s).free = s.free := rfl
@[simp] theorem setReg_pending (a : Nat) (v : Word) (s : State) : (setReg a v s).pending = s.pending := rfl

/-! `setFld`. -/
@[simp] theorem setFld_ctrs (f : Fld) (v : Nat) (s : State) : (setFld f v s).ctrs = s.ctrs := rfl
@[simp] theorem setFld_wide (f : Fld) (v : Nat) (s : State) : (setFld f v s).wide = s.wide := rfl
@[simp] theorem setFld_snaps (f : Fld) (v : Nat) (s : State) : (setFld f v s).snaps = s.snaps := rfl
@[simp] theorem setFld_evlog (f : Fld) (v : Nat) (s : State) : (setFld f v s).evlog = s.evlog := rfl
@[simp] theorem setFld_evTick (f : Fld) (v : Nat) (s : State) : (setFld f v s).evTick = s.evTick := rfl
@[simp] theorem setFld_evIn (f : Fld) (v : Nat) (s : State) : (setFld f v s).evIn = s.evIn := rfl
@[simp] theorem setFld_satDue (f : Fld) (v : Nat) (s : State) : (setFld f v s).satDue = s.satDue := rfl
@[simp] theorem setFld_cfg (f : Fld) (v : Nat) (s : State) : (setFld f v s).cfg = s.cfg := rfl
@[simp] theorem setFld_shadow (f : Fld) (v : Nat) (s : State) : (setFld f v s).shadow = s.shadow := rfl
@[simp] theorem setFld_slots (f : Fld) (v : Nat) (s : State) : (setFld f v s).slots = s.slots := rfl
@[simp] theorem setFld_groups (f : Fld) (v : Nat) (s : State) : (setFld f v s).groups = s.groups := rfl
@[simp] theorem setFld_bank (f : Fld) (v : Nat) (s : State) : (setFld f v s).bank = s.bank := rfl
@[simp] theorem setFld_deep (f : Fld) (v : Nat) (s : State) : (setFld f v s).deep = s.deep := rfl
@[simp] theorem setFld_winLow (f : Fld) (v : Nat) (s : State) : (setFld f v s).winLow = s.winLow := rfl
@[simp] theorem setFld_fab (f : Fld) (v : Nat) (s : State) : (setFld f v s).fab = s.fab := rfl
@[simp] theorem setFld_cox (f : Fld) (v : Nat) (s : State) : (setFld f v s).cox = s.cox := rfl
@[simp] theorem setFld_net (f : Fld) (v : Nat) (s : State) : (setFld f v s).net = s.net := rfl
@[simp] theorem setFld_lnk (f : Fld) (v : Nat) (s : State) : (setFld f v s).lnk = s.lnk := rfl
@[simp] theorem setFld_hif (f : Fld) (v : Nat) (s : State) : (setFld f v s).hif = s.hif := rfl
@[simp] theorem setFld_dsp (f : Fld) (v : Nat) (s : State) : (setFld f v s).dsp = s.dsp := rfl
@[simp] theorem setFld_ldr (f : Fld) (v : Nat) (s : State) : (setFld f v s).ldr = s.ldr := rfl
@[simp] theorem setFld_scb (f : Fld) (v : Nat) (s : State) : (setFld f v s).scb = s.scb := rfl
@[simp] theorem setFld_trg (f : Fld) (v : Nat) (s : State) : (setFld f v s).trg = s.trg := rfl
@[simp] theorem setFld_trc (f : Fld) (v : Nat) (s : State) : (setFld f v s).trc = s.trc := rfl
@[simp] theorem setFld_pwr (f : Fld) (v : Nat) (s : State) : (setFld f v s).pwr = s.pwr := rfl
@[simp] theorem setFld_pins (f : Fld) (v : Nat) (s : State) : (setFld f v s).pins = s.pins := rfl
@[simp] theorem setFld_jtag (f : Fld) (v : Nat) (s : State) : (setFld f v s).jtag = s.jtag := rfl
@[simp] theorem setFld_hlt (f : Fld) (v : Nat) (s : State) : (setFld f v s).hlt = s.hlt := rfl
@[simp] theorem setFld_fuses (f : Fld) (v : Nat) (s : State) : (setFld f v s).fuses = s.fuses := rfl
@[simp] theorem setFld_out (f : Fld) (v : Nat) (s : State) : (setFld f v s).out = s.out := rfl
@[simp] theorem setFld_free (f : Fld) (v : Nat) (s : State) : (setFld f v s).free = s.free := rfl
@[simp] theorem setFld_pending (f : Fld) (v : Nat) (s : State) : (setFld f v s).pending = s.pending := rfl

/-! `setFlag`. -/
@[simp] theorem setFlag_ctrs (f : Fld) (b : Bool) (s : State) : (setFlag f b s).ctrs = s.ctrs := rfl
@[simp] theorem setFlag_wide (f : Fld) (b : Bool) (s : State) : (setFlag f b s).wide = s.wide := rfl
@[simp] theorem setFlag_snaps (f : Fld) (b : Bool) (s : State) : (setFlag f b s).snaps = s.snaps := rfl
@[simp] theorem setFlag_evlog (f : Fld) (b : Bool) (s : State) : (setFlag f b s).evlog = s.evlog := rfl
@[simp] theorem setFlag_evTick (f : Fld) (b : Bool) (s : State) : (setFlag f b s).evTick = s.evTick := rfl
@[simp] theorem setFlag_evIn (f : Fld) (b : Bool) (s : State) : (setFlag f b s).evIn = s.evIn := rfl
@[simp] theorem setFlag_satDue (f : Fld) (b : Bool) (s : State) : (setFlag f b s).satDue = s.satDue := rfl
@[simp] theorem setFlag_cfg (f : Fld) (b : Bool) (s : State) : (setFlag f b s).cfg = s.cfg := rfl
@[simp] theorem setFlag_shadow (f : Fld) (b : Bool) (s : State) : (setFlag f b s).shadow = s.shadow := rfl
@[simp] theorem setFlag_slots (f : Fld) (b : Bool) (s : State) : (setFlag f b s).slots = s.slots := rfl
@[simp] theorem setFlag_groups (f : Fld) (b : Bool) (s : State) : (setFlag f b s).groups = s.groups := rfl
@[simp] theorem setFlag_bank (f : Fld) (b : Bool) (s : State) : (setFlag f b s).bank = s.bank := rfl
@[simp] theorem setFlag_deep (f : Fld) (b : Bool) (s : State) : (setFlag f b s).deep = s.deep := rfl
@[simp] theorem setFlag_winLow (f : Fld) (b : Bool) (s : State) : (setFlag f b s).winLow = s.winLow := rfl
@[simp] theorem setFlag_fab (f : Fld) (b : Bool) (s : State) : (setFlag f b s).fab = s.fab := rfl
@[simp] theorem setFlag_cox (f : Fld) (b : Bool) (s : State) : (setFlag f b s).cox = s.cox := rfl
@[simp] theorem setFlag_net (f : Fld) (b : Bool) (s : State) : (setFlag f b s).net = s.net := rfl
@[simp] theorem setFlag_lnk (f : Fld) (b : Bool) (s : State) : (setFlag f b s).lnk = s.lnk := rfl
@[simp] theorem setFlag_hif (f : Fld) (b : Bool) (s : State) : (setFlag f b s).hif = s.hif := rfl
@[simp] theorem setFlag_dsp (f : Fld) (b : Bool) (s : State) : (setFlag f b s).dsp = s.dsp := rfl
@[simp] theorem setFlag_ldr (f : Fld) (b : Bool) (s : State) : (setFlag f b s).ldr = s.ldr := rfl
@[simp] theorem setFlag_scb (f : Fld) (b : Bool) (s : State) : (setFlag f b s).scb = s.scb := rfl
@[simp] theorem setFlag_trg (f : Fld) (b : Bool) (s : State) : (setFlag f b s).trg = s.trg := rfl
@[simp] theorem setFlag_trc (f : Fld) (b : Bool) (s : State) : (setFlag f b s).trc = s.trc := rfl
@[simp] theorem setFlag_pwr (f : Fld) (b : Bool) (s : State) : (setFlag f b s).pwr = s.pwr := rfl
@[simp] theorem setFlag_pins (f : Fld) (b : Bool) (s : State) : (setFlag f b s).pins = s.pins := rfl
@[simp] theorem setFlag_jtag (f : Fld) (b : Bool) (s : State) : (setFlag f b s).jtag = s.jtag := rfl
@[simp] theorem setFlag_hlt (f : Fld) (b : Bool) (s : State) : (setFlag f b s).hlt = s.hlt := rfl
@[simp] theorem setFlag_fuses (f : Fld) (b : Bool) (s : State) : (setFlag f b s).fuses = s.fuses := rfl
@[simp] theorem setFlag_out (f : Fld) (b : Bool) (s : State) : (setFlag f b s).out = s.out := rfl
@[simp] theorem setFlag_free (f : Fld) (b : Bool) (s : State) : (setFlag f b s).free = s.free := rfl
@[simp] theorem setFlag_pending (f : Fld) (b : Bool) (s : State) : (setFlag f b s).pending = s.pending := rfl

/-! `setWide`. -/
@[simp] theorem setWide_regs (a : Nat) (v : BitVec 64) (s : State) : (setWide a v s).regs = s.regs := rfl
@[simp] theorem setWide_ctrs (a : Nat) (v : BitVec 64) (s : State) : (setWide a v s).ctrs = s.ctrs := rfl
@[simp] theorem setWide_snaps (a : Nat) (v : BitVec 64) (s : State) : (setWide a v s).snaps = s.snaps := rfl
@[simp] theorem setWide_evlog (a : Nat) (v : BitVec 64) (s : State) : (setWide a v s).evlog = s.evlog := rfl
@[simp] theorem setWide_evTick (a : Nat) (v : BitVec 64) (s : State) : (setWide a v s).evTick = s.evTick := rfl
@[simp] theorem setWide_evIn (a : Nat) (v : BitVec 64) (s : State) : (setWide a v s).evIn = s.evIn := rfl
@[simp] theorem setWide_satDue (a : Nat) (v : BitVec 64) (s : State) : (setWide a v s).satDue = s.satDue := rfl
@[simp] theorem setWide_cfg (a : Nat) (v : BitVec 64) (s : State) : (setWide a v s).cfg = s.cfg := rfl
@[simp] theorem setWide_shadow (a : Nat) (v : BitVec 64) (s : State) : (setWide a v s).shadow = s.shadow := rfl
@[simp] theorem setWide_slots (a : Nat) (v : BitVec 64) (s : State) : (setWide a v s).slots = s.slots := rfl
@[simp] theorem setWide_groups (a : Nat) (v : BitVec 64) (s : State) : (setWide a v s).groups = s.groups := rfl
@[simp] theorem setWide_bank (a : Nat) (v : BitVec 64) (s : State) : (setWide a v s).bank = s.bank := rfl
@[simp] theorem setWide_deep (a : Nat) (v : BitVec 64) (s : State) : (setWide a v s).deep = s.deep := rfl
@[simp] theorem setWide_winLow (a : Nat) (v : BitVec 64) (s : State) : (setWide a v s).winLow = s.winLow := rfl
@[simp] theorem setWide_fab (a : Nat) (v : BitVec 64) (s : State) : (setWide a v s).fab = s.fab := rfl
@[simp] theorem setWide_cox (a : Nat) (v : BitVec 64) (s : State) : (setWide a v s).cox = s.cox := rfl
@[simp] theorem setWide_net (a : Nat) (v : BitVec 64) (s : State) : (setWide a v s).net = s.net := rfl
@[simp] theorem setWide_lnk (a : Nat) (v : BitVec 64) (s : State) : (setWide a v s).lnk = s.lnk := rfl
@[simp] theorem setWide_hif (a : Nat) (v : BitVec 64) (s : State) : (setWide a v s).hif = s.hif := rfl
@[simp] theorem setWide_dsp (a : Nat) (v : BitVec 64) (s : State) : (setWide a v s).dsp = s.dsp := rfl
@[simp] theorem setWide_ldr (a : Nat) (v : BitVec 64) (s : State) : (setWide a v s).ldr = s.ldr := rfl
@[simp] theorem setWide_scb (a : Nat) (v : BitVec 64) (s : State) : (setWide a v s).scb = s.scb := rfl
@[simp] theorem setWide_trg (a : Nat) (v : BitVec 64) (s : State) : (setWide a v s).trg = s.trg := rfl
@[simp] theorem setWide_trc (a : Nat) (v : BitVec 64) (s : State) : (setWide a v s).trc = s.trc := rfl
@[simp] theorem setWide_pwr (a : Nat) (v : BitVec 64) (s : State) : (setWide a v s).pwr = s.pwr := rfl
@[simp] theorem setWide_pins (a : Nat) (v : BitVec 64) (s : State) : (setWide a v s).pins = s.pins := rfl
@[simp] theorem setWide_jtag (a : Nat) (v : BitVec 64) (s : State) : (setWide a v s).jtag = s.jtag := rfl
@[simp] theorem setWide_hlt (a : Nat) (v : BitVec 64) (s : State) : (setWide a v s).hlt = s.hlt := rfl
@[simp] theorem setWide_fuses (a : Nat) (v : BitVec 64) (s : State) : (setWide a v s).fuses = s.fuses := rfl
@[simp] theorem setWide_out (a : Nat) (v : BitVec 64) (s : State) : (setWide a v s).out = s.out := rfl
@[simp] theorem setWide_free (a : Nat) (v : BitVec 64) (s : State) : (setWide a v s).free = s.free := rfl
@[simp] theorem setWide_pending (a : Nat) (v : BitVec 64) (s : State) : (setWide a v s).pending = s.pending := rfl

/-! `emit`. -/
@[simp] theorem emit_regs (o : Out) (s : State) : (emit o s).regs = s.regs := rfl
@[simp] theorem emit_ctrs (o : Out) (s : State) : (emit o s).ctrs = s.ctrs := rfl
@[simp] theorem emit_wide (o : Out) (s : State) : (emit o s).wide = s.wide := rfl
@[simp] theorem emit_snaps (o : Out) (s : State) : (emit o s).snaps = s.snaps := rfl
@[simp] theorem emit_evlog (o : Out) (s : State) : (emit o s).evlog = s.evlog := rfl
@[simp] theorem emit_evTick (o : Out) (s : State) : (emit o s).evTick = s.evTick := rfl
@[simp] theorem emit_evIn (o : Out) (s : State) : (emit o s).evIn = s.evIn := rfl
@[simp] theorem emit_satDue (o : Out) (s : State) : (emit o s).satDue = s.satDue := rfl
@[simp] theorem emit_cfg (o : Out) (s : State) : (emit o s).cfg = s.cfg := rfl
@[simp] theorem emit_shadow (o : Out) (s : State) : (emit o s).shadow = s.shadow := rfl
@[simp] theorem emit_slots (o : Out) (s : State) : (emit o s).slots = s.slots := rfl
@[simp] theorem emit_groups (o : Out) (s : State) : (emit o s).groups = s.groups := rfl
@[simp] theorem emit_bank (o : Out) (s : State) : (emit o s).bank = s.bank := rfl
@[simp] theorem emit_deep (o : Out) (s : State) : (emit o s).deep = s.deep := rfl
@[simp] theorem emit_winLow (o : Out) (s : State) : (emit o s).winLow = s.winLow := rfl
@[simp] theorem emit_fab (o : Out) (s : State) : (emit o s).fab = s.fab := rfl
@[simp] theorem emit_cox (o : Out) (s : State) : (emit o s).cox = s.cox := rfl
@[simp] theorem emit_net (o : Out) (s : State) : (emit o s).net = s.net := rfl
@[simp] theorem emit_lnk (o : Out) (s : State) : (emit o s).lnk = s.lnk := rfl
@[simp] theorem emit_hif (o : Out) (s : State) : (emit o s).hif = s.hif := rfl
@[simp] theorem emit_dsp (o : Out) (s : State) : (emit o s).dsp = s.dsp := rfl
@[simp] theorem emit_ldr (o : Out) (s : State) : (emit o s).ldr = s.ldr := rfl
@[simp] theorem emit_scb (o : Out) (s : State) : (emit o s).scb = s.scb := rfl
@[simp] theorem emit_trg (o : Out) (s : State) : (emit o s).trg = s.trg := rfl
@[simp] theorem emit_trc (o : Out) (s : State) : (emit o s).trc = s.trc := rfl
@[simp] theorem emit_pwr (o : Out) (s : State) : (emit o s).pwr = s.pwr := rfl
@[simp] theorem emit_pins (o : Out) (s : State) : (emit o s).pins = s.pins := rfl
@[simp] theorem emit_jtag (o : Out) (s : State) : (emit o s).jtag = s.jtag := rfl
@[simp] theorem emit_hlt (o : Out) (s : State) : (emit o s).hlt = s.hlt := rfl
@[simp] theorem emit_fuses (o : Out) (s : State) : (emit o s).fuses = s.fuses := rfl
@[simp] theorem emit_free (o : Out) (s : State) : (emit o s).free = s.free := rfl
@[simp] theorem emit_pending (o : Out) (s : State) : (emit o s).pending = s.pending := rfl

/-! `draw`. -/
@[simp] theorem draw_regs (s : State) : (draw s).regs = s.regs := rfl
@[simp] theorem draw_ctrs (s : State) : (draw s).ctrs = s.ctrs := rfl
@[simp] theorem draw_wide (s : State) : (draw s).wide = s.wide := rfl
@[simp] theorem draw_snaps (s : State) : (draw s).snaps = s.snaps := rfl
@[simp] theorem draw_evlog (s : State) : (draw s).evlog = s.evlog := rfl
@[simp] theorem draw_evTick (s : State) : (draw s).evTick = s.evTick := rfl
@[simp] theorem draw_evIn (s : State) : (draw s).evIn = s.evIn := rfl
@[simp] theorem draw_satDue (s : State) : (draw s).satDue = s.satDue := rfl
@[simp] theorem draw_cfg (s : State) : (draw s).cfg = s.cfg := rfl
@[simp] theorem draw_shadow (s : State) : (draw s).shadow = s.shadow := rfl
@[simp] theorem draw_slots (s : State) : (draw s).slots = s.slots := rfl
@[simp] theorem draw_groups (s : State) : (draw s).groups = s.groups := rfl
@[simp] theorem draw_bank (s : State) : (draw s).bank = s.bank := rfl
@[simp] theorem draw_deep (s : State) : (draw s).deep = s.deep := rfl
@[simp] theorem draw_winLow (s : State) : (draw s).winLow = s.winLow := rfl
@[simp] theorem draw_fab (s : State) : (draw s).fab = s.fab := rfl
@[simp] theorem draw_cox (s : State) : (draw s).cox = s.cox := rfl
@[simp] theorem draw_net (s : State) : (draw s).net = s.net := rfl
@[simp] theorem draw_lnk (s : State) : (draw s).lnk = s.lnk := rfl
@[simp] theorem draw_hif (s : State) : (draw s).hif = s.hif := rfl
@[simp] theorem draw_dsp (s : State) : (draw s).dsp = s.dsp := rfl
@[simp] theorem draw_ldr (s : State) : (draw s).ldr = s.ldr := rfl
@[simp] theorem draw_scb (s : State) : (draw s).scb = s.scb := rfl
@[simp] theorem draw_trg (s : State) : (draw s).trg = s.trg := rfl
@[simp] theorem draw_trc (s : State) : (draw s).trc = s.trc := rfl
@[simp] theorem draw_pwr (s : State) : (draw s).pwr = s.pwr := rfl
@[simp] theorem draw_pins (s : State) : (draw s).pins = s.pins := rfl
@[simp] theorem draw_jtag (s : State) : (draw s).jtag = s.jtag := rfl
@[simp] theorem draw_hlt (s : State) : (draw s).hlt = s.hlt := rfl
@[simp] theorem draw_fuses (s : State) : (draw s).fuses = s.fuses := rfl
@[simp] theorem draw_out (s : State) : (draw s).out = s.out := rfl
@[simp] theorem draw_pending (s : State) : (draw s).pending = s.pending := rfl

/-! `setCfg`. -/
@[simp] theorem setCfg_regs (k : Nat) (d : BitVec 64) (s : State) : (setCfg k d s).regs = s.regs := rfl
@[simp] theorem setCfg_ctrs (k : Nat) (d : BitVec 64) (s : State) : (setCfg k d s).ctrs = s.ctrs := rfl
@[simp] theorem setCfg_wide (k : Nat) (d : BitVec 64) (s : State) : (setCfg k d s).wide = s.wide := rfl
@[simp] theorem setCfg_snaps (k : Nat) (d : BitVec 64) (s : State) : (setCfg k d s).snaps = s.snaps := rfl
@[simp] theorem setCfg_evlog (k : Nat) (d : BitVec 64) (s : State) : (setCfg k d s).evlog = s.evlog := rfl
@[simp] theorem setCfg_evTick (k : Nat) (d : BitVec 64) (s : State) : (setCfg k d s).evTick = s.evTick := rfl
@[simp] theorem setCfg_evIn (k : Nat) (d : BitVec 64) (s : State) : (setCfg k d s).evIn = s.evIn := rfl
@[simp] theorem setCfg_satDue (k : Nat) (d : BitVec 64) (s : State) : (setCfg k d s).satDue = s.satDue := rfl
@[simp] theorem setCfg_shadow (k : Nat) (d : BitVec 64) (s : State) : (setCfg k d s).shadow = s.shadow := rfl
@[simp] theorem setCfg_slots (k : Nat) (d : BitVec 64) (s : State) : (setCfg k d s).slots = s.slots := rfl
@[simp] theorem setCfg_groups (k : Nat) (d : BitVec 64) (s : State) : (setCfg k d s).groups = s.groups := rfl
@[simp] theorem setCfg_bank (k : Nat) (d : BitVec 64) (s : State) : (setCfg k d s).bank = s.bank := rfl
@[simp] theorem setCfg_deep (k : Nat) (d : BitVec 64) (s : State) : (setCfg k d s).deep = s.deep := rfl
@[simp] theorem setCfg_winLow (k : Nat) (d : BitVec 64) (s : State) : (setCfg k d s).winLow = s.winLow := rfl
@[simp] theorem setCfg_fab (k : Nat) (d : BitVec 64) (s : State) : (setCfg k d s).fab = s.fab := rfl
@[simp] theorem setCfg_cox (k : Nat) (d : BitVec 64) (s : State) : (setCfg k d s).cox = s.cox := rfl
@[simp] theorem setCfg_net (k : Nat) (d : BitVec 64) (s : State) : (setCfg k d s).net = s.net := rfl
@[simp] theorem setCfg_lnk (k : Nat) (d : BitVec 64) (s : State) : (setCfg k d s).lnk = s.lnk := rfl
@[simp] theorem setCfg_hif (k : Nat) (d : BitVec 64) (s : State) : (setCfg k d s).hif = s.hif := rfl
@[simp] theorem setCfg_dsp (k : Nat) (d : BitVec 64) (s : State) : (setCfg k d s).dsp = s.dsp := rfl
@[simp] theorem setCfg_ldr (k : Nat) (d : BitVec 64) (s : State) : (setCfg k d s).ldr = s.ldr := rfl
@[simp] theorem setCfg_scb (k : Nat) (d : BitVec 64) (s : State) : (setCfg k d s).scb = s.scb := rfl
@[simp] theorem setCfg_trg (k : Nat) (d : BitVec 64) (s : State) : (setCfg k d s).trg = s.trg := rfl
@[simp] theorem setCfg_trc (k : Nat) (d : BitVec 64) (s : State) : (setCfg k d s).trc = s.trc := rfl
@[simp] theorem setCfg_pwr (k : Nat) (d : BitVec 64) (s : State) : (setCfg k d s).pwr = s.pwr := rfl
@[simp] theorem setCfg_pins (k : Nat) (d : BitVec 64) (s : State) : (setCfg k d s).pins = s.pins := rfl
@[simp] theorem setCfg_jtag (k : Nat) (d : BitVec 64) (s : State) : (setCfg k d s).jtag = s.jtag := rfl
@[simp] theorem setCfg_hlt (k : Nat) (d : BitVec 64) (s : State) : (setCfg k d s).hlt = s.hlt := rfl
@[simp] theorem setCfg_fuses (k : Nat) (d : BitVec 64) (s : State) : (setCfg k d s).fuses = s.fuses := rfl
@[simp] theorem setCfg_out (k : Nat) (d : BitVec 64) (s : State) : (setCfg k d s).out = s.out := rfl
@[simp] theorem setCfg_free (k : Nat) (d : BitVec 64) (s : State) : (setCfg k d s).free = s.free := rfl
@[simp] theorem setCfg_pending (k : Nat) (d : BitVec 64) (s : State) : (setCfg k d s).pending = s.pending := rfl

/-! `setSlot`. -/
@[simp] theorem setSlot_regs (p c b j : Nat) (v : BitVec 2) (s : State) : (setSlot p c b j v s).regs = s.regs := rfl
@[simp] theorem setSlot_ctrs (p c b j : Nat) (v : BitVec 2) (s : State) : (setSlot p c b j v s).ctrs = s.ctrs := rfl
@[simp] theorem setSlot_wide (p c b j : Nat) (v : BitVec 2) (s : State) : (setSlot p c b j v s).wide = s.wide := rfl
@[simp] theorem setSlot_snaps (p c b j : Nat) (v : BitVec 2) (s : State) : (setSlot p c b j v s).snaps = s.snaps := rfl
@[simp] theorem setSlot_evlog (p c b j : Nat) (v : BitVec 2) (s : State) : (setSlot p c b j v s).evlog = s.evlog := rfl
@[simp] theorem setSlot_evTick (p c b j : Nat) (v : BitVec 2) (s : State) : (setSlot p c b j v s).evTick = s.evTick := rfl
@[simp] theorem setSlot_evIn (p c b j : Nat) (v : BitVec 2) (s : State) : (setSlot p c b j v s).evIn = s.evIn := rfl
@[simp] theorem setSlot_satDue (p c b j : Nat) (v : BitVec 2) (s : State) : (setSlot p c b j v s).satDue = s.satDue := rfl
@[simp] theorem setSlot_cfg (p c b j : Nat) (v : BitVec 2) (s : State) : (setSlot p c b j v s).cfg = s.cfg := rfl
@[simp] theorem setSlot_shadow (p c b j : Nat) (v : BitVec 2) (s : State) : (setSlot p c b j v s).shadow = s.shadow := rfl
@[simp] theorem setSlot_groups (p c b j : Nat) (v : BitVec 2) (s : State) : (setSlot p c b j v s).groups = s.groups := rfl
@[simp] theorem setSlot_bank (p c b j : Nat) (v : BitVec 2) (s : State) : (setSlot p c b j v s).bank = s.bank := rfl
@[simp] theorem setSlot_deep (p c b j : Nat) (v : BitVec 2) (s : State) : (setSlot p c b j v s).deep = s.deep := rfl
@[simp] theorem setSlot_winLow (p c b j : Nat) (v : BitVec 2) (s : State) : (setSlot p c b j v s).winLow = s.winLow := rfl
@[simp] theorem setSlot_fab (p c b j : Nat) (v : BitVec 2) (s : State) : (setSlot p c b j v s).fab = s.fab := rfl
@[simp] theorem setSlot_cox (p c b j : Nat) (v : BitVec 2) (s : State) : (setSlot p c b j v s).cox = s.cox := rfl
@[simp] theorem setSlot_net (p c b j : Nat) (v : BitVec 2) (s : State) : (setSlot p c b j v s).net = s.net := rfl
@[simp] theorem setSlot_lnk (p c b j : Nat) (v : BitVec 2) (s : State) : (setSlot p c b j v s).lnk = s.lnk := rfl
@[simp] theorem setSlot_hif (p c b j : Nat) (v : BitVec 2) (s : State) : (setSlot p c b j v s).hif = s.hif := rfl
@[simp] theorem setSlot_dsp (p c b j : Nat) (v : BitVec 2) (s : State) : (setSlot p c b j v s).dsp = s.dsp := rfl
@[simp] theorem setSlot_ldr (p c b j : Nat) (v : BitVec 2) (s : State) : (setSlot p c b j v s).ldr = s.ldr := rfl
@[simp] theorem setSlot_scb (p c b j : Nat) (v : BitVec 2) (s : State) : (setSlot p c b j v s).scb = s.scb := rfl
@[simp] theorem setSlot_trg (p c b j : Nat) (v : BitVec 2) (s : State) : (setSlot p c b j v s).trg = s.trg := rfl
@[simp] theorem setSlot_trc (p c b j : Nat) (v : BitVec 2) (s : State) : (setSlot p c b j v s).trc = s.trc := rfl
@[simp] theorem setSlot_pwr (p c b j : Nat) (v : BitVec 2) (s : State) : (setSlot p c b j v s).pwr = s.pwr := rfl
@[simp] theorem setSlot_pins (p c b j : Nat) (v : BitVec 2) (s : State) : (setSlot p c b j v s).pins = s.pins := rfl
@[simp] theorem setSlot_jtag (p c b j : Nat) (v : BitVec 2) (s : State) : (setSlot p c b j v s).jtag = s.jtag := rfl
@[simp] theorem setSlot_hlt (p c b j : Nat) (v : BitVec 2) (s : State) : (setSlot p c b j v s).hlt = s.hlt := rfl
@[simp] theorem setSlot_fuses (p c b j : Nat) (v : BitVec 2) (s : State) : (setSlot p c b j v s).fuses = s.fuses := rfl
@[simp] theorem setSlot_out (p c b j : Nat) (v : BitVec 2) (s : State) : (setSlot p c b j v s).out = s.out := rfl
@[simp] theorem setSlot_free (p c b j : Nat) (v : BitVec 2) (s : State) : (setSlot p c b j v s).free = s.free := rfl
@[simp] theorem setSlot_pending (p c b j : Nat) (v : BitVec 2) (s : State) : (setSlot p c b j v s).pending = s.pending := rfl

/-! `setBankCw`. -/
@[simp] theorem setBankCw_regs (k : Nat) (v : BitVec 72) (s : State) : (setBankCw k v s).regs = s.regs := rfl
@[simp] theorem setBankCw_ctrs (k : Nat) (v : BitVec 72) (s : State) : (setBankCw k v s).ctrs = s.ctrs := rfl
@[simp] theorem setBankCw_wide (k : Nat) (v : BitVec 72) (s : State) : (setBankCw k v s).wide = s.wide := rfl
@[simp] theorem setBankCw_snaps (k : Nat) (v : BitVec 72) (s : State) : (setBankCw k v s).snaps = s.snaps := rfl
@[simp] theorem setBankCw_evlog (k : Nat) (v : BitVec 72) (s : State) : (setBankCw k v s).evlog = s.evlog := rfl
@[simp] theorem setBankCw_evTick (k : Nat) (v : BitVec 72) (s : State) : (setBankCw k v s).evTick = s.evTick := rfl
@[simp] theorem setBankCw_evIn (k : Nat) (v : BitVec 72) (s : State) : (setBankCw k v s).evIn = s.evIn := rfl
@[simp] theorem setBankCw_satDue (k : Nat) (v : BitVec 72) (s : State) : (setBankCw k v s).satDue = s.satDue := rfl
@[simp] theorem setBankCw_cfg (k : Nat) (v : BitVec 72) (s : State) : (setBankCw k v s).cfg = s.cfg := rfl
@[simp] theorem setBankCw_shadow (k : Nat) (v : BitVec 72) (s : State) : (setBankCw k v s).shadow = s.shadow := rfl
@[simp] theorem setBankCw_slots (k : Nat) (v : BitVec 72) (s : State) : (setBankCw k v s).slots = s.slots := rfl
@[simp] theorem setBankCw_groups (k : Nat) (v : BitVec 72) (s : State) : (setBankCw k v s).groups = s.groups := rfl
@[simp] theorem setBankCw_deep (k : Nat) (v : BitVec 72) (s : State) : (setBankCw k v s).deep = s.deep := rfl
@[simp] theorem setBankCw_winLow (k : Nat) (v : BitVec 72) (s : State) : (setBankCw k v s).winLow = s.winLow := rfl
@[simp] theorem setBankCw_fab (k : Nat) (v : BitVec 72) (s : State) : (setBankCw k v s).fab = s.fab := rfl
@[simp] theorem setBankCw_cox (k : Nat) (v : BitVec 72) (s : State) : (setBankCw k v s).cox = s.cox := rfl
@[simp] theorem setBankCw_net (k : Nat) (v : BitVec 72) (s : State) : (setBankCw k v s).net = s.net := rfl
@[simp] theorem setBankCw_lnk (k : Nat) (v : BitVec 72) (s : State) : (setBankCw k v s).lnk = s.lnk := rfl
@[simp] theorem setBankCw_hif (k : Nat) (v : BitVec 72) (s : State) : (setBankCw k v s).hif = s.hif := rfl
@[simp] theorem setBankCw_dsp (k : Nat) (v : BitVec 72) (s : State) : (setBankCw k v s).dsp = s.dsp := rfl
@[simp] theorem setBankCw_ldr (k : Nat) (v : BitVec 72) (s : State) : (setBankCw k v s).ldr = s.ldr := rfl
@[simp] theorem setBankCw_scb (k : Nat) (v : BitVec 72) (s : State) : (setBankCw k v s).scb = s.scb := rfl
@[simp] theorem setBankCw_trg (k : Nat) (v : BitVec 72) (s : State) : (setBankCw k v s).trg = s.trg := rfl
@[simp] theorem setBankCw_trc (k : Nat) (v : BitVec 72) (s : State) : (setBankCw k v s).trc = s.trc := rfl
@[simp] theorem setBankCw_pwr (k : Nat) (v : BitVec 72) (s : State) : (setBankCw k v s).pwr = s.pwr := rfl
@[simp] theorem setBankCw_pins (k : Nat) (v : BitVec 72) (s : State) : (setBankCw k v s).pins = s.pins := rfl
@[simp] theorem setBankCw_jtag (k : Nat) (v : BitVec 72) (s : State) : (setBankCw k v s).jtag = s.jtag := rfl
@[simp] theorem setBankCw_hlt (k : Nat) (v : BitVec 72) (s : State) : (setBankCw k v s).hlt = s.hlt := rfl
@[simp] theorem setBankCw_fuses (k : Nat) (v : BitVec 72) (s : State) : (setBankCw k v s).fuses = s.fuses := rfl
@[simp] theorem setBankCw_out (k : Nat) (v : BitVec 72) (s : State) : (setBankCw k v s).out = s.out := rfl
@[simp] theorem setBankCw_free (k : Nat) (v : BitVec 72) (s : State) : (setBankCw k v s).free = s.free := rfl
@[simp] theorem setBankCw_pending (k : Nat) (v : BitVec 72) (s : State) : (setBankCw k v s).pending = s.pending := rfl

/-! `setDeepCw`. -/
@[simp] theorem setDeepCw_regs (k : Nat) (v : BitVec 288) (s : State) : (setDeepCw k v s).regs = s.regs := rfl
@[simp] theorem setDeepCw_ctrs (k : Nat) (v : BitVec 288) (s : State) : (setDeepCw k v s).ctrs = s.ctrs := rfl
@[simp] theorem setDeepCw_wide (k : Nat) (v : BitVec 288) (s : State) : (setDeepCw k v s).wide = s.wide := rfl
@[simp] theorem setDeepCw_snaps (k : Nat) (v : BitVec 288) (s : State) : (setDeepCw k v s).snaps = s.snaps := rfl
@[simp] theorem setDeepCw_evlog (k : Nat) (v : BitVec 288) (s : State) : (setDeepCw k v s).evlog = s.evlog := rfl
@[simp] theorem setDeepCw_evTick (k : Nat) (v : BitVec 288) (s : State) : (setDeepCw k v s).evTick = s.evTick := rfl
@[simp] theorem setDeepCw_evIn (k : Nat) (v : BitVec 288) (s : State) : (setDeepCw k v s).evIn = s.evIn := rfl
@[simp] theorem setDeepCw_satDue (k : Nat) (v : BitVec 288) (s : State) : (setDeepCw k v s).satDue = s.satDue := rfl
@[simp] theorem setDeepCw_cfg (k : Nat) (v : BitVec 288) (s : State) : (setDeepCw k v s).cfg = s.cfg := rfl
@[simp] theorem setDeepCw_shadow (k : Nat) (v : BitVec 288) (s : State) : (setDeepCw k v s).shadow = s.shadow := rfl
@[simp] theorem setDeepCw_slots (k : Nat) (v : BitVec 288) (s : State) : (setDeepCw k v s).slots = s.slots := rfl
@[simp] theorem setDeepCw_groups (k : Nat) (v : BitVec 288) (s : State) : (setDeepCw k v s).groups = s.groups := rfl
@[simp] theorem setDeepCw_bank (k : Nat) (v : BitVec 288) (s : State) : (setDeepCw k v s).bank = s.bank := rfl
@[simp] theorem setDeepCw_winLow (k : Nat) (v : BitVec 288) (s : State) : (setDeepCw k v s).winLow = s.winLow := rfl
@[simp] theorem setDeepCw_fab (k : Nat) (v : BitVec 288) (s : State) : (setDeepCw k v s).fab = s.fab := rfl
@[simp] theorem setDeepCw_cox (k : Nat) (v : BitVec 288) (s : State) : (setDeepCw k v s).cox = s.cox := rfl
@[simp] theorem setDeepCw_net (k : Nat) (v : BitVec 288) (s : State) : (setDeepCw k v s).net = s.net := rfl
@[simp] theorem setDeepCw_lnk (k : Nat) (v : BitVec 288) (s : State) : (setDeepCw k v s).lnk = s.lnk := rfl
@[simp] theorem setDeepCw_hif (k : Nat) (v : BitVec 288) (s : State) : (setDeepCw k v s).hif = s.hif := rfl
@[simp] theorem setDeepCw_dsp (k : Nat) (v : BitVec 288) (s : State) : (setDeepCw k v s).dsp = s.dsp := rfl
@[simp] theorem setDeepCw_ldr (k : Nat) (v : BitVec 288) (s : State) : (setDeepCw k v s).ldr = s.ldr := rfl
@[simp] theorem setDeepCw_scb (k : Nat) (v : BitVec 288) (s : State) : (setDeepCw k v s).scb = s.scb := rfl
@[simp] theorem setDeepCw_trg (k : Nat) (v : BitVec 288) (s : State) : (setDeepCw k v s).trg = s.trg := rfl
@[simp] theorem setDeepCw_trc (k : Nat) (v : BitVec 288) (s : State) : (setDeepCw k v s).trc = s.trc := rfl
@[simp] theorem setDeepCw_pwr (k : Nat) (v : BitVec 288) (s : State) : (setDeepCw k v s).pwr = s.pwr := rfl
@[simp] theorem setDeepCw_pins (k : Nat) (v : BitVec 288) (s : State) : (setDeepCw k v s).pins = s.pins := rfl
@[simp] theorem setDeepCw_jtag (k : Nat) (v : BitVec 288) (s : State) : (setDeepCw k v s).jtag = s.jtag := rfl
@[simp] theorem setDeepCw_hlt (k : Nat) (v : BitVec 288) (s : State) : (setDeepCw k v s).hlt = s.hlt := rfl
@[simp] theorem setDeepCw_fuses (k : Nat) (v : BitVec 288) (s : State) : (setDeepCw k v s).fuses = s.fuses := rfl
@[simp] theorem setDeepCw_out (k : Nat) (v : BitVec 288) (s : State) : (setDeepCw k v s).out = s.out := rfl
@[simp] theorem setDeepCw_free (k : Nat) (v : BitVec 288) (s : State) : (setDeepCw k v s).free = s.free := rfl
@[simp] theorem setDeepCw_pending (k : Nat) (v : BitVec 288) (s : State) : (setDeepCw k v s).pending = s.pending := rfl

/-! `cancelBack`. -/
@[simp] theorem cancelBack_regs (d : Bool) (k : Nat) (s : State) : (cancelBack d k s).regs = s.regs := rfl
@[simp] theorem cancelBack_ctrs (d : Bool) (k : Nat) (s : State) : (cancelBack d k s).ctrs = s.ctrs := rfl
@[simp] theorem cancelBack_wide (d : Bool) (k : Nat) (s : State) : (cancelBack d k s).wide = s.wide := rfl
@[simp] theorem cancelBack_snaps (d : Bool) (k : Nat) (s : State) : (cancelBack d k s).snaps = s.snaps := rfl
@[simp] theorem cancelBack_evlog (d : Bool) (k : Nat) (s : State) : (cancelBack d k s).evlog = s.evlog := rfl
@[simp] theorem cancelBack_evTick (d : Bool) (k : Nat) (s : State) : (cancelBack d k s).evTick = s.evTick := rfl
@[simp] theorem cancelBack_evIn (d : Bool) (k : Nat) (s : State) : (cancelBack d k s).evIn = s.evIn := rfl
@[simp] theorem cancelBack_satDue (d : Bool) (k : Nat) (s : State) : (cancelBack d k s).satDue = s.satDue := rfl
@[simp] theorem cancelBack_cfg (d : Bool) (k : Nat) (s : State) : (cancelBack d k s).cfg = s.cfg := rfl
@[simp] theorem cancelBack_shadow (d : Bool) (k : Nat) (s : State) : (cancelBack d k s).shadow = s.shadow := rfl
@[simp] theorem cancelBack_slots (d : Bool) (k : Nat) (s : State) : (cancelBack d k s).slots = s.slots := rfl
@[simp] theorem cancelBack_groups (d : Bool) (k : Nat) (s : State) : (cancelBack d k s).groups = s.groups := rfl
@[simp] theorem cancelBack_bank (d : Bool) (k : Nat) (s : State) : (cancelBack d k s).bank = s.bank := rfl
@[simp] theorem cancelBack_deep (d : Bool) (k : Nat) (s : State) : (cancelBack d k s).deep = s.deep := rfl
@[simp] theorem cancelBack_winLow (d : Bool) (k : Nat) (s : State) : (cancelBack d k s).winLow = s.winLow := rfl
@[simp] theorem cancelBack_cox (d : Bool) (k : Nat) (s : State) : (cancelBack d k s).cox = s.cox := rfl
@[simp] theorem cancelBack_net (d : Bool) (k : Nat) (s : State) : (cancelBack d k s).net = s.net := rfl
@[simp] theorem cancelBack_lnk (d : Bool) (k : Nat) (s : State) : (cancelBack d k s).lnk = s.lnk := rfl
@[simp] theorem cancelBack_hif (d : Bool) (k : Nat) (s : State) : (cancelBack d k s).hif = s.hif := rfl
@[simp] theorem cancelBack_dsp (d : Bool) (k : Nat) (s : State) : (cancelBack d k s).dsp = s.dsp := rfl
@[simp] theorem cancelBack_ldr (d : Bool) (k : Nat) (s : State) : (cancelBack d k s).ldr = s.ldr := rfl
@[simp] theorem cancelBack_scb (d : Bool) (k : Nat) (s : State) : (cancelBack d k s).scb = s.scb := rfl
@[simp] theorem cancelBack_trg (d : Bool) (k : Nat) (s : State) : (cancelBack d k s).trg = s.trg := rfl
@[simp] theorem cancelBack_trc (d : Bool) (k : Nat) (s : State) : (cancelBack d k s).trc = s.trc := rfl
@[simp] theorem cancelBack_pwr (d : Bool) (k : Nat) (s : State) : (cancelBack d k s).pwr = s.pwr := rfl
@[simp] theorem cancelBack_pins (d : Bool) (k : Nat) (s : State) : (cancelBack d k s).pins = s.pins := rfl
@[simp] theorem cancelBack_jtag (d : Bool) (k : Nat) (s : State) : (cancelBack d k s).jtag = s.jtag := rfl
@[simp] theorem cancelBack_hlt (d : Bool) (k : Nat) (s : State) : (cancelBack d k s).hlt = s.hlt := rfl
@[simp] theorem cancelBack_fuses (d : Bool) (k : Nat) (s : State) : (cancelBack d k s).fuses = s.fuses := rfl
@[simp] theorem cancelBack_out (d : Bool) (k : Nat) (s : State) : (cancelBack d k s).out = s.out := rfl
@[simp] theorem cancelBack_free (d : Bool) (k : Nat) (s : State) : (cancelBack d k s).free = s.free := rfl
@[simp] theorem cancelBack_pending (d : Bool) (k : Nat) (s : State) : (cancelBack d k s).pending = s.pending := rfl

/-! `setPort`. -/
@[simp] theorem setPort_regs (p : Nat) (st : NetState) (s : State) : (setPort p st s).regs = s.regs := rfl
@[simp] theorem setPort_ctrs (p : Nat) (st : NetState) (s : State) : (setPort p st s).ctrs = s.ctrs := rfl
@[simp] theorem setPort_wide (p : Nat) (st : NetState) (s : State) : (setPort p st s).wide = s.wide := rfl
@[simp] theorem setPort_snaps (p : Nat) (st : NetState) (s : State) : (setPort p st s).snaps = s.snaps := rfl
@[simp] theorem setPort_evlog (p : Nat) (st : NetState) (s : State) : (setPort p st s).evlog = s.evlog := rfl
@[simp] theorem setPort_evTick (p : Nat) (st : NetState) (s : State) : (setPort p st s).evTick = s.evTick := rfl
@[simp] theorem setPort_evIn (p : Nat) (st : NetState) (s : State) : (setPort p st s).evIn = s.evIn := rfl
@[simp] theorem setPort_satDue (p : Nat) (st : NetState) (s : State) : (setPort p st s).satDue = s.satDue := rfl
@[simp] theorem setPort_cfg (p : Nat) (st : NetState) (s : State) : (setPort p st s).cfg = s.cfg := rfl
@[simp] theorem setPort_shadow (p : Nat) (st : NetState) (s : State) : (setPort p st s).shadow = s.shadow := rfl
@[simp] theorem setPort_slots (p : Nat) (st : NetState) (s : State) : (setPort p st s).slots = s.slots := rfl
@[simp] theorem setPort_groups (p : Nat) (st : NetState) (s : State) : (setPort p st s).groups = s.groups := rfl
@[simp] theorem setPort_bank (p : Nat) (st : NetState) (s : State) : (setPort p st s).bank = s.bank := rfl
@[simp] theorem setPort_deep (p : Nat) (st : NetState) (s : State) : (setPort p st s).deep = s.deep := rfl
@[simp] theorem setPort_winLow (p : Nat) (st : NetState) (s : State) : (setPort p st s).winLow = s.winLow := rfl
@[simp] theorem setPort_fab (p : Nat) (st : NetState) (s : State) : (setPort p st s).fab = s.fab := rfl
@[simp] theorem setPort_cox (p : Nat) (st : NetState) (s : State) : (setPort p st s).cox = s.cox := rfl
@[simp] theorem setPort_lnk (p : Nat) (st : NetState) (s : State) : (setPort p st s).lnk = s.lnk := rfl
@[simp] theorem setPort_hif (p : Nat) (st : NetState) (s : State) : (setPort p st s).hif = s.hif := rfl
@[simp] theorem setPort_dsp (p : Nat) (st : NetState) (s : State) : (setPort p st s).dsp = s.dsp := rfl
@[simp] theorem setPort_ldr (p : Nat) (st : NetState) (s : State) : (setPort p st s).ldr = s.ldr := rfl
@[simp] theorem setPort_scb (p : Nat) (st : NetState) (s : State) : (setPort p st s).scb = s.scb := rfl
@[simp] theorem setPort_trg (p : Nat) (st : NetState) (s : State) : (setPort p st s).trg = s.trg := rfl
@[simp] theorem setPort_trc (p : Nat) (st : NetState) (s : State) : (setPort p st s).trc = s.trc := rfl
@[simp] theorem setPort_pwr (p : Nat) (st : NetState) (s : State) : (setPort p st s).pwr = s.pwr := rfl
@[simp] theorem setPort_pins (p : Nat) (st : NetState) (s : State) : (setPort p st s).pins = s.pins := rfl
@[simp] theorem setPort_jtag (p : Nat) (st : NetState) (s : State) : (setPort p st s).jtag = s.jtag := rfl
@[simp] theorem setPort_hlt (p : Nat) (st : NetState) (s : State) : (setPort p st s).hlt = s.hlt := rfl
@[simp] theorem setPort_fuses (p : Nat) (st : NetState) (s : State) : (setPort p st s).fuses = s.fuses := rfl
@[simp] theorem setPort_out (p : Nat) (st : NetState) (s : State) : (setPort p st s).out = s.out := rfl
@[simp] theorem setPort_free (p : Nat) (st : NetState) (s : State) : (setPort p st s).free = s.free := rfl
@[simp] theorem setPort_pending (p : Nat) (st : NetState) (s : State) : (setPort p st s).pending = s.pending := rfl

/-! `setChan`. -/
@[simp] theorem setChan_regs (c : Nat) (x : ChanSt) (s : State) : (setChan c x s).regs = s.regs := rfl
@[simp] theorem setChan_ctrs (c : Nat) (x : ChanSt) (s : State) : (setChan c x s).ctrs = s.ctrs := rfl
@[simp] theorem setChan_wide (c : Nat) (x : ChanSt) (s : State) : (setChan c x s).wide = s.wide := rfl
@[simp] theorem setChan_snaps (c : Nat) (x : ChanSt) (s : State) : (setChan c x s).snaps = s.snaps := rfl
@[simp] theorem setChan_evlog (c : Nat) (x : ChanSt) (s : State) : (setChan c x s).evlog = s.evlog := rfl
@[simp] theorem setChan_evTick (c : Nat) (x : ChanSt) (s : State) : (setChan c x s).evTick = s.evTick := rfl
@[simp] theorem setChan_evIn (c : Nat) (x : ChanSt) (s : State) : (setChan c x s).evIn = s.evIn := rfl
@[simp] theorem setChan_satDue (c : Nat) (x : ChanSt) (s : State) : (setChan c x s).satDue = s.satDue := rfl
@[simp] theorem setChan_cfg (c : Nat) (x : ChanSt) (s : State) : (setChan c x s).cfg = s.cfg := rfl
@[simp] theorem setChan_shadow (c : Nat) (x : ChanSt) (s : State) : (setChan c x s).shadow = s.shadow := rfl
@[simp] theorem setChan_slots (c : Nat) (x : ChanSt) (s : State) : (setChan c x s).slots = s.slots := rfl
@[simp] theorem setChan_groups (c : Nat) (x : ChanSt) (s : State) : (setChan c x s).groups = s.groups := rfl
@[simp] theorem setChan_bank (c : Nat) (x : ChanSt) (s : State) : (setChan c x s).bank = s.bank := rfl
@[simp] theorem setChan_deep (c : Nat) (x : ChanSt) (s : State) : (setChan c x s).deep = s.deep := rfl
@[simp] theorem setChan_winLow (c : Nat) (x : ChanSt) (s : State) : (setChan c x s).winLow = s.winLow := rfl
@[simp] theorem setChan_fab (c : Nat) (x : ChanSt) (s : State) : (setChan c x s).fab = s.fab := rfl
@[simp] theorem setChan_cox (c : Nat) (x : ChanSt) (s : State) : (setChan c x s).cox = s.cox := rfl
@[simp] theorem setChan_net (c : Nat) (x : ChanSt) (s : State) : (setChan c x s).net = s.net := rfl
@[simp] theorem setChan_lnk (c : Nat) (x : ChanSt) (s : State) : (setChan c x s).lnk = s.lnk := rfl
@[simp] theorem setChan_dsp (c : Nat) (x : ChanSt) (s : State) : (setChan c x s).dsp = s.dsp := rfl
@[simp] theorem setChan_ldr (c : Nat) (x : ChanSt) (s : State) : (setChan c x s).ldr = s.ldr := rfl
@[simp] theorem setChan_scb (c : Nat) (x : ChanSt) (s : State) : (setChan c x s).scb = s.scb := rfl
@[simp] theorem setChan_trg (c : Nat) (x : ChanSt) (s : State) : (setChan c x s).trg = s.trg := rfl
@[simp] theorem setChan_trc (c : Nat) (x : ChanSt) (s : State) : (setChan c x s).trc = s.trc := rfl
@[simp] theorem setChan_pwr (c : Nat) (x : ChanSt) (s : State) : (setChan c x s).pwr = s.pwr := rfl
@[simp] theorem setChan_pins (c : Nat) (x : ChanSt) (s : State) : (setChan c x s).pins = s.pins := rfl
@[simp] theorem setChan_jtag (c : Nat) (x : ChanSt) (s : State) : (setChan c x s).jtag = s.jtag := rfl
@[simp] theorem setChan_hlt (c : Nat) (x : ChanSt) (s : State) : (setChan c x s).hlt = s.hlt := rfl
@[simp] theorem setChan_fuses (c : Nat) (x : ChanSt) (s : State) : (setChan c x s).fuses = s.fuses := rfl
@[simp] theorem setChan_out (c : Nat) (x : ChanSt) (s : State) : (setChan c x s).out = s.out := rfl
@[simp] theorem setChan_free (c : Nat) (x : ChanSt) (s : State) : (setChan c x s).free = s.free := rfl
@[simp] theorem setChan_pending (c : Nat) (x : ChanSt) (s : State) : (setChan c x s).pending = s.pending := rfl

/-! `setCredits`. -/
@[simp] theorem setCredits_regs (k n : Nat) (s : State) : (setCredits k n s).regs = s.regs := rfl
@[simp] theorem setCredits_ctrs (k n : Nat) (s : State) : (setCredits k n s).ctrs = s.ctrs := rfl
@[simp] theorem setCredits_wide (k n : Nat) (s : State) : (setCredits k n s).wide = s.wide := rfl
@[simp] theorem setCredits_snaps (k n : Nat) (s : State) : (setCredits k n s).snaps = s.snaps := rfl
@[simp] theorem setCredits_evlog (k n : Nat) (s : State) : (setCredits k n s).evlog = s.evlog := rfl
@[simp] theorem setCredits_evTick (k n : Nat) (s : State) : (setCredits k n s).evTick = s.evTick := rfl
@[simp] theorem setCredits_evIn (k n : Nat) (s : State) : (setCredits k n s).evIn = s.evIn := rfl
@[simp] theorem setCredits_satDue (k n : Nat) (s : State) : (setCredits k n s).satDue = s.satDue := rfl
@[simp] theorem setCredits_cfg (k n : Nat) (s : State) : (setCredits k n s).cfg = s.cfg := rfl
@[simp] theorem setCredits_shadow (k n : Nat) (s : State) : (setCredits k n s).shadow = s.shadow := rfl
@[simp] theorem setCredits_slots (k n : Nat) (s : State) : (setCredits k n s).slots = s.slots := rfl
@[simp] theorem setCredits_groups (k n : Nat) (s : State) : (setCredits k n s).groups = s.groups := rfl
@[simp] theorem setCredits_bank (k n : Nat) (s : State) : (setCredits k n s).bank = s.bank := rfl
@[simp] theorem setCredits_deep (k n : Nat) (s : State) : (setCredits k n s).deep = s.deep := rfl
@[simp] theorem setCredits_winLow (k n : Nat) (s : State) : (setCredits k n s).winLow = s.winLow := rfl
@[simp] theorem setCredits_fab (k n : Nat) (s : State) : (setCredits k n s).fab = s.fab := rfl
@[simp] theorem setCredits_cox (k n : Nat) (s : State) : (setCredits k n s).cox = s.cox := rfl
@[simp] theorem setCredits_net (k n : Nat) (s : State) : (setCredits k n s).net = s.net := rfl
@[simp] theorem setCredits_lnk (k n : Nat) (s : State) : (setCredits k n s).lnk = s.lnk := rfl
@[simp] theorem setCredits_hif (k n : Nat) (s : State) : (setCredits k n s).hif = s.hif := rfl
@[simp] theorem setCredits_ldr (k n : Nat) (s : State) : (setCredits k n s).ldr = s.ldr := rfl
@[simp] theorem setCredits_scb (k n : Nat) (s : State) : (setCredits k n s).scb = s.scb := rfl
@[simp] theorem setCredits_trg (k n : Nat) (s : State) : (setCredits k n s).trg = s.trg := rfl
@[simp] theorem setCredits_trc (k n : Nat) (s : State) : (setCredits k n s).trc = s.trc := rfl
@[simp] theorem setCredits_pwr (k n : Nat) (s : State) : (setCredits k n s).pwr = s.pwr := rfl
@[simp] theorem setCredits_pins (k n : Nat) (s : State) : (setCredits k n s).pins = s.pins := rfl
@[simp] theorem setCredits_jtag (k n : Nat) (s : State) : (setCredits k n s).jtag = s.jtag := rfl
@[simp] theorem setCredits_hlt (k n : Nat) (s : State) : (setCredits k n s).hlt = s.hlt := rfl
@[simp] theorem setCredits_fuses (k n : Nat) (s : State) : (setCredits k n s).fuses = s.fuses := rfl
@[simp] theorem setCredits_out (k n : Nat) (s : State) : (setCredits k n s).out = s.out := rfl
@[simp] theorem setCredits_free (k n : Nat) (s : State) : (setCredits k n s).free = s.free := rfl
@[simp] theorem setCredits_pending (k n : Nat) (s : State) : (setCredits k n s).pending = s.pending := rfl

/-! `setUnclaimed`. -/
@[simp] theorem setUnclaimed_regs (k n : Nat) (s : State) : (setUnclaimed k n s).regs = s.regs := rfl
@[simp] theorem setUnclaimed_ctrs (k n : Nat) (s : State) : (setUnclaimed k n s).ctrs = s.ctrs := rfl
@[simp] theorem setUnclaimed_wide (k n : Nat) (s : State) : (setUnclaimed k n s).wide = s.wide := rfl
@[simp] theorem setUnclaimed_snaps (k n : Nat) (s : State) : (setUnclaimed k n s).snaps = s.snaps := rfl
@[simp] theorem setUnclaimed_evlog (k n : Nat) (s : State) : (setUnclaimed k n s).evlog = s.evlog := rfl
@[simp] theorem setUnclaimed_evTick (k n : Nat) (s : State) : (setUnclaimed k n s).evTick = s.evTick := rfl
@[simp] theorem setUnclaimed_evIn (k n : Nat) (s : State) : (setUnclaimed k n s).evIn = s.evIn := rfl
@[simp] theorem setUnclaimed_satDue (k n : Nat) (s : State) : (setUnclaimed k n s).satDue = s.satDue := rfl
@[simp] theorem setUnclaimed_cfg (k n : Nat) (s : State) : (setUnclaimed k n s).cfg = s.cfg := rfl
@[simp] theorem setUnclaimed_shadow (k n : Nat) (s : State) : (setUnclaimed k n s).shadow = s.shadow := rfl
@[simp] theorem setUnclaimed_slots (k n : Nat) (s : State) : (setUnclaimed k n s).slots = s.slots := rfl
@[simp] theorem setUnclaimed_groups (k n : Nat) (s : State) : (setUnclaimed k n s).groups = s.groups := rfl
@[simp] theorem setUnclaimed_bank (k n : Nat) (s : State) : (setUnclaimed k n s).bank = s.bank := rfl
@[simp] theorem setUnclaimed_deep (k n : Nat) (s : State) : (setUnclaimed k n s).deep = s.deep := rfl
@[simp] theorem setUnclaimed_winLow (k n : Nat) (s : State) : (setUnclaimed k n s).winLow = s.winLow := rfl
@[simp] theorem setUnclaimed_fab (k n : Nat) (s : State) : (setUnclaimed k n s).fab = s.fab := rfl
@[simp] theorem setUnclaimed_cox (k n : Nat) (s : State) : (setUnclaimed k n s).cox = s.cox := rfl
@[simp] theorem setUnclaimed_net (k n : Nat) (s : State) : (setUnclaimed k n s).net = s.net := rfl
@[simp] theorem setUnclaimed_lnk (k n : Nat) (s : State) : (setUnclaimed k n s).lnk = s.lnk := rfl
@[simp] theorem setUnclaimed_hif (k n : Nat) (s : State) : (setUnclaimed k n s).hif = s.hif := rfl
@[simp] theorem setUnclaimed_ldr (k n : Nat) (s : State) : (setUnclaimed k n s).ldr = s.ldr := rfl
@[simp] theorem setUnclaimed_scb (k n : Nat) (s : State) : (setUnclaimed k n s).scb = s.scb := rfl
@[simp] theorem setUnclaimed_trg (k n : Nat) (s : State) : (setUnclaimed k n s).trg = s.trg := rfl
@[simp] theorem setUnclaimed_trc (k n : Nat) (s : State) : (setUnclaimed k n s).trc = s.trc := rfl
@[simp] theorem setUnclaimed_pwr (k n : Nat) (s : State) : (setUnclaimed k n s).pwr = s.pwr := rfl
@[simp] theorem setUnclaimed_pins (k n : Nat) (s : State) : (setUnclaimed k n s).pins = s.pins := rfl
@[simp] theorem setUnclaimed_jtag (k n : Nat) (s : State) : (setUnclaimed k n s).jtag = s.jtag := rfl
@[simp] theorem setUnclaimed_hlt (k n : Nat) (s : State) : (setUnclaimed k n s).hlt = s.hlt := rfl
@[simp] theorem setUnclaimed_fuses (k n : Nat) (s : State) : (setUnclaimed k n s).fuses = s.fuses := rfl
@[simp] theorem setUnclaimed_out (k n : Nat) (s : State) : (setUnclaimed k n s).out = s.out := rfl
@[simp] theorem setUnclaimed_free (k n : Nat) (s : State) : (setUnclaimed k n s).free = s.free := rfl
@[simp] theorem setUnclaimed_pending (k n : Nat) (s : State) : (setUnclaimed k n s).pending = s.pending := rfl

end Sys2Proof.Machine
end

