-- ==== Sys2Proof/Laws/Ops.lean ====
section
/-! SUPPORT. What the shared operations leave as it stands: one lemma per field of `State` that the operation does not
touch. Counting, logging and committing a packet change the register file (the log's pointer), the counters, the event log
and the trace queue, and nothing else. -/

namespace Sys2Proof.Machine

/-- A projection of a conditional change. -/
theorem iff_proj {α : Type} (g : State → α) (c : Bool) (f : State → State) (s : State) :
    g (iff c f s) = if c then g (f s) else g s := by unfold iff; split <;> rfl

@[simp] theorem iff_yes (f : State → State) (s : State) : iff true f s = f s := rfl
@[simp] theorem iff_no (f : State → State) (s : State) : iff false f s = s := rfl

/-! `bump`. -/
@[simp] theorem bump_regs (a n : Nat) (s : State) : (bump a n s).regs = s.regs := by unfold bump; dsimp only; split <;> rfl
@[simp] theorem bump_wide (a n : Nat) (s : State) : (bump a n s).wide = s.wide := by unfold bump; dsimp only; split <;> rfl
@[simp] theorem bump_snaps (a n : Nat) (s : State) : (bump a n s).snaps = s.snaps := by unfold bump; dsimp only; split <;> rfl
@[simp] theorem bump_evlog (a n : Nat) (s : State) : (bump a n s).evlog = s.evlog := by unfold bump; dsimp only; split <;> rfl
@[simp] theorem bump_evTick (a n : Nat) (s : State) : (bump a n s).evTick = s.evTick := by unfold bump; dsimp only; split <;> rfl
@[simp] theorem bump_evIn (a n : Nat) (s : State) : (bump a n s).evIn = s.evIn := by unfold bump; dsimp only; split <;> rfl
@[simp] theorem bump_cfg (a n : Nat) (s : State) : (bump a n s).cfg = s.cfg := by unfold bump; dsimp only; split <;> rfl
@[simp] theorem bump_shadow (a n : Nat) (s : State) : (bump a n s).shadow = s.shadow := by unfold bump; dsimp only; split <;> rfl
@[simp] theorem bump_slots (a n : Nat) (s : State) : (bump a n s).slots = s.slots := by unfold bump; dsimp only; split <;> rfl
@[simp] theorem bump_groups (a n : Nat) (s : State) : (bump a n s).groups = s.groups := by unfold bump; dsimp only; split <;> rfl
@[simp] theorem bump_bank (a n : Nat) (s : State) : (bump a n s).bank = s.bank := by unfold bump; dsimp only; split <;> rfl
@[simp] theorem bump_deep (a n : Nat) (s : State) : (bump a n s).deep = s.deep := by unfold bump; dsimp only; split <;> rfl
@[simp] theorem bump_winLow (a n : Nat) (s : State) : (bump a n s).winLow = s.winLow := by unfold bump; dsimp only; split <;> rfl
@[simp] theorem bump_fab (a n : Nat) (s : State) : (bump a n s).fab = s.fab := by unfold bump; dsimp only; split <;> rfl
@[simp] theorem bump_cox (a n : Nat) (s : State) : (bump a n s).cox = s.cox := by unfold bump; dsimp only; split <;> rfl
@[simp] theorem bump_net (a n : Nat) (s : State) : (bump a n s).net = s.net := by unfold bump; dsimp only; split <;> rfl
@[simp] theorem bump_lnk (a n : Nat) (s : State) : (bump a n s).lnk = s.lnk := by unfold bump; dsimp only; split <;> rfl
@[simp] theorem bump_hif (a n : Nat) (s : State) : (bump a n s).hif = s.hif := by unfold bump; dsimp only; split <;> rfl
@[simp] theorem bump_dsp (a n : Nat) (s : State) : (bump a n s).dsp = s.dsp := by unfold bump; dsimp only; split <;> rfl
@[simp] theorem bump_ldr (a n : Nat) (s : State) : (bump a n s).ldr = s.ldr := by unfold bump; dsimp only; split <;> rfl
@[simp] theorem bump_scb (a n : Nat) (s : State) : (bump a n s).scb = s.scb := by unfold bump; dsimp only; split <;> rfl
@[simp] theorem bump_trg (a n : Nat) (s : State) : (bump a n s).trg = s.trg := by unfold bump; dsimp only; split <;> rfl
@[simp] theorem bump_trc (a n : Nat) (s : State) : (bump a n s).trc = s.trc := by unfold bump; dsimp only; split <;> rfl
@[simp] theorem bump_pwr (a n : Nat) (s : State) : (bump a n s).pwr = s.pwr := by unfold bump; dsimp only; split <;> rfl
@[simp] theorem bump_pins (a n : Nat) (s : State) : (bump a n s).pins = s.pins := by unfold bump; dsimp only; split <;> rfl
@[simp] theorem bump_jtag (a n : Nat) (s : State) : (bump a n s).jtag = s.jtag := by unfold bump; dsimp only; split <;> rfl
@[simp] theorem bump_hlt (a n : Nat) (s : State) : (bump a n s).hlt = s.hlt := by unfold bump; dsimp only; split <;> rfl
@[simp] theorem bump_fuses (a n : Nat) (s : State) : (bump a n s).fuses = s.fuses := by unfold bump; dsimp only; split <;> rfl
@[simp] theorem bump_out (a n : Nat) (s : State) : (bump a n s).out = s.out := by unfold bump; dsimp only; split <;> rfl
@[simp] theorem bump_free (a n : Nat) (s : State) : (bump a n s).free = s.free := by unfold bump; dsimp only; split <;> rfl
@[simp] theorem bump_pending (a n : Nat) (s : State) : (bump a n s).pending = s.pending := by unfold bump; dsimp only; split <;> rfl

/-! `commit`. -/
@[simp] theorem commit_regs (t f o : BitVec 8) (ws : List (BitVec 64)) (s : State) : (commit t f o ws s).regs = s.regs := by unfold commit; split <;> rfl
@[simp] theorem commit_ctrs (t f o : BitVec 8) (ws : List (BitVec 64)) (s : State) : (commit t f o ws s).ctrs = s.ctrs := by unfold commit; split <;> rfl
@[simp] theorem commit_wide (t f o : BitVec 8) (ws : List (BitVec 64)) (s : State) : (commit t f o ws s).wide = s.wide := by unfold commit; split <;> rfl
@[simp] theorem commit_snaps (t f o : BitVec 8) (ws : List (BitVec 64)) (s : State) : (commit t f o ws s).snaps = s.snaps := by unfold commit; split <;> rfl
@[simp] theorem commit_evlog (t f o : BitVec 8) (ws : List (BitVec 64)) (s : State) : (commit t f o ws s).evlog = s.evlog := by unfold commit; split <;> rfl
@[simp] theorem commit_evTick (t f o : BitVec 8) (ws : List (BitVec 64)) (s : State) : (commit t f o ws s).evTick = s.evTick := by unfold commit; split <;> rfl
@[simp] theorem commit_evIn (t f o : BitVec 8) (ws : List (BitVec 64)) (s : State) : (commit t f o ws s).evIn = s.evIn := by unfold commit; split <;> rfl
@[simp] theorem commit_satDue (t f o : BitVec 8) (ws : List (BitVec 64)) (s : State) : (commit t f o ws s).satDue = s.satDue := by unfold commit; split <;> rfl
@[simp] theorem commit_cfg (t f o : BitVec 8) (ws : List (BitVec 64)) (s : State) : (commit t f o ws s).cfg = s.cfg := by unfold commit; split <;> rfl
@[simp] theorem commit_shadow (t f o : BitVec 8) (ws : List (BitVec 64)) (s : State) : (commit t f o ws s).shadow = s.shadow := by unfold commit; split <;> rfl
@[simp] theorem commit_slots (t f o : BitVec 8) (ws : List (BitVec 64)) (s : State) : (commit t f o ws s).slots = s.slots := by unfold commit; split <;> rfl
@[simp] theorem commit_groups (t f o : BitVec 8) (ws : List (BitVec 64)) (s : State) : (commit t f o ws s).groups = s.groups := by unfold commit; split <;> rfl
@[simp] theorem commit_bank (t f o : BitVec 8) (ws : List (BitVec 64)) (s : State) : (commit t f o ws s).bank = s.bank := by unfold commit; split <;> rfl
@[simp] theorem commit_deep (t f o : BitVec 8) (ws : List (BitVec 64)) (s : State) : (commit t f o ws s).deep = s.deep := by unfold commit; split <;> rfl
@[simp] theorem commit_winLow (t f o : BitVec 8) (ws : List (BitVec 64)) (s : State) : (commit t f o ws s).winLow = s.winLow := by unfold commit; split <;> rfl
@[simp] theorem commit_fab (t f o : BitVec 8) (ws : List (BitVec 64)) (s : State) : (commit t f o ws s).fab = s.fab := by unfold commit; split <;> rfl
@[simp] theorem commit_cox (t f o : BitVec 8) (ws : List (BitVec 64)) (s : State) : (commit t f o ws s).cox = s.cox := by unfold commit; split <;> rfl
@[simp] theorem commit_net (t f o : BitVec 8) (ws : List (BitVec 64)) (s : State) : (commit t f o ws s).net = s.net := by unfold commit; split <;> rfl
@[simp] theorem commit_lnk (t f o : BitVec 8) (ws : List (BitVec 64)) (s : State) : (commit t f o ws s).lnk = s.lnk := by unfold commit; split <;> rfl
@[simp] theorem commit_hif (t f o : BitVec 8) (ws : List (BitVec 64)) (s : State) : (commit t f o ws s).hif = s.hif := by unfold commit; split <;> rfl
@[simp] theorem commit_dsp (t f o : BitVec 8) (ws : List (BitVec 64)) (s : State) : (commit t f o ws s).dsp = s.dsp := by unfold commit; split <;> rfl
@[simp] theorem commit_ldr (t f o : BitVec 8) (ws : List (BitVec 64)) (s : State) : (commit t f o ws s).ldr = s.ldr := by unfold commit; split <;> rfl
@[simp] theorem commit_scb (t f o : BitVec 8) (ws : List (BitVec 64)) (s : State) : (commit t f o ws s).scb = s.scb := by unfold commit; split <;> rfl
@[simp] theorem commit_trg (t f o : BitVec 8) (ws : List (BitVec 64)) (s : State) : (commit t f o ws s).trg = s.trg := by unfold commit; split <;> rfl
@[simp] theorem commit_pwr (t f o : BitVec 8) (ws : List (BitVec 64)) (s : State) : (commit t f o ws s).pwr = s.pwr := by unfold commit; split <;> rfl
@[simp] theorem commit_pins (t f o : BitVec 8) (ws : List (BitVec 64)) (s : State) : (commit t f o ws s).pins = s.pins := by unfold commit; split <;> rfl
@[simp] theorem commit_jtag (t f o : BitVec 8) (ws : List (BitVec 64)) (s : State) : (commit t f o ws s).jtag = s.jtag := by unfold commit; split <;> rfl
@[simp] theorem commit_hlt (t f o : BitVec 8) (ws : List (BitVec 64)) (s : State) : (commit t f o ws s).hlt = s.hlt := by unfold commit; split <;> rfl
@[simp] theorem commit_fuses (t f o : BitVec 8) (ws : List (BitVec 64)) (s : State) : (commit t f o ws s).fuses = s.fuses := by unfold commit; split <;> rfl
@[simp] theorem commit_out (t f o : BitVec 8) (ws : List (BitVec 64)) (s : State) : (commit t f o ws s).out = s.out := by unfold commit; split <;> rfl
@[simp] theorem commit_free (t f o : BitVec 8) (ws : List (BitVec 64)) (s : State) : (commit t f o ws s).free = s.free := by unfold commit; split <;> rfl
@[simp] theorem commit_pending (t f o : BitVec 8) (ws : List (BitVec 64)) (s : State) : (commit t f o ws s).pending = s.pending := by unfold commit; split <;> rfl

/-! `commitSecure`. -/
@[simp] theorem commitSecure_regs (f : BitVec 8) (ws : List (BitVec 64)) (s : State) : (commitSecure f ws s).regs = s.regs := by unfold commitSecure; split <;> [simp; split] <;> simp
@[simp] theorem commitSecure_wide (f : BitVec 8) (ws : List (BitVec 64)) (s : State) : (commitSecure f ws s).wide = s.wide := by unfold commitSecure; split <;> [simp; split] <;> simp
@[simp] theorem commitSecure_snaps (f : BitVec 8) (ws : List (BitVec 64)) (s : State) : (commitSecure f ws s).snaps = s.snaps := by unfold commitSecure; split <;> [simp; split] <;> simp
@[simp] theorem commitSecure_evlog (f : BitVec 8) (ws : List (BitVec 64)) (s : State) : (commitSecure f ws s).evlog = s.evlog := by unfold commitSecure; split <;> [simp; split] <;> simp
@[simp] theorem commitSecure_evTick (f : BitVec 8) (ws : List (BitVec 64)) (s : State) : (commitSecure f ws s).evTick = s.evTick := by unfold commitSecure; split <;> [simp; split] <;> simp
@[simp] theorem commitSecure_evIn (f : BitVec 8) (ws : List (BitVec 64)) (s : State) : (commitSecure f ws s).evIn = s.evIn := by unfold commitSecure; split <;> [simp; split] <;> simp
@[simp] theorem commitSecure_cfg (f : BitVec 8) (ws : List (BitVec 64)) (s : State) : (commitSecure f ws s).cfg = s.cfg := by unfold commitSecure; split <;> [simp; split] <;> simp
@[simp] theorem commitSecure_shadow (f : BitVec 8) (ws : List (BitVec 64)) (s : State) : (commitSecure f ws s).shadow = s.shadow := by unfold commitSecure; split <;> [simp; split] <;> simp
@[simp] theorem commitSecure_slots (f : BitVec 8) (ws : List (BitVec 64)) (s : State) : (commitSecure f ws s).slots = s.slots := by unfold commitSecure; split <;> [simp; split] <;> simp
@[simp] theorem commitSecure_groups (f : BitVec 8) (ws : List (BitVec 64)) (s : State) : (commitSecure f ws s).groups = s.groups := by unfold commitSecure; split <;> [simp; split] <;> simp
@[simp] theorem commitSecure_bank (f : BitVec 8) (ws : List (BitVec 64)) (s : State) : (commitSecure f ws s).bank = s.bank := by unfold commitSecure; split <;> [simp; split] <;> simp
@[simp] theorem commitSecure_deep (f : BitVec 8) (ws : List (BitVec 64)) (s : State) : (commitSecure f ws s).deep = s.deep := by unfold commitSecure; split <;> [simp; split] <;> simp
@[simp] theorem commitSecure_winLow (f : BitVec 8) (ws : List (BitVec 64)) (s : State) : (commitSecure f ws s).winLow = s.winLow := by unfold commitSecure; split <;> [simp; split] <;> simp
@[simp] theorem commitSecure_fab (f : BitVec 8) (ws : List (BitVec 64)) (s : State) : (commitSecure f ws s).fab = s.fab := by unfold commitSecure; split <;> [simp; split] <;> simp
@[simp] theorem commitSecure_cox (f : BitVec 8) (ws : List (BitVec 64)) (s : State) : (commitSecure f ws s).cox = s.cox := by unfold commitSecure; split <;> [simp; split] <;> simp
@[simp] theorem commitSecure_net (f : BitVec 8) (ws : List (BitVec 64)) (s : State) : (commitSecure f ws s).net = s.net := by unfold commitSecure; split <;> [simp; split] <;> simp
@[simp] theorem commitSecure_lnk (f : BitVec 8) (ws : List (BitVec 64)) (s : State) : (commitSecure f ws s).lnk = s.lnk := by unfold commitSecure; split <;> [simp; split] <;> simp
@[simp] theorem commitSecure_hif (f : BitVec 8) (ws : List (BitVec 64)) (s : State) : (commitSecure f ws s).hif = s.hif := by unfold commitSecure; split <;> [simp; split] <;> simp
@[simp] theorem commitSecure_dsp (f : BitVec 8) (ws : List (BitVec 64)) (s : State) : (commitSecure f ws s).dsp = s.dsp := by unfold commitSecure; split <;> [simp; split] <;> simp
@[simp] theorem commitSecure_ldr (f : BitVec 8) (ws : List (BitVec 64)) (s : State) : (commitSecure f ws s).ldr = s.ldr := by unfold commitSecure; split <;> [simp; split] <;> simp
@[simp] theorem commitSecure_scb (f : BitVec 8) (ws : List (BitVec 64)) (s : State) : (commitSecure f ws s).scb = s.scb := by unfold commitSecure; split <;> [simp; split] <;> simp
@[simp] theorem commitSecure_trg (f : BitVec 8) (ws : List (BitVec 64)) (s : State) : (commitSecure f ws s).trg = s.trg := by unfold commitSecure; split <;> [simp; split] <;> simp
@[simp] theorem commitSecure_pwr (f : BitVec 8) (ws : List (BitVec 64)) (s : State) : (commitSecure f ws s).pwr = s.pwr := by unfold commitSecure; split <;> [simp; split] <;> simp
@[simp] theorem commitSecure_pins (f : BitVec 8) (ws : List (BitVec 64)) (s : State) : (commitSecure f ws s).pins = s.pins := by unfold commitSecure; split <;> [simp; split] <;> simp
@[simp] theorem commitSecure_jtag (f : BitVec 8) (ws : List (BitVec 64)) (s : State) : (commitSecure f ws s).jtag = s.jtag := by unfold commitSecure; split <;> [simp; split] <;> simp
@[simp] theorem commitSecure_hlt (f : BitVec 8) (ws : List (BitVec 64)) (s : State) : (commitSecure f ws s).hlt = s.hlt := by unfold commitSecure; split <;> [simp; split] <;> simp
@[simp] theorem commitSecure_fuses (f : BitVec 8) (ws : List (BitVec 64)) (s : State) : (commitSecure f ws s).fuses = s.fuses := by unfold commitSecure; split <;> [simp; split] <;> simp
@[simp] theorem commitSecure_out (f : BitVec 8) (ws : List (BitVec 64)) (s : State) : (commitSecure f ws s).out = s.out := by unfold commitSecure; split <;> [simp; split] <;> simp
@[simp] theorem commitSecure_free (f : BitVec 8) (ws : List (BitVec 64)) (s : State) : (commitSecure f ws s).free = s.free := by unfold commitSecure; split <;> [simp; split] <;> simp
@[simp] theorem commitSecure_pending (f : BitVec 8) (ws : List (BitVec 64)) (s : State) : (commitSecure f ws s).pending = s.pending := by unfold commitSecure; split <;> [simp; split] <;> simp

/-! `log0`. -/
@[simp] theorem log0_wide (c l d : Nat) (s : State) : (log0 c l d s).wide = s.wide := by simp only [log0, iff]; split_ifs <;> simp
@[simp] theorem log0_snaps (c l d : Nat) (s : State) : (log0 c l d s).snaps = s.snaps := by simp only [log0, iff]; split_ifs <;> simp
@[simp] theorem log0_cfg (c l d : Nat) (s : State) : (log0 c l d s).cfg = s.cfg := by simp only [log0, iff]; split_ifs <;> simp
@[simp] theorem log0_shadow (c l d : Nat) (s : State) : (log0 c l d s).shadow = s.shadow := by simp only [log0, iff]; split_ifs <;> simp
@[simp] theorem log0_slots (c l d : Nat) (s : State) : (log0 c l d s).slots = s.slots := by simp only [log0, iff]; split_ifs <;> simp
@[simp] theorem log0_groups (c l d : Nat) (s : State) : (log0 c l d s).groups = s.groups := by simp only [log0, iff]; split_ifs <;> simp
@[simp] theorem log0_bank (c l d : Nat) (s : State) : (log0 c l d s).bank = s.bank := by simp only [log0, iff]; split_ifs <;> simp
@[simp] theorem log0_deep (c l d : Nat) (s : State) : (log0 c l d s).deep = s.deep := by simp only [log0, iff]; split_ifs <;> simp
@[simp] theorem log0_winLow (c l d : Nat) (s : State) : (log0 c l d s).winLow = s.winLow := by simp only [log0, iff]; split_ifs <;> simp
@[simp] theorem log0_fab (c l d : Nat) (s : State) : (log0 c l d s).fab = s.fab := by simp only [log0, iff]; split_ifs <;> simp
@[simp] theorem log0_cox (c l d : Nat) (s : State) : (log0 c l d s).cox = s.cox := by simp only [log0, iff]; split_ifs <;> simp
@[simp] theorem log0_net (c l d : Nat) (s : State) : (log0 c l d s).net = s.net := by simp only [log0, iff]; split_ifs <;> simp
@[simp] theorem log0_lnk (c l d : Nat) (s : State) : (log0 c l d s).lnk = s.lnk := by simp only [log0, iff]; split_ifs <;> simp
@[simp] theorem log0_hif (c l d : Nat) (s : State) : (log0 c l d s).hif = s.hif := by simp only [log0, iff]; split_ifs <;> simp
@[simp] theorem log0_dsp (c l d : Nat) (s : State) : (log0 c l d s).dsp = s.dsp := by simp only [log0, iff]; split_ifs <;> simp
@[simp] theorem log0_ldr (c l d : Nat) (s : State) : (log0 c l d s).ldr = s.ldr := by simp only [log0, iff]; split_ifs <;> simp
@[simp] theorem log0_scb (c l d : Nat) (s : State) : (log0 c l d s).scb = s.scb := by simp only [log0, iff]; split_ifs <;> simp
@[simp] theorem log0_trg (c l d : Nat) (s : State) : (log0 c l d s).trg = s.trg := by simp only [log0, iff]; split_ifs <;> simp
@[simp] theorem log0_pwr (c l d : Nat) (s : State) : (log0 c l d s).pwr = s.pwr := by simp only [log0, iff]; split_ifs <;> simp
@[simp] theorem log0_pins (c l d : Nat) (s : State) : (log0 c l d s).pins = s.pins := by simp only [log0, iff]; split_ifs <;> simp
@[simp] theorem log0_jtag (c l d : Nat) (s : State) : (log0 c l d s).jtag = s.jtag := by simp only [log0, iff]; split_ifs <;> simp
@[simp] theorem log0_hlt (c l d : Nat) (s : State) : (log0 c l d s).hlt = s.hlt := by simp only [log0, iff]; split_ifs <;> simp
@[simp] theorem log0_fuses (c l d : Nat) (s : State) : (log0 c l d s).fuses = s.fuses := by simp only [log0, iff]; split_ifs <;> simp
@[simp] theorem log0_out (c l d : Nat) (s : State) : (log0 c l d s).out = s.out := by simp only [log0, iff]; split_ifs <;> simp
@[simp] theorem log0_free (c l d : Nat) (s : State) : (log0 c l d s).free = s.free := by simp only [log0, iff]; split_ifs <;> simp
@[simp] theorem log0_pending (c l d : Nat) (s : State) : (log0 c l d s).pending = s.pending := by simp only [log0, iff]; split_ifs <;> simp

/-! `settle`. -/
@[simp] theorem settle_wide (k : Nat) (s : State) : (settle k s).wide = s.wide := by
  induction k generalizing s with
  | zero => rfl
  | succ k ih => unfold settle; split <;> simp [ih]
@[simp] theorem settle_snaps (k : Nat) (s : State) : (settle k s).snaps = s.snaps := by
  induction k generalizing s with
  | zero => rfl
  | succ k ih => unfold settle; split <;> simp [ih]
@[simp] theorem settle_cfg (k : Nat) (s : State) : (settle k s).cfg = s.cfg := by
  induction k generalizing s with
  | zero => rfl
  | succ k ih => unfold settle; split <;> simp [ih]
@[simp] theorem settle_shadow (k : Nat) (s : State) : (settle k s).shadow = s.shadow := by
  induction k generalizing s with
  | zero => rfl
  | succ k ih => unfold settle; split <;> simp [ih]
@[simp] theorem settle_slots (k : Nat) (s : State) : (settle k s).slots = s.slots := by
  induction k generalizing s with
  | zero => rfl
  | succ k ih => unfold settle; split <;> simp [ih]
@[simp] theorem settle_groups (k : Nat) (s : State) : (settle k s).groups = s.groups := by
  induction k generalizing s with
  | zero => rfl
  | succ k ih => unfold settle; split <;> simp [ih]
@[simp] theorem settle_bank (k : Nat) (s : State) : (settle k s).bank = s.bank := by
  induction k generalizing s with
  | zero => rfl
  | succ k ih => unfold settle; split <;> simp [ih]
@[simp] theorem settle_deep (k : Nat) (s : State) : (settle k s).deep = s.deep := by
  induction k generalizing s with
  | zero => rfl
  | succ k ih => unfold settle; split <;> simp [ih]
@[simp] theorem settle_winLow (k : Nat) (s : State) : (settle k s).winLow = s.winLow := by
  induction k generalizing s with
  | zero => rfl
  | succ k ih => unfold settle; split <;> simp [ih]
@[simp] theorem settle_fab (k : Nat) (s : State) : (settle k s).fab = s.fab := by
  induction k generalizing s with
  | zero => rfl
  | succ k ih => unfold settle; split <;> simp [ih]
@[simp] theorem settle_cox (k : Nat) (s : State) : (settle k s).cox = s.cox := by
  induction k generalizing s with
  | zero => rfl
  | succ k ih => unfold settle; split <;> simp [ih]
@[simp] theorem settle_net (k : Nat) (s : State) : (settle k s).net = s.net := by
  induction k generalizing s with
  | zero => rfl
  | succ k ih => unfold settle; split <;> simp [ih]
@[simp] theorem settle_lnk (k : Nat) (s : State) : (settle k s).lnk = s.lnk := by
  induction k generalizing s with
  | zero => rfl
  | succ k ih => unfold settle; split <;> simp [ih]
@[simp] theorem settle_hif (k : Nat) (s : State) : (settle k s).hif = s.hif := by
  induction k generalizing s with
  | zero => rfl
  | succ k ih => unfold settle; split <;> simp [ih]
@[simp] theorem settle_dsp (k : Nat) (s : State) : (settle k s).dsp = s.dsp := by
  induction k generalizing s with
  | zero => rfl
  | succ k ih => unfold settle; split <;> simp [ih]
@[simp] theorem settle_ldr (k : Nat) (s : State) : (settle k s).ldr = s.ldr := by
  induction k generalizing s with
  | zero => rfl
  | succ k ih => unfold settle; split <;> simp [ih]
@[simp] theorem settle_scb (k : Nat) (s : State) : (settle k s).scb = s.scb := by
  induction k generalizing s with
  | zero => rfl
  | succ k ih => unfold settle; split <;> simp [ih]
@[simp] theorem settle_trg (k : Nat) (s : State) : (settle k s).trg = s.trg := by
  induction k generalizing s with
  | zero => rfl
  | succ k ih => unfold settle; split <;> simp [ih]
@[simp] theorem settle_pwr (k : Nat) (s : State) : (settle k s).pwr = s.pwr := by
  induction k generalizing s with
  | zero => rfl
  | succ k ih => unfold settle; split <;> simp [ih]
@[simp] theorem settle_pins (k : Nat) (s : State) : (settle k s).pins = s.pins := by
  induction k generalizing s with
  | zero => rfl
  | succ k ih => unfold settle; split <;> simp [ih]
@[simp] theorem settle_jtag (k : Nat) (s : State) : (settle k s).jtag = s.jtag := by
  induction k generalizing s with
  | zero => rfl
  | succ k ih => unfold settle; split <;> simp [ih]
@[simp] theorem settle_hlt (k : Nat) (s : State) : (settle k s).hlt = s.hlt := by
  induction k generalizing s with
  | zero => rfl
  | succ k ih => unfold settle; split <;> simp [ih]
@[simp] theorem settle_fuses (k : Nat) (s : State) : (settle k s).fuses = s.fuses := by
  induction k generalizing s with
  | zero => rfl
  | succ k ih => unfold settle; split <;> simp [ih]
@[simp] theorem settle_out (k : Nat) (s : State) : (settle k s).out = s.out := by
  induction k generalizing s with
  | zero => rfl
  | succ k ih => unfold settle; split <;> simp [ih]
@[simp] theorem settle_free (k : Nat) (s : State) : (settle k s).free = s.free := by
  induction k generalizing s with
  | zero => rfl
  | succ k ih => unfold settle; split <;> simp [ih]
@[simp] theorem settle_pending (k : Nat) (s : State) : (settle k s).pending = s.pending := by
  induction k generalizing s with
  | zero => rfl
  | succ k ih => unfold settle; split <;> simp [ih]

/-! `logEvent`. -/
@[simp] theorem logEvent_wide (c l d : Nat) (s : State) : (logEvent c l d s).wide = s.wide := by simp [logEvent]
@[simp] theorem logEvent_snaps (c l d : Nat) (s : State) : (logEvent c l d s).snaps = s.snaps := by simp [logEvent]
@[simp] theorem logEvent_cfg (c l d : Nat) (s : State) : (logEvent c l d s).cfg = s.cfg := by simp [logEvent]
@[simp] theorem logEvent_shadow (c l d : Nat) (s : State) : (logEvent c l d s).shadow = s.shadow := by simp [logEvent]
@[simp] theorem logEvent_slots (c l d : Nat) (s : State) : (logEvent c l d s).slots = s.slots := by simp [logEvent]
@[simp] theorem logEvent_groups (c l d : Nat) (s : State) : (logEvent c l d s).groups = s.groups := by simp [logEvent]
@[simp] theorem logEvent_bank (c l d : Nat) (s : State) : (logEvent c l d s).bank = s.bank := by simp [logEvent]
@[simp] theorem logEvent_deep (c l d : Nat) (s : State) : (logEvent c l d s).deep = s.deep := by simp [logEvent]
@[simp] theorem logEvent_winLow (c l d : Nat) (s : State) : (logEvent c l d s).winLow = s.winLow := by simp [logEvent]
@[simp] theorem logEvent_fab (c l d : Nat) (s : State) : (logEvent c l d s).fab = s.fab := by simp [logEvent]
@[simp] theorem logEvent_cox (c l d : Nat) (s : State) : (logEvent c l d s).cox = s.cox := by simp [logEvent]
@[simp] theorem logEvent_net (c l d : Nat) (s : State) : (logEvent c l d s).net = s.net := by simp [logEvent]
@[simp] theorem logEvent_lnk (c l d : Nat) (s : State) : (logEvent c l d s).lnk = s.lnk := by simp [logEvent]
@[simp] theorem logEvent_hif (c l d : Nat) (s : State) : (logEvent c l d s).hif = s.hif := by simp [logEvent]
@[simp] theorem logEvent_dsp (c l d : Nat) (s : State) : (logEvent c l d s).dsp = s.dsp := by simp [logEvent]
@[simp] theorem logEvent_ldr (c l d : Nat) (s : State) : (logEvent c l d s).ldr = s.ldr := by simp [logEvent]
@[simp] theorem logEvent_scb (c l d : Nat) (s : State) : (logEvent c l d s).scb = s.scb := by simp [logEvent]
@[simp] theorem logEvent_trg (c l d : Nat) (s : State) : (logEvent c l d s).trg = s.trg := by simp [logEvent]
@[simp] theorem logEvent_pwr (c l d : Nat) (s : State) : (logEvent c l d s).pwr = s.pwr := by simp [logEvent]
@[simp] theorem logEvent_pins (c l d : Nat) (s : State) : (logEvent c l d s).pins = s.pins := by simp [logEvent]
@[simp] theorem logEvent_jtag (c l d : Nat) (s : State) : (logEvent c l d s).jtag = s.jtag := by simp [logEvent]
@[simp] theorem logEvent_hlt (c l d : Nat) (s : State) : (logEvent c l d s).hlt = s.hlt := by simp [logEvent]
@[simp] theorem logEvent_fuses (c l d : Nat) (s : State) : (logEvent c l d s).fuses = s.fuses := by simp [logEvent]
@[simp] theorem logEvent_out (c l d : Nat) (s : State) : (logEvent c l d s).out = s.out := by simp [logEvent]
@[simp] theorem logEvent_free (c l d : Nat) (s : State) : (logEvent c l d s).free = s.free := by simp [logEvent]
@[simp] theorem logEvent_pending (c l d : Nat) (s : State) : (logEvent c l d s).pending = s.pending := by simp [logEvent]

/-! `countN`. -/
@[simp] theorem countN_wide (a n : Nat) (s : State) : (countN a n s).wide = s.wide := by simp [countN]
@[simp] theorem countN_snaps (a n : Nat) (s : State) : (countN a n s).snaps = s.snaps := by simp [countN]
@[simp] theorem countN_cfg (a n : Nat) (s : State) : (countN a n s).cfg = s.cfg := by simp [countN]
@[simp] theorem countN_shadow (a n : Nat) (s : State) : (countN a n s).shadow = s.shadow := by simp [countN]
@[simp] theorem countN_slots (a n : Nat) (s : State) : (countN a n s).slots = s.slots := by simp [countN]
@[simp] theorem countN_groups (a n : Nat) (s : State) : (countN a n s).groups = s.groups := by simp [countN]
@[simp] theorem countN_bank (a n : Nat) (s : State) : (countN a n s).bank = s.bank := by simp [countN]
@[simp] theorem countN_deep (a n : Nat) (s : State) : (countN a n s).deep = s.deep := by simp [countN]
@[simp] theorem countN_winLow (a n : Nat) (s : State) : (countN a n s).winLow = s.winLow := by simp [countN]
@[simp] theorem countN_fab (a n : Nat) (s : State) : (countN a n s).fab = s.fab := by simp [countN]
@[simp] theorem countN_cox (a n : Nat) (s : State) : (countN a n s).cox = s.cox := by simp [countN]
@[simp] theorem countN_net (a n : Nat) (s : State) : (countN a n s).net = s.net := by simp [countN]
@[simp] theorem countN_lnk (a n : Nat) (s : State) : (countN a n s).lnk = s.lnk := by simp [countN]
@[simp] theorem countN_hif (a n : Nat) (s : State) : (countN a n s).hif = s.hif := by simp [countN]
@[simp] theorem countN_dsp (a n : Nat) (s : State) : (countN a n s).dsp = s.dsp := by simp [countN]
@[simp] theorem countN_ldr (a n : Nat) (s : State) : (countN a n s).ldr = s.ldr := by simp [countN]
@[simp] theorem countN_scb (a n : Nat) (s : State) : (countN a n s).scb = s.scb := by simp [countN]
@[simp] theorem countN_trg (a n : Nat) (s : State) : (countN a n s).trg = s.trg := by simp [countN]
@[simp] theorem countN_pwr (a n : Nat) (s : State) : (countN a n s).pwr = s.pwr := by simp [countN]
@[simp] theorem countN_pins (a n : Nat) (s : State) : (countN a n s).pins = s.pins := by simp [countN]
@[simp] theorem countN_jtag (a n : Nat) (s : State) : (countN a n s).jtag = s.jtag := by simp [countN]
@[simp] theorem countN_hlt (a n : Nat) (s : State) : (countN a n s).hlt = s.hlt := by simp [countN]
@[simp] theorem countN_fuses (a n : Nat) (s : State) : (countN a n s).fuses = s.fuses := by simp [countN]
@[simp] theorem countN_out (a n : Nat) (s : State) : (countN a n s).out = s.out := by simp [countN]
@[simp] theorem countN_free (a n : Nat) (s : State) : (countN a n s).free = s.free := by simp [countN]
@[simp] theorem countN_pending (a n : Nat) (s : State) : (countN a n s).pending = s.pending := by simp [countN]

/-! `count`. -/
@[simp] theorem count_wide (a : Nat) (s : State) : (count a s).wide = s.wide := by simp [count]
@[simp] theorem count_snaps (a : Nat) (s : State) : (count a s).snaps = s.snaps := by simp [count]
@[simp] theorem count_cfg (a : Nat) (s : State) : (count a s).cfg = s.cfg := by simp [count]
@[simp] theorem count_shadow (a : Nat) (s : State) : (count a s).shadow = s.shadow := by simp [count]
@[simp] theorem count_slots (a : Nat) (s : State) : (count a s).slots = s.slots := by simp [count]
@[simp] theorem count_groups (a : Nat) (s : State) : (count a s).groups = s.groups := by simp [count]
@[simp] theorem count_bank (a : Nat) (s : State) : (count a s).bank = s.bank := by simp [count]
@[simp] theorem count_deep (a : Nat) (s : State) : (count a s).deep = s.deep := by simp [count]
@[simp] theorem count_winLow (a : Nat) (s : State) : (count a s).winLow = s.winLow := by simp [count]
@[simp] theorem count_fab (a : Nat) (s : State) : (count a s).fab = s.fab := by simp [count]
@[simp] theorem count_cox (a : Nat) (s : State) : (count a s).cox = s.cox := by simp [count]
@[simp] theorem count_net (a : Nat) (s : State) : (count a s).net = s.net := by simp [count]
@[simp] theorem count_lnk (a : Nat) (s : State) : (count a s).lnk = s.lnk := by simp [count]
@[simp] theorem count_hif (a : Nat) (s : State) : (count a s).hif = s.hif := by simp [count]
@[simp] theorem count_dsp (a : Nat) (s : State) : (count a s).dsp = s.dsp := by simp [count]
@[simp] theorem count_ldr (a : Nat) (s : State) : (count a s).ldr = s.ldr := by simp [count]
@[simp] theorem count_scb (a : Nat) (s : State) : (count a s).scb = s.scb := by simp [count]
@[simp] theorem count_trg (a : Nat) (s : State) : (count a s).trg = s.trg := by simp [count]
@[simp] theorem count_pwr (a : Nat) (s : State) : (count a s).pwr = s.pwr := by simp [count]
@[simp] theorem count_pins (a : Nat) (s : State) : (count a s).pins = s.pins := by simp [count]
@[simp] theorem count_jtag (a : Nat) (s : State) : (count a s).jtag = s.jtag := by simp [count]
@[simp] theorem count_hlt (a : Nat) (s : State) : (count a s).hlt = s.hlt := by simp [count]
@[simp] theorem count_fuses (a : Nat) (s : State) : (count a s).fuses = s.fuses := by simp [count]
@[simp] theorem count_out (a : Nat) (s : State) : (count a s).out = s.out := by simp [count]
@[simp] theorem count_free (a : Nat) (s : State) : (count a s).free = s.free := by simp [count]
@[simp] theorem count_pending (a : Nat) (s : State) : (count a s).pending = s.pending := by simp [count]

/-! `alert`. -/
@[simp] theorem alert_ctrs (i : Nat) (s : State) : (alert i s).ctrs = s.ctrs := rfl
@[simp] theorem alert_wide (i : Nat) (s : State) : (alert i s).wide = s.wide := rfl
@[simp] theorem alert_snaps (i : Nat) (s : State) : (alert i s).snaps = s.snaps := rfl
@[simp] theorem alert_evlog (i : Nat) (s : State) : (alert i s).evlog = s.evlog := rfl
@[simp] theorem alert_evTick (i : Nat) (s : State) : (alert i s).evTick = s.evTick := rfl
@[simp] theorem alert_evIn (i : Nat) (s : State) : (alert i s).evIn = s.evIn := rfl
@[simp] theorem alert_satDue (i : Nat) (s : State) : (alert i s).satDue = s.satDue := rfl
@[simp] theorem alert_cfg (i : Nat) (s : State) : (alert i s).cfg = s.cfg := rfl
@[simp] theorem alert_shadow (i : Nat) (s : State) : (alert i s).shadow = s.shadow := rfl
@[simp] theorem alert_slots (i : Nat) (s : State) : (alert i s).slots = s.slots := rfl
@[simp] theorem alert_groups (i : Nat) (s : State) : (alert i s).groups = s.groups := rfl
@[simp] theorem alert_bank (i : Nat) (s : State) : (alert i s).bank = s.bank := rfl
@[simp] theorem alert_deep (i : Nat) (s : State) : (alert i s).deep = s.deep := rfl
@[simp] theorem alert_winLow (i : Nat) (s : State) : (alert i s).winLow = s.winLow := rfl
@[simp] theorem alert_fab (i : Nat) (s : State) : (alert i s).fab = s.fab := rfl
@[simp] theorem alert_cox (i : Nat) (s : State) : (alert i s).cox = s.cox := rfl
@[simp] theorem alert_net (i : Nat) (s : State) : (alert i s).net = s.net := rfl
@[simp] theorem alert_lnk (i : Nat) (s : State) : (alert i s).lnk = s.lnk := rfl
@[simp] theorem alert_hif (i : Nat) (s : State) : (alert i s).hif = s.hif := rfl
@[simp] theorem alert_dsp (i : Nat) (s : State) : (alert i s).dsp = s.dsp := rfl
@[simp] theorem alert_ldr (i : Nat) (s : State) : (alert i s).ldr = s.ldr := rfl
@[simp] theorem alert_scb (i : Nat) (s : State) : (alert i s).scb = s.scb := rfl
@[simp] theorem alert_trg (i : Nat) (s : State) : (alert i s).trg = s.trg := rfl
@[simp] theorem alert_trc (i : Nat) (s : State) : (alert i s).trc = s.trc := rfl
@[simp] theorem alert_pwr (i : Nat) (s : State) : (alert i s).pwr = s.pwr := rfl
@[simp] theorem alert_pins (i : Nat) (s : State) : (alert i s).pins = s.pins := rfl
@[simp] theorem alert_jtag (i : Nat) (s : State) : (alert i s).jtag = s.jtag := rfl
@[simp] theorem alert_hlt (i : Nat) (s : State) : (alert i s).hlt = s.hlt := rfl
@[simp] theorem alert_fuses (i : Nat) (s : State) : (alert i s).fuses = s.fuses := rfl
@[simp] theorem alert_out (i : Nat) (s : State) : (alert i s).out = s.out := rfl
@[simp] theorem alert_free (i : Nat) (s : State) : (alert i s).free = s.free := rfl
@[simp] theorem alert_pending (i : Nat) (s : State) : (alert i s).pending = s.pending := rfl

/-! `recordFirst`. -/
@[simp] theorem recordFirst_ctrs (a : Nat) (v : Word) (s : State) : (recordFirst a v s).ctrs = s.ctrs := by unfold recordFirst; split <;> rfl
@[simp] theorem recordFirst_wide (a : Nat) (v : Word) (s : State) : (recordFirst a v s).wide = s.wide := by unfold recordFirst; split <;> rfl
@[simp] theorem recordFirst_snaps (a : Nat) (v : Word) (s : State) : (recordFirst a v s).snaps = s.snaps := by unfold recordFirst; split <;> rfl
@[simp] theorem recordFirst_evlog (a : Nat) (v : Word) (s : State) : (recordFirst a v s).evlog = s.evlog := by unfold recordFirst; split <;> rfl
@[simp] theorem recordFirst_evTick (a : Nat) (v : Word) (s : State) : (recordFirst a v s).evTick = s.evTick := by unfold recordFirst; split <;> rfl
@[simp] theorem recordFirst_evIn (a : Nat) (v : Word) (s : State) : (recordFirst a v s).evIn = s.evIn := by unfold recordFirst; split <;> rfl
@[simp] theorem recordFirst_satDue (a : Nat) (v : Word) (s : State) : (recordFirst a v s).satDue = s.satDue := by unfold recordFirst; split <;> rfl
@[simp] theorem recordFirst_cfg (a : Nat) (v : Word) (s : State) : (recordFirst a v s).cfg = s.cfg := by unfold recordFirst; split <;> rfl
@[simp] theorem recordFirst_shadow (a : Nat) (v : Word) (s : State) : (recordFirst a v s).shadow = s.shadow := by unfold recordFirst; split <;> rfl
@[simp] theorem recordFirst_slots (a : Nat) (v : Word) (s : State) : (recordFirst a v s).slots = s.slots := by unfold recordFirst; split <;> rfl
@[simp] theorem recordFirst_groups (a : Nat) (v : Word) (s : State) : (recordFirst a v s).groups = s.groups := by unfold recordFirst; split <;> rfl
@[simp] theorem recordFirst_bank (a : Nat) (v : Word) (s : State) : (recordFirst a v s).bank = s.bank := by unfold recordFirst; split <;> rfl
@[simp] theorem recordFirst_deep (a : Nat) (v : Word) (s : State) : (recordFirst a v s).deep = s.deep := by unfold recordFirst; split <;> rfl
@[simp] theorem recordFirst_winLow (a : Nat) (v : Word) (s : State) : (recordFirst a v s).winLow = s.winLow := by unfold recordFirst; split <;> rfl
@[simp] theorem recordFirst_fab (a : Nat) (v : Word) (s : State) : (recordFirst a v s).fab = s.fab := by unfold recordFirst; split <;> rfl
@[simp] theorem recordFirst_cox (a : Nat) (v : Word) (s : State) : (recordFirst a v s).cox = s.cox := by unfold recordFirst; split <;> rfl
@[simp] theorem recordFirst_net (a : Nat) (v : Word) (s : State) : (recordFirst a v s).net = s.net := by unfold recordFirst; split <;> rfl
@[simp] theorem recordFirst_lnk (a : Nat) (v : Word) (s : State) : (recordFirst a v s).lnk = s.lnk := by unfold recordFirst; split <;> rfl
@[simp] theorem recordFirst_hif (a : Nat) (v : Word) (s : State) : (recordFirst a v s).hif = s.hif := by unfold recordFirst; split <;> rfl
@[simp] theorem recordFirst_dsp (a : Nat) (v : Word) (s : State) : (recordFirst a v s).dsp = s.dsp := by unfold recordFirst; split <;> rfl
@[simp] theorem recordFirst_ldr (a : Nat) (v : Word) (s : State) : (recordFirst a v s).ldr = s.ldr := by unfold recordFirst; split <;> rfl
@[simp] theorem recordFirst_scb (a : Nat) (v : Word) (s : State) : (recordFirst a v s).scb = s.scb := by unfold recordFirst; split <;> rfl
@[simp] theorem recordFirst_trg (a : Nat) (v : Word) (s : State) : (recordFirst a v s).trg = s.trg := by unfold recordFirst; split <;> rfl
@[simp] theorem recordFirst_trc (a : Nat) (v : Word) (s : State) : (recordFirst a v s).trc = s.trc := by unfold recordFirst; split <;> rfl
@[simp] theorem recordFirst_pwr (a : Nat) (v : Word) (s : State) : (recordFirst a v s).pwr = s.pwr := by unfold recordFirst; split <;> rfl
@[simp] theorem recordFirst_pins (a : Nat) (v : Word) (s : State) : (recordFirst a v s).pins = s.pins := by unfold recordFirst; split <;> rfl
@[simp] theorem recordFirst_jtag (a : Nat) (v : Word) (s : State) : (recordFirst a v s).jtag = s.jtag := by unfold recordFirst; split <;> rfl
@[simp] theorem recordFirst_hlt (a : Nat) (v : Word) (s : State) : (recordFirst a v s).hlt = s.hlt := by unfold recordFirst; split <;> rfl
@[simp] theorem recordFirst_fuses (a : Nat) (v : Word) (s : State) : (recordFirst a v s).fuses = s.fuses := by unfold recordFirst; split <;> rfl
@[simp] theorem recordFirst_out (a : Nat) (v : Word) (s : State) : (recordFirst a v s).out = s.out := by unfold recordFirst; split <;> rfl
@[simp] theorem recordFirst_free (a : Nat) (v : Word) (s : State) : (recordFirst a v s).free = s.free := by unfold recordFirst; split <;> rfl
@[simp] theorem recordFirst_pending (a : Nat) (v : Word) (s : State) : (recordFirst a v s).pending = s.pending := by unfold recordFirst; split <;> rfl

/-! `addHalt`. -/
@[simp] theorem addHalt_regs (h : HaltReq) (s : State) : (addHalt h s).regs = s.regs := by unfold addHalt; split <;> rfl
@[simp] theorem addHalt_ctrs (h : HaltReq) (s : State) : (addHalt h s).ctrs = s.ctrs := by unfold addHalt; split <;> rfl
@[simp] theorem addHalt_wide (h : HaltReq) (s : State) : (addHalt h s).wide = s.wide := by unfold addHalt; split <;> rfl
@[simp] theorem addHalt_snaps (h : HaltReq) (s : State) : (addHalt h s).snaps = s.snaps := by unfold addHalt; split <;> rfl
@[simp] theorem addHalt_evlog (h : HaltReq) (s : State) : (addHalt h s).evlog = s.evlog := by unfold addHalt; split <;> rfl
@[simp] theorem addHalt_evTick (h : HaltReq) (s : State) : (addHalt h s).evTick = s.evTick := by unfold addHalt; split <;> rfl
@[simp] theorem addHalt_evIn (h : HaltReq) (s : State) : (addHalt h s).evIn = s.evIn := by unfold addHalt; split <;> rfl
@[simp] theorem addHalt_satDue (h : HaltReq) (s : State) : (addHalt h s).satDue = s.satDue := by unfold addHalt; split <;> rfl
@[simp] theorem addHalt_cfg (h : HaltReq) (s : State) : (addHalt h s).cfg = s.cfg := by unfold addHalt; split <;> rfl
@[simp] theorem addHalt_shadow (h : HaltReq) (s : State) : (addHalt h s).shadow = s.shadow := by unfold addHalt; split <;> rfl
@[simp] theorem addHalt_slots (h : HaltReq) (s : State) : (addHalt h s).slots = s.slots := by unfold addHalt; split <;> rfl
@[simp] theorem addHalt_groups (h : HaltReq) (s : State) : (addHalt h s).groups = s.groups := by unfold addHalt; split <;> rfl
@[simp] theorem addHalt_bank (h : HaltReq) (s : State) : (addHalt h s).bank = s.bank := by unfold addHalt; split <;> rfl
@[simp] theorem addHalt_deep (h : HaltReq) (s : State) : (addHalt h s).deep = s.deep := by unfold addHalt; split <;> rfl
@[simp] theorem addHalt_winLow (h : HaltReq) (s : State) : (addHalt h s).winLow = s.winLow := by unfold addHalt; split <;> rfl
@[simp] theorem addHalt_fab (h : HaltReq) (s : State) : (addHalt h s).fab = s.fab := by unfold addHalt; split <;> rfl
@[simp] theorem addHalt_net (h : HaltReq) (s : State) : (addHalt h s).net = s.net := by unfold addHalt; split <;> rfl
@[simp] theorem addHalt_lnk (h : HaltReq) (s : State) : (addHalt h s).lnk = s.lnk := by unfold addHalt; split <;> rfl
@[simp] theorem addHalt_hif (h : HaltReq) (s : State) : (addHalt h s).hif = s.hif := by unfold addHalt; split <;> rfl
@[simp] theorem addHalt_dsp (h : HaltReq) (s : State) : (addHalt h s).dsp = s.dsp := by unfold addHalt; split <;> rfl
@[simp] theorem addHalt_ldr (h : HaltReq) (s : State) : (addHalt h s).ldr = s.ldr := by unfold addHalt; split <;> rfl
@[simp] theorem addHalt_scb (h : HaltReq) (s : State) : (addHalt h s).scb = s.scb := by unfold addHalt; split <;> rfl
@[simp] theorem addHalt_trg (h : HaltReq) (s : State) : (addHalt h s).trg = s.trg := by unfold addHalt; split <;> rfl
@[simp] theorem addHalt_trc (h : HaltReq) (s : State) : (addHalt h s).trc = s.trc := by unfold addHalt; split <;> rfl
@[simp] theorem addHalt_pwr (h : HaltReq) (s : State) : (addHalt h s).pwr = s.pwr := by unfold addHalt; split <;> rfl
@[simp] theorem addHalt_pins (h : HaltReq) (s : State) : (addHalt h s).pins = s.pins := by unfold addHalt; split <;> rfl
@[simp] theorem addHalt_jtag (h : HaltReq) (s : State) : (addHalt h s).jtag = s.jtag := by unfold addHalt; split <;> rfl
@[simp] theorem addHalt_hlt (h : HaltReq) (s : State) : (addHalt h s).hlt = s.hlt := by unfold addHalt; split <;> rfl
@[simp] theorem addHalt_fuses (h : HaltReq) (s : State) : (addHalt h s).fuses = s.fuses := by unfold addHalt; split <;> rfl
@[simp] theorem addHalt_out (h : HaltReq) (s : State) : (addHalt h s).out = s.out := by unfold addHalt; split <;> rfl
@[simp] theorem addHalt_free (h : HaltReq) (s : State) : (addHalt h s).free = s.free := by unfold addHalt; split <;> rfl
@[simp] theorem addHalt_pending (h : HaltReq) (s : State) : (addHalt h s).pending = s.pending := by unfold addHalt; split <;> rfl

/-! `raiseHalt`. -/
@[simp] theorem raiseHalt_regs (k : Nat) (s : State) : (raiseHalt k s).regs = s.regs := by unfold raiseHalt; dsimp only; split <;> [(unfold iff; split); skip] <;> simp
@[simp] theorem raiseHalt_ctrs (k : Nat) (s : State) : (raiseHalt k s).ctrs = s.ctrs := by unfold raiseHalt; dsimp only; split <;> [(unfold iff; split); skip] <;> simp
@[simp] theorem raiseHalt_wide (k : Nat) (s : State) : (raiseHalt k s).wide = s.wide := by unfold raiseHalt; dsimp only; split <;> [(unfold iff; split); skip] <;> simp
@[simp] theorem raiseHalt_snaps (k : Nat) (s : State) : (raiseHalt k s).snaps = s.snaps := by unfold raiseHalt; dsimp only; split <;> [(unfold iff; split); skip] <;> simp
@[simp] theorem raiseHalt_evlog (k : Nat) (s : State) : (raiseHalt k s).evlog = s.evlog := by unfold raiseHalt; dsimp only; split <;> [(unfold iff; split); skip] <;> simp
@[simp] theorem raiseHalt_evTick (k : Nat) (s : State) : (raiseHalt k s).evTick = s.evTick := by unfold raiseHalt; dsimp only; split <;> [(unfold iff; split); skip] <;> simp
@[simp] theorem raiseHalt_evIn (k : Nat) (s : State) : (raiseHalt k s).evIn = s.evIn := by unfold raiseHalt; dsimp only; split <;> [(unfold iff; split); skip] <;> simp
@[simp] theorem raiseHalt_satDue (k : Nat) (s : State) : (raiseHalt k s).satDue = s.satDue := by unfold raiseHalt; dsimp only; split <;> [(unfold iff; split); skip] <;> simp
@[simp] theorem raiseHalt_cfg (k : Nat) (s : State) : (raiseHalt k s).cfg = s.cfg := by unfold raiseHalt; dsimp only; split <;> [(unfold iff; split); skip] <;> simp
@[simp] theorem raiseHalt_shadow (k : Nat) (s : State) : (raiseHalt k s).shadow = s.shadow := by unfold raiseHalt; dsimp only; split <;> [(unfold iff; split); skip] <;> simp
@[simp] theorem raiseHalt_slots (k : Nat) (s : State) : (raiseHalt k s).slots = s.slots := by unfold raiseHalt; dsimp only; split <;> [(unfold iff; split); skip] <;> simp
@[simp] theorem raiseHalt_groups (k : Nat) (s : State) : (raiseHalt k s).groups = s.groups := by unfold raiseHalt; dsimp only; split <;> [(unfold iff; split); skip] <;> simp
@[simp] theorem raiseHalt_bank (k : Nat) (s : State) : (raiseHalt k s).bank = s.bank := by unfold raiseHalt; dsimp only; split <;> [(unfold iff; split); skip] <;> simp
@[simp] theorem raiseHalt_deep (k : Nat) (s : State) : (raiseHalt k s).deep = s.deep := by unfold raiseHalt; dsimp only; split <;> [(unfold iff; split); skip] <;> simp
@[simp] theorem raiseHalt_winLow (k : Nat) (s : State) : (raiseHalt k s).winLow = s.winLow := by unfold raiseHalt; dsimp only; split <;> [(unfold iff; split); skip] <;> simp
@[simp] theorem raiseHalt_fab (k : Nat) (s : State) : (raiseHalt k s).fab = s.fab := by unfold raiseHalt; dsimp only; split <;> [(unfold iff; split); skip] <;> simp
@[simp] theorem raiseHalt_net (k : Nat) (s : State) : (raiseHalt k s).net = s.net := by unfold raiseHalt; dsimp only; split <;> [(unfold iff; split); skip] <;> simp
@[simp] theorem raiseHalt_lnk (k : Nat) (s : State) : (raiseHalt k s).lnk = s.lnk := by unfold raiseHalt; dsimp only; split <;> [(unfold iff; split); skip] <;> simp
@[simp] theorem raiseHalt_hif (k : Nat) (s : State) : (raiseHalt k s).hif = s.hif := by unfold raiseHalt; dsimp only; split <;> [(unfold iff; split); skip] <;> simp
@[simp] theorem raiseHalt_dsp (k : Nat) (s : State) : (raiseHalt k s).dsp = s.dsp := by unfold raiseHalt; dsimp only; split <;> [(unfold iff; split); skip] <;> simp
@[simp] theorem raiseHalt_ldr (k : Nat) (s : State) : (raiseHalt k s).ldr = s.ldr := by unfold raiseHalt; dsimp only; split <;> [(unfold iff; split); skip] <;> simp
@[simp] theorem raiseHalt_scb (k : Nat) (s : State) : (raiseHalt k s).scb = s.scb := by unfold raiseHalt; dsimp only; split <;> [(unfold iff; split); skip] <;> simp
@[simp] theorem raiseHalt_trg (k : Nat) (s : State) : (raiseHalt k s).trg = s.trg := by unfold raiseHalt; dsimp only; split <;> [(unfold iff; split); skip] <;> simp
@[simp] theorem raiseHalt_trc (k : Nat) (s : State) : (raiseHalt k s).trc = s.trc := by unfold raiseHalt; dsimp only; split <;> [(unfold iff; split); skip] <;> simp
@[simp] theorem raiseHalt_pwr (k : Nat) (s : State) : (raiseHalt k s).pwr = s.pwr := by unfold raiseHalt; dsimp only; split <;> [(unfold iff; split); skip] <;> simp
@[simp] theorem raiseHalt_pins (k : Nat) (s : State) : (raiseHalt k s).pins = s.pins := by unfold raiseHalt; dsimp only; split <;> [(unfold iff; split); skip] <;> simp
@[simp] theorem raiseHalt_jtag (k : Nat) (s : State) : (raiseHalt k s).jtag = s.jtag := by unfold raiseHalt; dsimp only; split <;> [(unfold iff; split); skip] <;> simp
@[simp] theorem raiseHalt_hlt (k : Nat) (s : State) : (raiseHalt k s).hlt = s.hlt := by unfold raiseHalt; dsimp only; split <;> [(unfold iff; split); skip] <;> simp
@[simp] theorem raiseHalt_fuses (k : Nat) (s : State) : (raiseHalt k s).fuses = s.fuses := by unfold raiseHalt; dsimp only; split <;> [(unfold iff; split); skip] <;> simp
@[simp] theorem raiseHalt_free (k : Nat) (s : State) : (raiseHalt k s).free = s.free := by unfold raiseHalt; dsimp only; split <;> [(unfold iff; split); skip] <;> simp
@[simp] theorem raiseHalt_pending (k : Nat) (s : State) : (raiseHalt k s).pending = s.pending := by unfold raiseHalt; dsimp only; split <;> [(unfold iff; split); skip] <;> simp

/-! `complete`. -/
@[simp] theorem complete_wide (c : Nat) (e : Completion) (s : State) : (complete c e s).wide = s.wide := by unfold complete; dsimp only; split <;> [rfl; split] <;> simp
@[simp] theorem complete_snaps (c : Nat) (e : Completion) (s : State) : (complete c e s).snaps = s.snaps := by unfold complete; dsimp only; split <;> [rfl; split] <;> simp
@[simp] theorem complete_cfg (c : Nat) (e : Completion) (s : State) : (complete c e s).cfg = s.cfg := by unfold complete; dsimp only; split <;> [rfl; split] <;> simp
@[simp] theorem complete_shadow (c : Nat) (e : Completion) (s : State) : (complete c e s).shadow = s.shadow := by unfold complete; dsimp only; split <;> [rfl; split] <;> simp
@[simp] theorem complete_slots (c : Nat) (e : Completion) (s : State) : (complete c e s).slots = s.slots := by unfold complete; dsimp only; split <;> [rfl; split] <;> simp
@[simp] theorem complete_groups (c : Nat) (e : Completion) (s : State) : (complete c e s).groups = s.groups := by unfold complete; dsimp only; split <;> [rfl; split] <;> simp
@[simp] theorem complete_bank (c : Nat) (e : Completion) (s : State) : (complete c e s).bank = s.bank := by unfold complete; dsimp only; split <;> [rfl; split] <;> simp
@[simp] theorem complete_deep (c : Nat) (e : Completion) (s : State) : (complete c e s).deep = s.deep := by unfold complete; dsimp only; split <;> [rfl; split] <;> simp
@[simp] theorem complete_winLow (c : Nat) (e : Completion) (s : State) : (complete c e s).winLow = s.winLow := by unfold complete; dsimp only; split <;> [rfl; split] <;> simp
@[simp] theorem complete_fab (c : Nat) (e : Completion) (s : State) : (complete c e s).fab = s.fab := by unfold complete; dsimp only; split <;> [rfl; split] <;> simp
@[simp] theorem complete_cox (c : Nat) (e : Completion) (s : State) : (complete c e s).cox = s.cox := by unfold complete; dsimp only; split <;> [rfl; split] <;> simp
@[simp] theorem complete_net (c : Nat) (e : Completion) (s : State) : (complete c e s).net = s.net := by unfold complete; dsimp only; split <;> [rfl; split] <;> simp
@[simp] theorem complete_lnk (c : Nat) (e : Completion) (s : State) : (complete c e s).lnk = s.lnk := by unfold complete; dsimp only; split <;> [rfl; split] <;> simp
@[simp] theorem complete_dsp (c : Nat) (e : Completion) (s : State) : (complete c e s).dsp = s.dsp := by unfold complete; dsimp only; split <;> [rfl; split] <;> simp
@[simp] theorem complete_ldr (c : Nat) (e : Completion) (s : State) : (complete c e s).ldr = s.ldr := by unfold complete; dsimp only; split <;> [rfl; split] <;> simp
@[simp] theorem complete_scb (c : Nat) (e : Completion) (s : State) : (complete c e s).scb = s.scb := by unfold complete; dsimp only; split <;> [rfl; split] <;> simp
@[simp] theorem complete_trg (c : Nat) (e : Completion) (s : State) : (complete c e s).trg = s.trg := by unfold complete; dsimp only; split <;> [rfl; split] <;> simp
@[simp] theorem complete_pwr (c : Nat) (e : Completion) (s : State) : (complete c e s).pwr = s.pwr := by unfold complete; dsimp only; split <;> [rfl; split] <;> simp
@[simp] theorem complete_pins (c : Nat) (e : Completion) (s : State) : (complete c e s).pins = s.pins := by unfold complete; dsimp only; split <;> [rfl; split] <;> simp
@[simp] theorem complete_jtag (c : Nat) (e : Completion) (s : State) : (complete c e s).jtag = s.jtag := by unfold complete; dsimp only; split <;> [rfl; split] <;> simp
@[simp] theorem complete_hlt (c : Nat) (e : Completion) (s : State) : (complete c e s).hlt = s.hlt := by unfold complete; dsimp only; split <;> [rfl; split] <;> simp
@[simp] theorem complete_fuses (c : Nat) (e : Completion) (s : State) : (complete c e s).fuses = s.fuses := by unfold complete; dsimp only; split <;> [rfl; split] <;> simp
@[simp] theorem complete_out (c : Nat) (e : Completion) (s : State) : (complete c e s).out = s.out := by unfold complete; dsimp only; split <;> [rfl; split] <;> simp
@[simp] theorem complete_free (c : Nat) (e : Completion) (s : State) : (complete c e s).free = s.free := by unfold complete; dsimp only; split <;> [rfl; split] <;> simp
@[simp] theorem complete_pending (c : Nat) (e : Completion) (s : State) : (complete c e s).pending = s.pending := by unfold complete; dsimp only; split <;> [rfl; split] <;> simp

/-- A signalled vector changes what is emitted, or the pending bits, and nothing else. -/
theorem interrupt_frame (fn : Nat) (vec : BitVec 11) (s : State) :
    interrupt fn vec s = { s with out := (interrupt fn vec s).out,
                                  hif := { s.hif with msix := (interrupt fn vec s).hif.msix } } := by
  unfold interrupt emit
  split <;> rfl

end Sys2Proof.Machine
end

