-- ==== Sys2Proof/Laws/Store.lean ====
section
/-! SUPPORT. The sparse stores: a read after a write, and the canonical form that every write keeps. -/

namespace Sys2Proof.Machine

theorem look_ins (d : β) (m : Sparse β) (i : Nat) (v : β) (j : Nat) :
    look d (ins m i v) j = if j = i then v else look d m j := by
  induction m with
  | nil => simp only [ins, look]
  | cons e m ih =>
    obtain ⟨k, w⟩ := e
    simp only [ins]
    split
    · simp only [look]
    · split
      · subst_vars
        simp only [look]
        split <;> simp_all
      · simp only [look, ih]
        split
        · rw [if_neg (by omega)]
        · rfl

theorem look_del (d : β) (m : Sparse β) (i j : Nat) :
    look d (del m i) j = if j = i then d else look d m j := by
  induction m with
  | nil => simp [del, look]
  | cons e m ih =>
    obtain ⟨k, w⟩ := e
    simp only [del]
    split
    · simp only [ih, look]
      split <;> simp_all
    · simp only [look, ih]
      split
      · rw [if_neg (by omega)]
      · rfl

/-- A read after a write in canonical form. -/
theorem look_upd [DecidableEq β] (d : β) (m : Sparse β) (i : Nat) (v : β) (j : Nat) :
    look d (upd d m i v) j = if j = i then v else look d m j := by
  unfold upd
  split
  · rw [look_del]
    split <;> simp_all
  · exact look_ins d m i v j

@[simp] theorem look_upd_same [DecidableEq β] (d : β) (m : Sparse β) (i : Nat) (v : β) :
    look d (upd d m i v) i = v := by simp [look_upd]

theorem look_upd_ne [DecidableEq β] (d : β) (m : Sparse β) {i j : Nat} (v : β) (h : j ≠ i) :
    look d (upd d m i v) j = look d m j := by simp [look_upd, h]

/-- Writes of two keys commute with reads whatever default each write removes. -/
theorem look_upd_other [DecidableEq β] (d d' : β) (m : Sparse β) {i j : Nat} (v : β) (h : j ≠ i) :
    look d (upd d' m i v) j = look d m j := by
  unfold upd
  split
  · rw [look_del]; simp [h]
  · rw [look_ins]; simp [h]

theorem find_ins (m : Sparse β) (i : Nat) (v : β) (j : Nat) :
    find (ins m i v) j = if j = i then some v else find m j := by
  have h : (ins m i v).map (fun e => (e.1, some e.2)) = ins (m.map fun e => (e.1, some e.2)) i (some v) := by
    induction m with
    | nil => rfl
    | cons e m ih =>
      obtain ⟨k, w⟩ := e
      simp only [ins, List.map_cons]
      split
      · rfl
      · split
        · rfl
        · simp only [List.map_cons, ih]
  unfold find
  rw [h, look_ins]

/-! Keys strictly rising, as a property of every pair. -/

/-- Every key of a store lies above `k`. -/
def above (k : Nat) (m : Sparse β) : Bool := m.all fun e => decide (k < e.1)

theorem rising_cons (k : Nat) (v : β) (m : Sparse β) :
    rising ((k, v) :: m) = (above k m && rising m) := by
  induction m generalizing k v with
  | nil => rfl
  | cons e m ih =>
    obtain ⟨l, w⟩ := e
    rw [rising]
    have hs : decide (k < l) = true → above l m = true → above k m = true := by
      intro h1 h2
      simp only [above, List.all_eq_true, decide_eq_true_eq] at *
      intro x hx
      exact lt_trans h1 (h2 x hx)
    rw [ih l w]
    have hc : above k ((l, w) :: m) = (decide (k < l) && above k m) := by simp [above]
    rw [hc]
    cases h1 : decide (k < l) <;> cases h2 : above l m <;> simp_all

theorem above_ins {k i : Nat} {v : β} {m : Sparse β} (h : above k m = true) (hi : k < i) :
    above k (ins m i v) = true := by
  induction m with
  | nil => simp [ins, above, hi]
  | cons e m ih =>
    obtain ⟨l, w⟩ := e
    simp only [above, List.all_cons, Bool.and_eq_true, decide_eq_true_eq] at h
    simp only [ins]
    split
    · simp only [above, List.all_cons, Bool.and_eq_true, decide_eq_true_eq]; exact ⟨hi, h⟩
    · split
      · simp only [above, List.all_cons, Bool.and_eq_true, decide_eq_true_eq]; exact ⟨h.1, h.2⟩
      · simp only [above, List.all_cons, Bool.and_eq_true, decide_eq_true_eq]; exact ⟨h.1, ih h.2⟩

theorem above_filter {k : Nat} {m : Sparse β} (f : Nat × β → Bool) (h : above k m = true) :
    above k (m.filter f) = true := by
  simp only [above, List.all_eq_true] at *
  exact fun x hx => h x ((List.mem_filter.mp hx).1)

theorem above_lt {k l : Nat} {m : Sparse β} (h : above l m = true) (hk : k < l) : above k m = true := by
  simp only [above, List.all_eq_true, decide_eq_true_eq] at *
  exact fun x hx => lt_trans hk (h x hx)

theorem rising_ins {m : Sparse β} (i : Nat) (v : β) (h : rising m = true) : rising (ins m i v) = true := by
  induction m with
  | nil => rfl
  | cons e m ih =>
    obtain ⟨k, w⟩ := e
    rw [rising_cons, Bool.and_eq_true] at h
    simp only [ins]
    split
    · rename_i hik
      rw [rising_cons, rising_cons, Bool.and_eq_true, Bool.and_eq_true]
      refine ⟨?_, h⟩
      simp only [above, List.all_cons, Bool.and_eq_true, decide_eq_true_eq]
      exact ⟨hik, above_lt h.1 hik⟩
    · split
      · rw [rising_cons, Bool.and_eq_true]; exact h
      · rw [rising_cons, Bool.and_eq_true]
        exact ⟨above_ins h.1 (by omega), ih h.2⟩

theorem rising_filter {m : Sparse β} (f : Nat × β → Bool) (h : rising m = true) : rising (m.filter f) = true := by
  induction m with
  | nil => rfl
  | cons e m ih =>
    obtain ⟨k, w⟩ := e
    rw [rising_cons, Bool.and_eq_true] at h
    rw [List.filter_cons]
    split
    · rw [rising_cons, Bool.and_eq_true]; exact ⟨above_filter f h.1, ih h.2⟩
    · exact ih h.2

theorem del_eq_filter (m : Sparse β) (i : Nat) : del m i = m.filter fun e => !decide (i = e.1) := by
  induction m with
  | nil => rfl
  | cons e m ih =>
    obtain ⟨k, w⟩ := e
    simp only [del, List.filter_cons]
    split <;> simp_all

/-! The canonical form. -/

theorem wf_nil [DecidableEq β] (d : β) : wf d [] = true := rfl

theorem wf_filter [DecidableEq β] {d : β} {m : Sparse β} (f : Nat × β → Bool) (h : wf d m = true) :
    wf d (m.filter f) = true := by
  simp only [wf, Bool.and_eq_true, List.all_eq_true] at *
  exact ⟨rising_filter f h.1, fun x hx => h.2 x ((List.mem_filter.mp hx).1)⟩

theorem wf_ins [DecidableEq β] {d : β} {m : Sparse β} (i : Nat) {v : β} (hv : v ≠ d) (h : wf d m = true) :
    wf d (ins m i v) = true := by
  simp only [wf, Bool.and_eq_true] at *
  refine ⟨rising_ins i v h.1, ?_⟩
  have h2 := h.2
  clear h
  induction m with
  | nil => simp [ins, hv]
  | cons e m ih =>
    obtain ⟨k, w⟩ := e
    simp only [List.all_cons, Bool.and_eq_true] at h2
    simp only [ins]
    split
    · simp only [List.all_cons, Bool.and_eq_true]; exact ⟨by simp [hv], h2⟩
    · split
      · simp only [List.all_cons, Bool.and_eq_true]; exact ⟨by simp [hv], h2.2⟩
      · simp only [List.all_cons, Bool.and_eq_true]; exact ⟨h2.1, ih h2.2⟩

/-- A write keeps the canonical form. -/
theorem wf_upd [DecidableEq β] {d : β} {m : Sparse β} (i : Nat) (v : β) (h : wf d m = true) :
    wf d (upd d m i v) = true := by
  unfold upd
  split
  · rw [del_eq_filter]; exact wf_filter _ h
  · rename_i hv; exact wf_ins i hv h

theorem rising_upd [DecidableEq β] {d : β} {m : Sparse β} (i : Nat) (v : β) (h : rising m = true) :
    rising (upd d m i v) = true := by
  unfold upd
  split
  · rw [del_eq_filter]; exact rising_filter _ h
  · exact rising_ins i v h

end Sys2Proof.Machine
end

