-- ==== Sys2Proof/Laws/Link.lean ====
section
/-! SUPPORT. The record of a Daxair port and the bank cycles: what setting them and queueing a cox message leave as it stands. -/

namespace Sys2Proof.Machine

/-! `setLnk`. -/
@[simp] theorem setLnk_regs (n : Nat) (x : LnkPort) (s : State) : (setLnk n x s).regs = s.regs := rfl
@[simp] theorem setLnk_ctrs (n : Nat) (x : LnkPort) (s : State) : (setLnk n x s).ctrs = s.ctrs := rfl
@[simp] theorem setLnk_wide (n : Nat) (x : LnkPort) (s : State) : (setLnk n x s).wide = s.wide := rfl
@[simp] theorem setLnk_snaps (n : Nat) (x : LnkPort) (s : State) : (setLnk n x s).snaps = s.snaps := rfl
@[simp] theorem setLnk_evlog (n : Nat) (x : LnkPort) (s : State) : (setLnk n x s).evlog = s.evlog := rfl
@[simp] theorem setLnk_evTick (n : Nat) (x : LnkPort) (s : State) : (setLnk n x s).evTick = s.evTick := rfl
@[simp] theorem setLnk_evIn (n : Nat) (x : LnkPort) (s : State) : (setLnk n x s).evIn = s.evIn := rfl
@[simp] theorem setLnk_satDue (n : Nat) (x : LnkPort) (s : State) : (setLnk n x s).satDue = s.satDue := rfl
@[simp] theorem setLnk_cfg (n : Nat) (x : LnkPort) (s : State) : (setLnk n x s).cfg = s.cfg := rfl
@[simp] theorem setLnk_shadow (n : Nat) (x : LnkPort) (s : State) : (setLnk n x s).shadow = s.shadow := rfl
@[simp] theorem setLnk_slots (n : Nat) (x : LnkPort) (s : State) : (setLnk n x s).slots = s.slots := rfl
@[simp] theorem setLnk_groups (n : Nat) (x : LnkPort) (s : State) : (setLnk n x s).groups = s.groups := rfl
@[simp] theorem setLnk_bank (n : Nat) (x : LnkPort) (s : State) : (setLnk n x s).bank = s.bank := rfl
@[simp] theorem setLnk_deep (n : Nat) (x : LnkPort) (s : State) : (setLnk n x s).deep = s.deep := rfl
@[simp] theorem setLnk_winLow (n : Nat) (x : LnkPort) (s : State) : (setLnk n x s).winLow = s.winLow := rfl
@[simp] theorem setLnk_fab (n : Nat) (x : LnkPort) (s : State) : (setLnk n x s).fab = s.fab := rfl
@[simp] theorem setLnk_cox (n : Nat) (x : LnkPort) (s : State) : (setLnk n x s).cox = s.cox := rfl
@[simp] theorem setLnk_net (n : Nat) (x : LnkPort) (s : State) : (setLnk n x s).net = s.net := rfl
@[simp] theorem setLnk_hif (n : Nat) (x : LnkPort) (s : State) : (setLnk n x s).hif = s.hif := rfl
@[simp] theorem setLnk_dsp (n : Nat) (x : LnkPort) (s : State) : (setLnk n x s).dsp = s.dsp := rfl
@[simp] theorem setLnk_ldr (n : Nat) (x : LnkPort) (s : State) : (setLnk n x s).ldr = s.ldr := rfl
@[simp] theorem setLnk_scb (n : Nat) (x : LnkPort) (s : State) : (setLnk n x s).scb = s.scb := rfl
@[simp] theorem setLnk_trg (n : Nat) (x : LnkPort) (s : State) : (setLnk n x s).trg = s.trg := rfl
@[simp] theorem setLnk_trc (n : Nat) (x : LnkPort) (s : State) : (setLnk n x s).trc = s.trc := rfl
@[simp] theorem setLnk_pwr (n : Nat) (x : LnkPort) (s : State) : (setLnk n x s).pwr = s.pwr := rfl
@[simp] theorem setLnk_pins (n : Nat) (x : LnkPort) (s : State) : (setLnk n x s).pins = s.pins := rfl
@[simp] theorem setLnk_jtag (n : Nat) (x : LnkPort) (s : State) : (setLnk n x s).jtag = s.jtag := rfl
@[simp] theorem setLnk_hlt (n : Nat) (x : LnkPort) (s : State) : (setLnk n x s).hlt = s.hlt := rfl
@[simp] theorem setLnk_fuses (n : Nat) (x : LnkPort) (s : State) : (setLnk n x s).fuses = s.fuses := rfl
@[simp] theorem setLnk_out (n : Nat) (x : LnkPort) (s : State) : (setLnk n x s).out = s.out := rfl
@[simp] theorem setLnk_free (n : Nat) (x : LnkPort) (s : State) : (setLnk n x s).free = s.free := rfl
@[simp] theorem setLnk_pending (n : Nat) (x : LnkPort) (s : State) : (setLnk n x s).pending = s.pending := rfl

/-- Setting a port's record sets that port's and no other's. -/
@[simp] theorem lnkPort_setLnk (n : Nat) (x : LnkPort) (s : State) : lnkPort (setLnk n x s) n = x := look_upd_same _ _ _ _
theorem lnkPort_setLnk_ne {m n : Nat} (x : LnkPort) (s : State) (h : m ≠ n) : lnkPort (setLnk n x s) m = lnkPort s m :=
  look_upd_ne _ _ _ h

/-! `takeCycle`. -/
@[simp] theorem takeCycle_regs (p b : Nat) (s : State) : (takeCycle p b s).regs = s.regs := by unfold takeCycle iff; split <;> rfl
@[simp] theorem takeCycle_ctrs (p b : Nat) (s : State) : (takeCycle p b s).ctrs = s.ctrs := by unfold takeCycle iff; split <;> rfl
@[simp] theorem takeCycle_wide (p b : Nat) (s : State) : (takeCycle p b s).wide = s.wide := by unfold takeCycle iff; split <;> rfl
@[simp] theorem takeCycle_snaps (p b : Nat) (s : State) : (takeCycle p b s).snaps = s.snaps := by unfold takeCycle iff; split <;> rfl
@[simp] theorem takeCycle_evlog (p b : Nat) (s : State) : (takeCycle p b s).evlog = s.evlog := by unfold takeCycle iff; split <;> rfl
@[simp] theorem takeCycle_evTick (p b : Nat) (s : State) : (takeCycle p b s).evTick = s.evTick := by unfold takeCycle iff; split <;> rfl
@[simp] theorem takeCycle_evIn (p b : Nat) (s : State) : (takeCycle p b s).evIn = s.evIn := by unfold takeCycle iff; split <;> rfl
@[simp] theorem takeCycle_satDue (p b : Nat) (s : State) : (takeCycle p b s).satDue = s.satDue := by unfold takeCycle iff; split <;> rfl
@[simp] theorem takeCycle_cfg (p b : Nat) (s : State) : (takeCycle p b s).cfg = s.cfg := by unfold takeCycle iff; split <;> rfl
@[simp] theorem takeCycle_shadow (p b : Nat) (s : State) : (takeCycle p b s).shadow = s.shadow := by unfold takeCycle iff; split <;> rfl
@[simp] theorem takeCycle_slots (p b : Nat) (s : State) : (takeCycle p b s).slots = s.slots := by unfold takeCycle iff; split <;> rfl
@[simp] theorem takeCycle_groups (p b : Nat) (s : State) : (takeCycle p b s).groups = s.groups := by unfold takeCycle iff; split <;> rfl
@[simp] theorem takeCycle_bank (p b : Nat) (s : State) : (takeCycle p b s).bank = s.bank := by unfold takeCycle iff; split <;> rfl
@[simp] theorem takeCycle_deep (p b : Nat) (s : State) : (takeCycle p b s).deep = s.deep := by unfold takeCycle iff; split <;> rfl
@[simp] theorem takeCycle_winLow (p b : Nat) (s : State) : (takeCycle p b s).winLow = s.winLow := by unfold takeCycle iff; split <;> rfl
@[simp] theorem takeCycle_cox (p b : Nat) (s : State) : (takeCycle p b s).cox = s.cox := by unfold takeCycle iff; split <;> rfl
@[simp] theorem takeCycle_net (p b : Nat) (s : State) : (takeCycle p b s).net = s.net := by unfold takeCycle iff; split <;> rfl
@[simp] theorem takeCycle_lnk (p b : Nat) (s : State) : (takeCycle p b s).lnk = s.lnk := by unfold takeCycle iff; split <;> rfl
@[simp] theorem takeCycle_hif (p b : Nat) (s : State) : (takeCycle p b s).hif = s.hif := by unfold takeCycle iff; split <;> rfl
@[simp] theorem takeCycle_dsp (p b : Nat) (s : State) : (takeCycle p b s).dsp = s.dsp := by unfold takeCycle iff; split <;> rfl
@[simp] theorem takeCycle_ldr (p b : Nat) (s : State) : (takeCycle p b s).ldr = s.ldr := by unfold takeCycle iff; split <;> rfl
@[simp] theorem takeCycle_scb (p b : Nat) (s : State) : (takeCycle p b s).scb = s.scb := by unfold takeCycle iff; split <;> rfl
@[simp] theorem takeCycle_trg (p b : Nat) (s : State) : (takeCycle p b s).trg = s.trg := by unfold takeCycle iff; split <;> rfl
@[simp] theorem takeCycle_trc (p b : Nat) (s : State) : (takeCycle p b s).trc = s.trc := by unfold takeCycle iff; split <;> rfl
@[simp] theorem takeCycle_pwr (p b : Nat) (s : State) : (takeCycle p b s).pwr = s.pwr := by unfold takeCycle iff; split <;> rfl
@[simp] theorem takeCycle_pins (p b : Nat) (s : State) : (takeCycle p b s).pins = s.pins := by unfold takeCycle iff; split <;> rfl
@[simp] theorem takeCycle_jtag (p b : Nat) (s : State) : (takeCycle p b s).jtag = s.jtag := by unfold takeCycle iff; split <;> rfl
@[simp] theorem takeCycle_hlt (p b : Nat) (s : State) : (takeCycle p b s).hlt = s.hlt := by unfold takeCycle iff; split <;> rfl
@[simp] theorem takeCycle_fuses (p b : Nat) (s : State) : (takeCycle p b s).fuses = s.fuses := by unfold takeCycle iff; split <;> rfl
@[simp] theorem takeCycle_out (p b : Nat) (s : State) : (takeCycle p b s).out = s.out := by unfold takeCycle iff; split <;> rfl
@[simp] theorem takeCycle_free (p b : Nat) (s : State) : (takeCycle p b s).free = s.free := by unfold takeCycle iff; split <;> rfl
@[simp] theorem takeCycle_pending (p b : Nat) (s : State) : (takeCycle p b s).pending = s.pending := by unfold takeCycle iff; split <;> rfl

/-- A fold of port updates leaves every other field. -/
theorem foldl_setLnk {α : Type} (g : State → α) (hg : ∀ n x s, g (setLnk n x s) = g s) (f : State → Nat → LnkPort)
    (ps : List Nat) (s : State) : g (ps.foldl (fun x n => setLnk n (f x n) x) s) = g s := by
  induction ps generalizing s with
  | nil => rfl
  | cons p ps ih => rw [List.foldl_cons, ih, hg]

/-! `coxTo`. -/
@[simp] theorem coxTo_regs (ps : List Nat) (m : BitVec 4 × CoxMsg) (s : State) : (coxTo ps m s).regs = s.regs := foldl_setLnk _ (fun _ _ _ => rfl) _ _ s
@[simp] theorem coxTo_ctrs (ps : List Nat) (m : BitVec 4 × CoxMsg) (s : State) : (coxTo ps m s).ctrs = s.ctrs := foldl_setLnk _ (fun _ _ _ => rfl) _ _ s
@[simp] theorem coxTo_wide (ps : List Nat) (m : BitVec 4 × CoxMsg) (s : State) : (coxTo ps m s).wide = s.wide := foldl_setLnk _ (fun _ _ _ => rfl) _ _ s
@[simp] theorem coxTo_snaps (ps : List Nat) (m : BitVec 4 × CoxMsg) (s : State) : (coxTo ps m s).snaps = s.snaps := foldl_setLnk _ (fun _ _ _ => rfl) _ _ s
@[simp] theorem coxTo_evlog (ps : List Nat) (m : BitVec 4 × CoxMsg) (s : State) : (coxTo ps m s).evlog = s.evlog := foldl_setLnk _ (fun _ _ _ => rfl) _ _ s
@[simp] theorem coxTo_evTick (ps : List Nat) (m : BitVec 4 × CoxMsg) (s : State) : (coxTo ps m s).evTick = s.evTick := foldl_setLnk _ (fun _ _ _ => rfl) _ _ s
@[simp] theorem coxTo_evIn (ps : List Nat) (m : BitVec 4 × CoxMsg) (s : State) : (coxTo ps m s).evIn = s.evIn := foldl_setLnk _ (fun _ _ _ => rfl) _ _ s
@[simp] theorem coxTo_satDue (ps : List Nat) (m : BitVec 4 × CoxMsg) (s : State) : (coxTo ps m s).satDue = s.satDue := foldl_setLnk _ (fun _ _ _ => rfl) _ _ s
@[simp] theorem coxTo_cfg (ps : List Nat) (m : BitVec 4 × CoxMsg) (s : State) : (coxTo ps m s).cfg = s.cfg := foldl_setLnk _ (fun _ _ _ => rfl) _ _ s
@[simp] theorem coxTo_shadow (ps : List Nat) (m : BitVec 4 × CoxMsg) (s : State) : (coxTo ps m s).shadow = s.shadow := foldl_setLnk _ (fun _ _ _ => rfl) _ _ s
@[simp] theorem coxTo_slots (ps : List Nat) (m : BitVec 4 × CoxMsg) (s : State) : (coxTo ps m s).slots = s.slots := foldl_setLnk _ (fun _ _ _ => rfl) _ _ s
@[simp] theorem coxTo_groups (ps : List Nat) (m : BitVec 4 × CoxMsg) (s : State) : (coxTo ps m s).groups = s.groups := foldl_setLnk _ (fun _ _ _ => rfl) _ _ s
@[simp] theorem coxTo_bank (ps : List Nat) (m : BitVec 4 × CoxMsg) (s : State) : (coxTo ps m s).bank = s.bank := foldl_setLnk _ (fun _ _ _ => rfl) _ _ s
@[simp] theorem coxTo_deep (ps : List Nat) (m : BitVec 4 × CoxMsg) (s : State) : (coxTo ps m s).deep = s.deep := foldl_setLnk _ (fun _ _ _ => rfl) _ _ s
@[simp] theorem coxTo_winLow (ps : List Nat) (m : BitVec 4 × CoxMsg) (s : State) : (coxTo ps m s).winLow = s.winLow := foldl_setLnk _ (fun _ _ _ => rfl) _ _ s
@[simp] theorem coxTo_fab (ps : List Nat) (m : BitVec 4 × CoxMsg) (s : State) : (coxTo ps m s).fab = s.fab := foldl_setLnk _ (fun _ _ _ => rfl) _ _ s
@[simp] theorem coxTo_cox (ps : List Nat) (m : BitVec 4 × CoxMsg) (s : State) : (coxTo ps m s).cox = s.cox := foldl_setLnk _ (fun _ _ _ => rfl) _ _ s
@[simp] theorem coxTo_net (ps : List Nat) (m : BitVec 4 × CoxMsg) (s : State) : (coxTo ps m s).net = s.net := foldl_setLnk _ (fun _ _ _ => rfl) _ _ s
@[simp] theorem coxTo_hif (ps : List Nat) (m : BitVec 4 × CoxMsg) (s : State) : (coxTo ps m s).hif = s.hif := foldl_setLnk _ (fun _ _ _ => rfl) _ _ s
@[simp] theorem coxTo_dsp (ps : List Nat) (m : BitVec 4 × CoxMsg) (s : State) : (coxTo ps m s).dsp = s.dsp := foldl_setLnk _ (fun _ _ _ => rfl) _ _ s
@[simp] theorem coxTo_ldr (ps : List Nat) (m : BitVec 4 × CoxMsg) (s : State) : (coxTo ps m s).ldr = s.ldr := foldl_setLnk _ (fun _ _ _ => rfl) _ _ s
@[simp] theorem coxTo_scb (ps : List Nat) (m : BitVec 4 × CoxMsg) (s : State) : (coxTo ps m s).scb = s.scb := foldl_setLnk _ (fun _ _ _ => rfl) _ _ s
@[simp] theorem coxTo_trg (ps : List Nat) (m : BitVec 4 × CoxMsg) (s : State) : (coxTo ps m s).trg = s.trg := foldl_setLnk _ (fun _ _ _ => rfl) _ _ s
@[simp] theorem coxTo_trc (ps : List Nat) (m : BitVec 4 × CoxMsg) (s : State) : (coxTo ps m s).trc = s.trc := foldl_setLnk _ (fun _ _ _ => rfl) _ _ s
@[simp] theorem coxTo_pwr (ps : List Nat) (m : BitVec 4 × CoxMsg) (s : State) : (coxTo ps m s).pwr = s.pwr := foldl_setLnk _ (fun _ _ _ => rfl) _ _ s
@[simp] theorem coxTo_pins (ps : List Nat) (m : BitVec 4 × CoxMsg) (s : State) : (coxTo ps m s).pins = s.pins := foldl_setLnk _ (fun _ _ _ => rfl) _ _ s
@[simp] theorem coxTo_jtag (ps : List Nat) (m : BitVec 4 × CoxMsg) (s : State) : (coxTo ps m s).jtag = s.jtag := foldl_setLnk _ (fun _ _ _ => rfl) _ _ s
@[simp] theorem coxTo_hlt (ps : List Nat) (m : BitVec 4 × CoxMsg) (s : State) : (coxTo ps m s).hlt = s.hlt := foldl_setLnk _ (fun _ _ _ => rfl) _ _ s
@[simp] theorem coxTo_fuses (ps : List Nat) (m : BitVec 4 × CoxMsg) (s : State) : (coxTo ps m s).fuses = s.fuses := foldl_setLnk _ (fun _ _ _ => rfl) _ _ s
@[simp] theorem coxTo_out (ps : List Nat) (m : BitVec 4 × CoxMsg) (s : State) : (coxTo ps m s).out = s.out := foldl_setLnk _ (fun _ _ _ => rfl) _ _ s
@[simp] theorem coxTo_free (ps : List Nat) (m : BitVec 4 × CoxMsg) (s : State) : (coxTo ps m s).free = s.free := foldl_setLnk _ (fun _ _ _ => rfl) _ _ s
@[simp] theorem coxTo_pending (ps : List Nat) (m : BitVec 4 × CoxMsg) (s : State) : (coxTo ps m s).pending = s.pending := foldl_setLnk _ (fun _ _ _ => rfl) _ _ s

/-- A frame of 16 or 17 lanes gives the vote and the decoder 16 (R249, R251). -/
theorem sixteen_length {α : Type} (k : Nat) (l : List α) (h : l.length = 16 ∨ l.length = 17) : (sixteen k l).length = 16 := by
  unfold sixteen
  split
  · rw [List.length_take, List.length_set]; omega
  · next h16 => rw [List.getElem?_eq_none_iff] at h16; omega

end Sys2Proof.Machine
end

