-- ==== Sys2Proof/Laws/Memory.lean ====
section
/-! SUPPORT. The operations on bank and deep memory: a read after a write, and that each operation keeps the canonical
form. -/

namespace Sys2Proof.Machine

/-! A read after a write. -/

theorem bankCw_setBankCw (k : Nat) (v : BitVec 72) (s : State) (j : Nat) :
    bankCw (setBankCw k v s) j = if j = k then v else bankCw s j := look_upd 0 s.bank k v j

theorem deepCw_setDeepCw (k : Nat) (v : BitVec 288) (s : State) (j : Nat) :
    deepCw (setDeepCw k v s) j = if j = k then v else deepCw s j := look_upd 0 s.deep k v j

theorem bankCw_writeBank (k : Nat) (d : BitVec 64) (s : State) (j : Nat) :
    bankCw (writeBank k d s) j = if j = k then encode72 d else bankCw s j := by
  rw [← bankCw_setBankCw]; simp only [writeBank, bankCw, cancelBack_bank]

theorem deepCw_writeDeep (k : Nat) (d : BitVec 256) (s : State) (j : Nat) :
    deepCw (writeDeep k d s) j = if j = k then encodeDeep d else deepCw s j := by
  rw [← deepCw_setDeepCw]; simp only [writeDeep, deepCw, cancelBack_deep]

/-! The canonical form. -/

/-- The memory after reset lists nothing. -/
theorem reset_memory_wf : Memory.wf State.reset := by decide

/-- A change that leaves both memories alone keeps their form. -/
theorem wf_of_same {s t : State} (hb : t.bank = s.bank) (hd : t.deep = s.deep) (h : Memory.wf s) : Memory.wf t := by
  simpa [Memory.wf, hb, hd] using h

theorem wf_iff {c : Bool} {f : State → State} {s : State} (hf : Memory.wf s → Memory.wf (f s)) (h : Memory.wf s) :
    Memory.wf (iff c f s) := by
  cases c
  · exact h
  · exact hf h

theorem wf_setBankCw (k : Nat) (v : BitVec 72) {s : State} (h : Memory.wf s) : Memory.wf (setBankCw k v s) :=
  ⟨wf_upd k v h.1, h.2⟩

theorem wf_setDeepCw (k : Nat) (v : BitVec 288) {s : State} (h : Memory.wf s) : Memory.wf (setDeepCw k v s) :=
  ⟨h.1, wf_upd k v h.2⟩

theorem wf_writeBank (k : Nat) (d : BitVec 64) {s : State} (h : Memory.wf s) : Memory.wf (writeBank k d s) :=
  wf_of_same (cancelBack_bank ..) (cancelBack_deep ..) (wf_setBankCw k _ h)

theorem wf_writeDeep (k : Nat) (d : BitVec 256) {s : State} (h : Memory.wf s) : Memory.wf (writeDeep k d s) :=
  wf_of_same (cancelBack_bank ..) (cancelBack_deep ..) (wf_setDeepCw k _ h)

theorem wf_emptyBank (p b : Nat) {s : State} (h : Memory.wf s) : Memory.wf (emptyBank p b s) := ⟨wf_filter _ h.1, h.2⟩

theorem wf_turnBank (p b st : Nat) {s : State} (h : Memory.wf s) : Memory.wf (turnBank p b st s) :=
  wf_of_same (setFld_bank ..) (setFld_deep ..) (wf_iff (wf_emptyBank p b) h)

/-! What the records of memory errors leave alone. -/

@[simp] theorem oncePerCourse_bank (k u : Nat) (f : State → State) (s : State) (hf : ∀ x, (f x).bank = x.bank) :
    (oncePerCourse k u f s).bank = s.bank := by
  unfold oncePerCourse; split <;> simp [hf]

@[simp] theorem oncePerCourse_deep (k u : Nat) (f : State → State) (s : State) (hf : ∀ x, (f x).deep = x.deep) :
    (oncePerCourse k u f s).deep = s.deep := by
  unfold oncePerCourse; split <;> simp [hf]

/-- What a record of a bank error can do: it writes one register, or nothing. -/
theorem recordBank_cases (p i src : Nat) (e : Ecc) (ue : Bool) (s : State) :
    recordBank p i src e ue s = s ∨ ∃ a v, recordBank p i src e ue s = setReg a v s := by
  have h : ∀ (c : Bool) (a : Nat) (v : Word), (if c then setReg a v s else s) = s ∨
      ∃ a' v', (if c then setReg a v s else s) = setReg a' v' s := by
    intro c a v
    cases c
    · exact .inl rfl
    · exact .inr ⟨a, v, rfl⟩
  exact h _ _ _

/-- What a record of a deep error can do: it writes its two registers, or nothing. -/
theorem recordDeep_cases (k src port : Nat) (es : List Ecc) (ue : Bool) (s : State) :
    recordDeep k src port es ue s = s ∨ ∃ v w, recordDeep k src port es ue s = setReg 0xC0034 w (setReg 0xC0030 v s) := by
  have h : ∀ (c : Bool) (v w : Word), (if c then setReg 0xC0034 w (setReg 0xC0030 v s) else s) = s ∨
      ∃ v' w', (if c then setReg 0xC0034 w (setReg 0xC0030 v s) else s) = setReg 0xC0034 w' (setReg 0xC0030 v' s) := by
    intro c v w
    cases c
    · exact .inl rfl
    · exact .inr ⟨v, w, rfl⟩
  exact h _ _ _

@[simp] theorem recordBank_bank (p i src : Nat) (e : Ecc) (ue : Bool) (s : State) :
    (recordBank p i src e ue s).bank = s.bank := by
  obtain h | ⟨_, _, h⟩ := recordBank_cases p i src e ue s <;> rw [h]; exact setReg_bank ..

@[simp] theorem recordBank_deep (p i src : Nat) (e : Ecc) (ue : Bool) (s : State) :
    (recordBank p i src e ue s).deep = s.deep := by
  obtain h | ⟨_, _, h⟩ := recordBank_cases p i src e ue s <;> rw [h]; exact setReg_deep ..

@[simp] theorem recordDeep_bank (k src port : Nat) (es : List Ecc) (ue : Bool) (s : State) :
    (recordDeep k src port es ue s).bank = s.bank := by
  obtain h | ⟨_, _, h⟩ := recordDeep_cases k src port es ue s <;> rw [h]; exact setReg_bank ..

@[simp] theorem recordDeep_deep (k src port : Nat) (es : List Ecc) (ue : Bool) (s : State) :
    (recordDeep k src port es ue s).deep = s.deep := by
  obtain h | ⟨_, _, h⟩ := recordDeep_cases k src port es ue s <;> rw [h]; exact setReg_deep ..

theorem outOfAlloc_memory (p d desc inst : Nat) (s : State) :
    (outOfAlloc p d desc inst s).bank = s.bank ∧ (outOfAlloc p d desc inst s).deep = s.deep := by
  simp [outOfAlloc, iff_proj]

theorem xAddress_memory (p d : Nat) (s : State) :
    (xAddress p d s).bank = s.bank ∧ (xAddress p d s).deep = s.deep := by simp [xAddress]

theorem bankCorrected_memory (p i src : Nat) (raw : BitVec 72) (e : Ecc) (s : State) :
    (bankCorrected p i src raw e s).bank = s.bank ∧ (bankCorrected p i src raw e s).deep = s.deep := by
  simp [bankCorrected, iff_proj]

theorem deepCorrected_memory (k src port pav : Nat) (raw : BitVec 288) (es : List Ecc) (s : State) :
    (deepCorrected k src port pav raw es s).bank = s.bank ∧ (deepCorrected k src port pav raw es s).deep = s.deep := by
  simp [deepCorrected, iff_proj]

/-! Reads, which may poison a codeword, and the writes of the design, the host and the scrubbers. -/

theorem wf_bankPoison (p i src inst : Nat) (raw : BitVec 72) (e : Ecc) {s : State} (h : Memory.wf s) :
    Memory.wf (bankPoison p i src inst raw e s) :=
  wf_of_same (s := iff (bankCw s (bankKey p i) == raw) (setBankCw (bankKey p i) (BitVec.ofNat 72 (poison72 e.data))) s)
    (by simp [bankPoison]) (by simp [bankPoison]) (wf_iff (wf_setBankCw _ _) h)

theorem wf_deepPoison (k src port pav inst : Nat) (raw : BitVec 288) (es : List Ecc) {s : State} (h : Memory.wf s) :
    Memory.wf (deepPoison k src port pav inst raw es s) :=
  wf_of_same (s := iff (deepCw s k == raw)
      (setDeepCw k (joinDeep (es.zipIdx.map fun (e, j) => if e.cls == .bad then poison72 e.data else subword raw j))) s)
    (by simp [deepPoison]) (by simp [deepPoison]) (wf_iff (wf_setDeepCw _ _) h)

theorem wf_bankRead (p i src : Nat) {s : State} (h : Memory.wf s) : Memory.wf (bankRead p i src s).2 := by
  unfold bankRead
  dsimp only
  split
  · exact h
  · exact wf_of_same (bankCorrected_memory ..).1 (bankCorrected_memory ..).2 h
  · exact wf_bankPoison _ _ _ _ _ _ h

theorem wf_deepRead (k src : Nat) (g : BitVec 288) {s : State} (h : Memory.wf s) :
    Memory.wf (deepRead k src g s).2 := by
  have hc : ∀ pav raw es x, Memory.wf x → Memory.wf (deepCorrected k src 0 pav raw es x) := fun _ _ _ _ hx =>
    wf_of_same (deepCorrected_memory ..).1 (deepCorrected_memory ..).2 hx
  have hn : Memory.wf (count 0xC0028 s) := wf_of_same (count_bank ..) (count_deep ..) h
  rw [deepRead]
  generalize stackPav _ = pav
  split
  · exact h
  · exact hc _ _ _ _ h
  · extract_lets es2
    split
    · exact hn
    · exact hc _ _ _ _ hn
    · exact wf_deepPoison _ _ _ _ _ _ _ h

theorem wf_performWrite (p d desc : Nat) (cs : List Contrib) (inst idx : Nat) {s : State} (h : Memory.wf s) :
    Memory.wf (performWrite p d desc cs inst idx s) := by
  unfold performWrite
  extract_lets deep en kind go
  cases go
  · exact h
  · simp only [Bool.not_true, Bool.false_eq_true, if_false]
    split
    · exact wf_of_same (xAddress_memory ..).1 (xAddress_memory ..).2 h
    · split
      · exact wf_of_same (outOfAlloc_memory ..).1 (outOfAlloc_memory ..).2 h
      · split
        · exact wf_writeDeep _ _ h
        · exact wf_writeBank _ _ h

theorem wf_writeFree (k : Nat) (d : BitVec 64) {s : State} (h : Memory.wf s) : Memory.wf (writeFree k d s) :=
  wf_writeBank k d (wf_iff (fun hx => hx) h)

/-- Taking a bank cycle changes only the list of grants. -/
theorem wf_takeCycle (p b : Nat) {s : State} (h : Memory.wf s) : Memory.wf (takeCycle p b s) := by
  unfold takeCycle iff
  split <;> exact h

theorem wf_takeFor (p b rank : Nat) {s : State} (h : Memory.wf s) : Memory.wf (takeFor p b rank s) := wf_takeCycle _ _ h

/-- A capture write stores one codeword of its sample. -/
theorem wf_storeSample (w : CapWrite) {s : State} (h : Memory.wf s) : Memory.wf (storeSample w s) := by
  unfold storeSample
  split
  · exact wf_writeFree _ _ (wf_of_same rfl rfl h)
  · exact wf_of_same rfl rfl h

theorem wf_writeBack {s : State} (h : Memory.wf s) : Memory.wf (writeBack s) := by
  unfold writeBack
  split
  · exact h
  · dsimp only
    split
    · exact wf_iff (wf_setDeepCw _ _) (wf_of_same rfl rfl h)
    · exact wf_takeCycle _ _ (wf_iff (wf_setBankCw _ _) (wf_of_same rfl rfl h))

theorem wf_writeCws (p : Nat) (ws : List (BitVec 64)) (i : Nat) {s : State} (h : Memory.wf s) :
    Memory.wf (writeCws p ws i s).2.2 := by
  induction ws generalizing i s with
  | nil => exact h
  | cons w ws ih =>
    unfold writeCws
    split
    · exact h
    · exact ih (i + 1) (wf_writeFree _ _ h)

theorem wf_hostWrite (p : Nat) (ws : List (BitVec 64)) (i : Nat) {s : State} (h : Memory.wf s) :
    Memory.wf (hostWrite p ws i s).2.2 := by
  unfold hostWrite
  split
  · exact wf_writeCws p ws i h
  · exact wf_writeCws p _ i h

theorem wf_writeDeepCws (st n : Nat) (ws : List (BitVec 64)) (i : Nat) {s : State} (h : Memory.wf s) :
    Memory.wf (writeDeepCws st n ws i s).2.2 := by
  induction n generalizing ws i s with
  | zero => exact h
  | succ n ih =>
    unfold writeDeepCws
    split
    · exact h
    · exact ih _ (i + 1) (wf_writeDeep _ _ h)

theorem wf_windowWrite (off : Nat) (v : Word) {s : State} (h : Memory.wf s) : Memory.wf (windowWrite off v s) := by
  unfold windowWrite
  dsimp only
  split
  · exact wf_of_same rfl rfl h
  · split
    · exact wf_of_same rfl rfl h
    · split
      · exact wf_iff (wf_writeFree _ _) (wf_of_same rfl rfl h)
      · exact h

theorem wf_upset (x : Target) {s : State} (h : Memory.wf s) : Memory.wf (upset x s) := by
  have hc : ∀ k b, Memory.wf (flipCfg k b s) := fun k b => by
    unfold flipCfg; split <;> exact h
  have hg : ∀ k b, Memory.wf (flipGroup k b s) := fun k b => by
    unfold flipGroup; split <;> exact h
  have hs : ∀ p c b j n, Memory.wf (flipSlot p c b j n s) := fun p c b j n => by
    unfold flipSlot; split
    · exact wf_of_same (setSlot_bank ..) (setSlot_deep ..) h
    · exact hg _ _
  unfold upset
  split
  all_goals try extract_lets
  all_goals repeat' split
  all_goals first
    | exact h
    | exact hc _ _
    | exact hg _ _
    | exact hs _ _ _ _ _
    | exact wf_setBankCw _ _ h
    | exact wf_setDeepCw _ _ h

end Sys2Proof.Machine
end

