-- ==== Sys2Proof/Laws/Regs.lean ====
section
/-! SUPPORT. Registers: a read after a write, of a whole register and of a field, and the registers that logging leaves as
they stand. -/

namespace Sys2Proof.Machine

theorem reg_of_regs {s t : State} (h : t.regs = s.regs) (a : Nat) : reg t a = reg s a := by simp [reg, h]

/-- A read of a register after a write of one. -/
theorem reg_setReg (a : Nat) (v : Word) (s : State) (b : Nat) :
    reg (setReg a v s) b = if b = a then v else reg s b := by
  unfold reg setReg
  by_cases h : b = a
  · subst h; simp
  · simp only [look_upd_other _ _ _ _ h, if_neg h]

@[simp] theorem reg_setReg_same (a : Nat) (v : Word) (s : State) : reg (setReg a v s) a = v := by
  simp [reg_setReg]

theorem reg_setReg_ne {a b : Nat} (v : Word) (s : State) (h : b ≠ a) : reg (setReg a v s) b = reg s b := by
  simp [reg_setReg, h]

theorem reg_setFld_ne {f : Fld} {b : Nat} (v : Nat) (s : State) (h : b ≠ f.a) : reg (setFld f v s) b = reg s b :=
  reg_setReg_ne _ s h

theorem reg_setFlag_ne {f : Fld} {b : Nat} (v : Bool) (s : State) (h : b ≠ f.a) : reg (setFlag f v s) b = reg s b :=
  reg_setReg_ne _ s h

/-! Fields of a word. -/

theorem bits_eq {n : Nat} (x : BitVec n) (lo w : Nat) : bits x lo w = x.toNat / 2 ^ lo % 2 ^ w := by
  simp [bits, BitVec.extractLsb', Nat.shiftRight_eq_div_pow]

theorem getLsbD_maskAt (n lo w i : Nat) :
    (maskAt n lo w).getLsbD i = (decide (i < n) && decide (lo ≤ i) && decide (i < lo + w)) := by
  unfold maskAt
  rw [BitVec.getLsbD_ofNat, Nat.testBit_mul_two_pow, Nat.testBit_two_pow_sub_one]
  by_cases h1 : i < n <;> by_cases h2 : lo ≤ i <;> simp [h1, h2] <;> omega

theorem getLsbD_put {n : Nat} (x : BitVec n) (lo w v i : Nat) :
    (put x lo w v).getLsbD i =
      if lo ≤ i ∧ i < lo + w then decide (i < n) && v.testBit (i - lo) else x.getLsbD i := by
  unfold put
  rw [BitVec.getLsbD_or, BitVec.getLsbD_and, BitVec.getLsbD_not, getLsbD_maskAt, BitVec.getLsbD_ofNat,
    Nat.testBit_mul_two_pow, Nat.testBit_mod_two_pow]
  by_cases h1 : i < n
  · by_cases h2 : lo ≤ i
    · by_cases h3 : i < lo + w
      · have h4 : i - lo < w := by omega
        simp [h1, h2, h3, h4]
      · have h4 : ¬ i - lo < w := by omega
        simp [h1, h2, h3, h4]
    · simp [h1, h2]
  · have := BitVec.getLsbD_of_ge x i (by omega)
    by_cases h2 : lo ≤ i ∧ i < lo + w <;> simp [h1, this, h2]

/-- A field reads what was put into it. -/
theorem bits_put {n : Nat} (x : BitVec n) (lo w v : Nat) (h : lo + w ≤ n) : bits (put x lo w v) lo w = v % 2 ^ w := by
  apply Nat.eq_of_testBit_eq
  intro i
  rw [bits_eq, Nat.testBit_mod_two_pow, Nat.testBit_mod_two_pow]
  by_cases hi : i < w
  · have : (put x lo w v).toNat.testBit (lo + i) = v.testBit i := by
      have := getLsbD_put x lo w v (lo + i)
      rw [BitVec.getLsbD] at this
      rw [this, if_pos (by omega)]
      have : lo + i < n := by omega
      simp [this]
    rw [← Nat.shiftRight_eq_div_pow, Nat.testBit_shiftRight, this]
  · simp [hi]

/-- A field keeps its value when another field is put into. -/
theorem bits_put_other {n : Nat} (x : BitVec n) (lo w v lo' w' : Nat) (h : lo' + w' ≤ lo ∨ lo + w ≤ lo') :
    bits (put x lo w v) lo' w' = bits x lo' w' := by
  apply Nat.eq_of_testBit_eq
  intro i
  rw [bits_eq, bits_eq, Nat.testBit_mod_two_pow, Nat.testBit_mod_two_pow]
  by_cases hi : i < w'
  · have : (put x lo w v).toNat.testBit (lo' + i) = x.toNat.testBit (lo' + i) := by
      have := getLsbD_put x lo w v (lo' + i)
      rw [BitVec.getLsbD] at this
      rw [this, if_neg (by omega), BitVec.getLsbD]
    rw [← Nat.shiftRight_eq_div_pow, ← Nat.shiftRight_eq_div_pow, Nat.testBit_shiftRight, Nat.testBit_shiftRight, this]
  · simp [hi]

theorem fld_setFld (f : Fld) (v : Nat) (s : State) (h : f.lo + f.w ≤ 32) : fld (setFld f v s) f = v % 2 ^ f.w := by
  unfold fld setFld
  rw [reg_setReg_same]
  exact bits_put _ _ _ _ h

theorem fld_setFld_reg {f g : Fld} (v : Nat) (s : State) (h : g.a ≠ f.a) : fld (setFld f v s) g = fld s g := by
  unfold fld; rw [reg_setFld_ne v s h]

theorem fld_setFld_bits {f g : Fld} (v : Nat) (s : State) (h : g.lo + g.w ≤ f.lo ∨ f.lo + f.w ≤ g.lo) :
    fld (setFld f v s) g = fld s g := by
  by_cases ha : g.a = f.a
  · unfold fld setFld
    rw [ha, reg_setReg_same]
    exact bits_put_other _ _ _ _ _ _ h
  · exact fld_setFld_reg v s ha

theorem fld_of_reg {s t : State} {f : Fld} (h : reg t f.a = reg s f.a) : fld t f = fld s f := by simp [fld, h]

/-! Registers that logging and counting leave as they stand: all but the log's own at 0x20. -/

theorem reg_bump (a n : Nat) (s : State) (b : Nat) : reg (bump a n s) b = reg s b := reg_of_regs (by simp) b
theorem reg_commit (t f o : BitVec 8) (ws : List (BitVec 64)) (s : State) (b : Nat) :
    reg (commit t f o ws s) b = reg s b := reg_of_regs (by simp) b
theorem reg_commitSecure (f : BitVec 8) (ws : List (BitVec 64)) (s : State) (b : Nat) :
    reg (commitSecure f ws s) b = reg s b := reg_of_regs (by simp) b

theorem reg_log0 (c l d : Nat) (s : State) {b : Nat} (h : b ≠ 0x20) : reg (log0 c l d s) b = reg s b := by
  have h1 : ∀ (v : Nat) (x : State), reg (setFld fEvNext v x) b = reg x b := fun v x => reg_setFld_ne v x h
  have h2 : ∀ (v : Bool) (x : State), reg (setFlag fEvWrapped v x) b = reg x b := fun v x => reg_setFlag_ne v x h
  have h3 : ∀ (x : State) (m : Sparse (BitVec 128)) (i j : Nat), reg { x with evlog := m, evTick := i, evIn := j } b = reg x b :=
    fun _ _ _ _ => rfl
  simp only [log0, iff]
  split_ifs <;> simp only [reg_commitSecure, reg_commit, h1, h2, h3, reg_bump]

theorem reg_settle (k : Nat) (s : State) {b : Nat} (h : b ≠ 0x20) : reg (settle k s) b = reg s b := by
  induction k generalizing s with
  | zero => rfl
  | succ k ih =>
    unfold settle
    split
    · rfl
    · rw [ih, reg_log0 _ _ _ _ h]; rfl

theorem reg_logEvent (c l d : Nat) (s : State) {b : Nat} (h : b ≠ 0x20) : reg (logEvent c l d s) b = reg s b := by
  unfold logEvent; rw [reg_settle _ _ h, reg_log0 _ _ _ _ h]

theorem reg_countN (a n : Nat) (s : State) {b : Nat} (h : b ≠ 0x20) : reg (countN a n s) b = reg s b := by
  unfold countN; rw [reg_settle _ _ h, reg_bump]

theorem reg_count (a : Nat) (s : State) {b : Nat} (h : b ≠ 0x20) : reg (count a s) b = reg s b :=
  reg_countN a 1 s h

/-! Counters. -/

theorem ctr_bump (a n : Nat) (s : State) : ctr (bump a n s) a = min (2 ^ 48 - 1) (ctr s a + n) := by
  have key : ∀ v c : Nat, v < 2 ^ 48 → bits (BitVec.ofNat 49 (v + if c = 1 then 2 ^ 48 else 0)) 0 48 = v := by
    intro v c hv
    rw [bits_eq, BitVec.toNat_ofNat]
    split <;> omega
  have hv : stick (2 ^ 48 - 1) (ctr s a) n < 2 ^ 48 := by unfold stick; omega
  have : (look 0 (bump a n s).ctrs a) = BitVec.ofNat 49 (stick (2 ^ 48 - 1) (ctr s a) n +
      if (stick (2 ^ 48 - 1) (ctr s a) n == 2 ^ 48 - 1 || (look 0 s.ctrs a).getLsbD 48) = true then 2 ^ 48 else 0) := by
    unfold bump ctr
    dsimp only
    split <;> simp
  unfold ctr at *
  rw [this, bits_eq, BitVec.toNat_ofNat]
  unfold stick at *
  split <;> omega

theorem ctr_of_ctrs {s t : State} (h : t.ctrs = s.ctrs) (a : Nat) : ctr t a = ctr s a := by simp [ctr, h]

theorem ctr_bump_ne {a b : Nat} (n : Nat) (s : State) (h : b ≠ a) : ctr (bump a n s) b = ctr s b := by
  have : look 0 (bump a n s).ctrs b = look 0 s.ctrs b := by
    unfold bump
    dsimp only
    split <;> exact look_upd_ne _ _ _ h
  simp only [ctr, this]

theorem ctr_commit (t f o : BitVec 8) (ws : List (BitVec 64)) (s : State) (b : Nat) :
    ctr (commit t f o ws s) b = ctr s b := ctr_of_ctrs (by simp) b

/-- A counter other than GLB.EVLOG_OVER and TRC.SUPPRESSED, which logging itself counts in. -/
def plainCtr (b : Nat) : Prop := b ≠ 0x24 ∧ b ≠ 0x700C8

theorem ctr_commitSecure (f : BitVec 8) (ws : List (BitVec 64)) (s : State) {b : Nat} (h : plainCtr b) :
    ctr (commitSecure f ws s) b = ctr s b := by
  unfold commitSecure
  split_ifs
  · exact ctr_commit _ _ _ _ _ _
  · exact ctr_bump_ne _ _ h.2
  · rfl

theorem ctr_log0 (c l d : Nat) (s : State) {b : Nat} (h : plainCtr b) : ctr (log0 c l d s) b = ctr s b := by
  have h1 : ∀ (f : Fld) (v : Nat) (x : State), ctr (setFld f v x) b = ctr x b := fun f v x => ctr_of_ctrs (by simp) b
  have h2 : ∀ (f : Fld) (v : Bool) (x : State), ctr (setFlag f v x) b = ctr x b := fun f v x => ctr_of_ctrs (by simp) b
  have h3 : ∀ (x : State) (m : Sparse (BitVec 128)) (i j : Nat), ctr { x with evlog := m, evTick := i, evIn := j } b = ctr x b :=
    fun _ _ _ _ => rfl
  simp only [log0, iff]
  split_ifs <;> simp only [ctr_commitSecure _ _ _ h, ctr_commit, h1, h2, h3, ctr_bump_ne _ _ h.1]

theorem ctr_settle (k : Nat) (s : State) {b : Nat} (h : plainCtr b) : ctr (settle k s) b = ctr s b := by
  induction k generalizing s with
  | zero => rfl
  | succ k ih =>
    unfold settle
    split
    · rfl
    · rw [ih, ctr_log0 _ _ _ _ h]; rfl

theorem ctr_logEvent (c l d : Nat) (s : State) {b : Nat} (h : plainCtr b) : ctr (logEvent c l d s) b = ctr s b := by
  unfold logEvent; rw [ctr_settle _ _ h, ctr_log0 _ _ _ _ h]

/-- Counting adds to its counter, which sticks at its maximum (R532). -/
theorem ctr_countN (a n : Nat) (s : State) (h : plainCtr a) : ctr (countN a n s) a = min (2 ^ 48 - 1) (ctr s a + n) := by
  unfold countN; rw [ctr_settle _ _ h, ctr_bump]

theorem ctr_count (a : Nat) (s : State) (h : plainCtr a) : ctr (count a s) a = min (2 ^ 48 - 1) (ctr s a + 1) :=
  ctr_countN a 1 s h

theorem ctr_countN_ne {a b : Nat} (n : Nat) (s : State) (h : plainCtr b) (hn : b ≠ a) :
    ctr (countN a n s) b = ctr s b := by
  unfold countN; rw [ctr_settle _ _ h, ctr_bump_ne _ _ hn]

end Sys2Proof.Machine
end

