-- ==== Sys2Proof/Tests/Slice0.lean ====
section
/-! SUPPORT. Tests of the model: well-formedness, worked examples of the manual, and for every statement states and
operands that meet the hypotheses of each of its clauses. -/

set_option exponentiation.threshold 4096

namespace Sys2Proof.Tests

open Sys2Proof Sys2Proof.Machine

/-! A small image and the states that the tests start from. -/

/-- A manifest of a design part whose checks all pass. -/
def man0 : Manifest :=
  { magic := 0x464E4D56, format := 1, kind := 3, keySlot := 0, imageId := 0x11, ver := 2, chunkLog2 := 16, chunks := 1,
    bodyLen := 0xB000, tableSha := 0, ecdsaKey := BitVec.ofNat 776 (4 * 2 ^ 768),
    lmsKey := BitVec.ofNat 448 (7 * 2 ^ 416 + 3 * 2 ^ 384), zero := true, ecdsaOk := true, lmsOk := true, keySha := 0,
    digest := 0x5D }

/-- The little-endian fields of a header that obeys nothing yet: offset, bytes and value (R146). One package, pavilion 0
used and in region 0, L = 16. -/
def fields0 : List (Nat × Nat × Nat) :=
  [(0x04, 2, 1), (0x06, 2, 4), (0x08, 8, 0x11), (0x10, 2, 16), (0x12, 1, 0x3E), (0x13, 1, 1), (0x14, 1, 1), (0x16, 2, 1),
   (0x20, 16, 1), (0x32, 2, 1), (0x34, 2, 1), (0x36, 2, 1), (0x100, 16, 1)]
/-- The header with some of its fields replaced. -/
def headWith (fs : List (Nat × Nat × Nat)) : Sparse (BitVec 8) :=
  (fields0 ++ fs).foldl (fun m f => (List.range f.2.1).foldl (fun m i =>
    upd 0 m (f.1 + i) (BitVec.ofNat 8 (f.2.2 / 256 ^ i))) m) []

/-- The part: no frame listed. -/
def im0 : Stream :=
  { man := man0, table := [0], tableSha := 0, chunkSha := [0], head := headWith [], ports := [], tblMagic := 0x4C425446,
    payloads := 0, tblZero := 0, frames := [], settings := [] }

/-- The Keeper is up, self-test is done, deep memory is initialised, and no image is loaded. -/
def up0 : State :=
  { State.reset with pwr := { State.reset.pwr with boot := .up }, regs := [(0x10, 0x10000000), (0xC0004, 0x80000000)] }

/-- The part runs in CAPACITY, at stroke 3, every release stage in effect. -/
def run0 : State :=
  { up0 with cox := { up0.cox with st := .run, length := 16, stroke := 3, started := true, mode := .capacity },
             ldr := { up0.ldr with image := some im0, stage := 3, target := 3 } }

/-- The running part in another mode. -/
def inMode (m : Mode) (s : State) : State := { s with cox := { s.cox with mode := m } }
/-- The running part in another controller state. -/
def inSt (x : CoxState) (s : State) : State := { s with cox := { s.cox with st := x } }
/-- The running part with one configuration word. -/
def withCfg (k : Nat) (d : BitVec 64) (s : State) : State := { s with cfg := ins s.cfg k (encode72 d) }
/-- The running part with the word of BP 0.0.0 for this stroke. -/
def withWord (d : BitVec 64) (s : State) : State := withCfg (schedKey 0 0 0 3) d s


/-! BPs. -/

/-- The running part in which BP 0.0.0 reads an instruction of class `op` in this stroke. -/
def bpAt (op : Nat) : State := withWord (BitVec.ofNat 64 op) run0

/-- The running part in which BP 127.63.15 reads an instruction of class `op` in the last stroke. -/
def bpEnd (op : Nat) : State :=
  withCfg (schedKey 127 63 15 15) (BitVec.ofNat 64 op) { run0 with cox := { run0.cox with stroke := 15 } }

theorem wit_BpEvalWritesSlot :
    valsOf (bpAt 1) = .one ∧
    released (bpAt 1) 0 2 = true ∧ bpSound (bpAt 1) 0 0 0 1 = true ∧ released (bpAt 2) 0 2 = true ∧
    bpSound (bpAt 2) 0 0 0 2 = true ∧ released (bpEnd 1) 127 2 = true ∧ bpSound (bpEnd 1) 127 63 15 1 = true := by
  decide

/-- A quad at BPs 0 to 3 whose leader selects: the members are NOPs; and one whose member 1 is uncorrectable. -/
def quad0 : State := bpAt 3
def quadBad : State := { bpAt 3 with cfg := ins (bpAt 3).cfg (schedKey 0 0 1 3) 3 }

theorem wit_BpWide :
    released quad0 0 2 = true ∧ bpSound quad0 0 0 0 3 = true ∧
    (wideValue quad0 0 0 0 (bpWord quad0 0 0 0)).isSome = true ∧
    bpSound quadBad 0 0 0 3 = true ∧ fourState quadBad = false ∧
    wideValue quadBad 0 0 0 (bpWord quadBad 0 0 0) = none ∧
    released (bpEnd 3) 127 2 = true ∧ bpSound (bpEnd 3) 127 63 15 3 = true ∧ (15 : Bp).toNat % 4 ≠ 0 := by decide

theorem wit_BpStagesEffect :
    released (bpAt 4) 0 2 = true ∧ bpSound (bpAt 4) 0 0 0 4 = true ∧ bpSound (bpAt 5) 0 0 0 5 = true ∧
    bpSound (bpAt 6) 0 0 0 6 = true ∧ bpSound (bpAt 7) 0 0 0 7 = true ∧ bpSound (bpEnd 7) 127 63 15 7 = true := by decide

/-- The running part before its first release stage. -/
def early (s : State) : State := { s with ldr := { s.ldr with stage := 0 } }

/-- The running part in which the word of BP 0.0.0 is uncorrectable. -/
def bpBad : State := { run0 with cfg := [(schedKey 0 0 0 3, 3)] }

theorem wit_BpWithoutEffect :
    (stageOf (early (bpAt 10)) 0 = 0 ∧ bpSound (early (bpAt 10)) 0 0 0 10 = true) ∧ bpSound (bpAt 0) 0 0 0 0 = true ∧
    bpBroken bpBad 0 0 0 = true ∧ fourState bpBad = false ∧
    bpBroken (inMode .fourstate bpBad) 0 0 0 = true ∧ fourState (inMode .fourstate bpBad) = true ∧
    released (inMode .fourstate bpBad) 0 2 = true := by decide

/-- A TRAPCHK whose function is 1 everywhere. -/
def trapAt : State := withWord 0xFFFF00000000000A run0

theorem wit_BpOutputs :
    released (bpAt 8) 0 2 = true ∧ plainMode (bpAt 8) = true ∧ bpSound (bpAt 8) 0 0 0 8 = true ∧
    fourState (bpAt 9) = false ∧ bpSound (bpAt 9) 0 0 0 9 = true ∧ plainMode trapAt = true ∧
    bpSound trapAt 0 0 0 10 = true ∧ flag trapAt fTrapHalt = false ∧
    flag (setFlag fTrapHalt true trapAt) fTrapHalt = true ∧
    bpSound (setFlag fTrapHalt true trapAt) 0 0 0 10 = true := by decide

/-! Memory pipelines. -/

theorem wit_CheckBits : (0 : Nat) < 72 ∧ (71 : Nat) < 72 ∧ (0 : Nat) < 1 ∧ (70 : Nat) < 71 := by decide

/-- A bank read of pavilion 0, port 1, due in this stroke. -/
def bRd : BankRead :=
  { pav := 0, port := 1, due := 3, cw0 := some 5, cw1 := none, raw0 := encode72 7, raw1 := 0, inst := 1, merge := false }
def bankDue : State := { run0 with fab := { run0.fab with bankRds := [bRd] } }

/-- A deep read of terrace 2, pavilion 3, in a stage, due in this stroke. -/
def dRd (x : DeepStage) : DeepRead :=
  { terr := 2, pav := 3, due := 3, tick := 0, cw0 := some 9, cw1 := none, raw0 := 0, raw1 := 0, inst := 1,
    merge := false, stage := x, data := 1 }
def deepDue (x : DeepStage) : State := { run0 with fab := { run0.fab with deepRds := [dRd x] } }

theorem wit_MemoryReads :
    ((running bankDue && bankDue.fab.retired.isEmpty) = true ∧ valsOf bankDue = .one ∧ dueBank bankDue 0 1 = some bRd ∧
      bRd.inst = 1 ∧ bRd.merge = false ∧ bRd.cw0 = some 5 ∧ (check72 bRd.raw0).cls = .clean) ∧
    (fleet (deepDue .issued) = false ∧
      ((deepDue .issued).fab.deepRds.find? fun r => r.terr == 2 && r.stage != .arrived) = some (dRd .issued) ∧
      deepClass (checkDeep (dRd .issued).raw0) = .clean) ∧
    ((deepDue .missed).fab.deepRds.find? fun r => r.terr == 2 && r.stage != .arrived) = some (dRd .missed) ∧
    ((running (deepDue .arrived) && (deepDue .arrived).fab.retired.isEmpty) = true ∧
      dueDeep (deepDue .arrived) 2 = some (dRd .arrived)) ∧
    dueDeep (deepDue .issued) 2 = some (dRd .issued) ∧
    dueDeep (inMode .tethered (deepDue .issued)) 2 = some (dRd .issued) := by decide

/-- A pending write-back of bank codeword 5. -/
def backAt : State :=
  { run0 with bank := [(5, 1)], fab := { run0.fab with backs := [{ deep := false, key := 5, old := 1, new := 3 }] } }

/-- The running part with bank 0 of pavilion 0 on. -/
def bankOn : State := setBank 0 0 0 run0

theorem wit_MemoryUpkeep :
    (backAt.fab.backs = { deep := false, key := 5, old := 1, new := 3 } :: [] ∧ backGranted backAt = true ∧
      backGranted { backAt with fab := { backAt.fab with grants := List.replicate 4 0 } } = false) ∧
    (bankOn.scb.full = none ∧ bits (reg bankOn 0x60100) 0 16 ≠ 0 ∧
      nextBankItem bankOn (bits (reg bankOn 0x60108) 0 23) = some 0 ∧ nextBankItem bankOn 1 = some 1 ∧
      (check72 (bankCw bankOn 0)).cls = .clean ∧ bankScrubMay bankOn 0 = true) ∧
    (run0.scb.full = none ∧ bits (reg run0 0x60104) 0 16 ≠ 0 ∧ deepUp run0 = true ∧
      bits (reg run0 0x6010C) 0 31 + 1 < 2 ^ 31 ∧
      deepClass (checkDeep (deepCw run0 (bits (reg run0 0x6010C) 0 31))) = .clean ∧
      schedDeep run0 (bits (reg run0 0x6010C) 0 31) = false) := by decide

/-! The network. -/

/-- A VN0 flit at the input W of router 0 in stroke 3, for a port and a tag. -/
def flitTo (next tag : Nat) : Flit :=
  { bits := BitVec.ofNat 64 (next * 2 ^ 36 + tag * 2 ^ 45 + 5 * 2 ^ 39 + (if next = 2 then 0x11000 else 0) * 2 ^ 18),
    at_ := 0, inp := 4, due := 6 }
/-- The running part with that flit, its output reserved in cycle 6 of the course. -/
def flitState (f : Flit) (k : Nat) : State :=
  withCfg (cfgKey (frameKey 3 0 0 0 0) 0) (BitVec.ofNat 64 (2 ^ (48 + k))) { run0 with net := { run0.net with flits := [f] } }
/-- A valid route entry that launches in the second half of stroke 3, one link east. -/
def launchState : State :=
  withCfg (cfgKey (frameKey 4 0 0 0 0) 0) (BitVec.ofNat 64 (2 ^ 63 + 3 * 2 ^ 53 + 2 ^ 52 + 0x11000 * 2 ^ 28)) run0
def deadPort (s : State) : State := { s with net := { s.net with ports := [(0, .dead)] } }

theorem wit_Vn0Flits :
    (running launchState && enabled launchState 0 && released launchState 0 1 &&
      launchNow launchState (sroute launchState 0 0) && !launchState.fab.marks.contains (7, 0)) = true ∧
    (let f := flitTo 2 6; let s := flitState f 2;
      running s = true ∧ flitAt s 0 4 (· != 0) = some f ∧ unopposed s f = true ∧ flitNext f.bits ≤ 4) ∧
    (let f := flitTo 0 6; let s := flitState f 0;
      flitAt s 0 4 (· == 0) = some f ∧ unopposed s f = true ∧ portState s 0 = .live ∧
      flitTag f.bits = cycleTag s (cycleOf s f) ∧ portWrites s 0 (flitRreg f.bits) s.cox.stroke = false) ∧
    (let f := flitTo 0 6; let s := deadPort (flitState f 0);
      flitAt s 0 4 (· == 0) = some f ∧ unopposed s f = true ∧ portState s 0 ≠ .live) := by decide

/-- A flit held in a port's buffer for gateway 0, with a valid ingress entry at its tag 6. -/
def heldAt : HeldFlit := { port := 1, bits := BitVec.ofNat 64 (6 * 2 ^ 45), due := 6 }
def ingressState : State :=
  withCfg (cfgKey (frameKey 4 0 0 0 2) 3) 0x80000000 { run0 with net := { run0.net with held := [heldAt] } }

theorem wit_Vn0DropsAndIngress :
    (received (flitTo 0 6).bits 1 = none ∧ received (flitTo 2 6).bits (BitVec.ofNat 72 (2 ^ 71)) = none ∧
      received (flitTo 0 6).bits 0 = some (flitTo 0 6).bits) ∧
    (running (flitState (flitTo 0 6) 0) = true ∧ (4 : RPort).toNat < 6 ∧
      flitAt (flitState (flitTo 0 6) 0) 0 4 (if true then (· == 0) else (· != 0)) = some (flitTo 0 6)) ∧
    flitAt (flitState (flitTo 2 6) 2) 0 4 (if false then (· == 0) else (· != 0)) = some (flitTo 2 6) ∧
    ((ingressState.net.held.find? fun h => h.port == 1 && decide (h.due / 2 ≤ gOf ingressState)) = some heldAt ∧
      gOf ingressState ≤ heldAt.due / 2 ∧
      (ingressState.net.held.any fun x => x.port != heldAt.port && x.due == heldAt.due &&
        flitFgate x.bits == flitFgate heldAt.bits) = false ∧
      (ingress ingressState (gatewayPav (flitFgate heldAt.bits)) (flitTag heldAt.bits)).getLsbD 31 = true) := by
  decide +kernel

/-- A packet of an opcode from the I/O die of this package to pavilion 0, with its route's next port. -/
def pkt (op vn : Nat) (addr cnt : Nat) (data : List (BitVec 64)) (next : BitVec 3) (held : Nat) : Packet :=
  { head := mkHead op 0 false 0 0 true 0 3 data.length addr cnt, data := data, vn := BitVec.ofNat 2 vn, legs := 0,
    endG := false, nextPort := next, bad := false, held := held, cls := false }
def bufAt (pk : Packet) : State := { run0 with net := { run0.net with bufs := [(bufKey 0 4 1, [pk])] } }
def reconfAt (p : Nat) (s : State) : State := { s with net := { s.net with ports := [(p, .reconf)] } }
def latchAt : State :=
  { run0 with net := { run0.net with latch := [(0, [pkt 3 1 0 0 [] 0 0, pkt 4 1 0 0 [0] 0 0])] } }

theorem wit_PacketsMove :
    (grantOf (bufAt (pkt 3 1 0 0 [] 2 0)) 0 2 = some (1, 4) ∧
      buf (bufAt (pkt 3 1 0 0 [] 2 0)) (bufKey 0 4 1) = [pkt 3 1 0 0 [] 2 0] ∧
      hopWait (bufAt (pkt 3 1 0 0 [] 2 0)) 0 2 (pkt 3 1 0 0 [] 2 0) = .go ∧ noneWait (bufAt (pkt 3 1 0 0 [] 2 0)) 0 2 = true ∧
      waiting (bufAt (pkt 3 1 0 0 [] 2 0)) (bufKey (neighbour 0 2) (farInput 2) 1) = []) ∧
    (grantOf (bufAt (pkt 3 1 0 0 [] 0 0)) 0 0 = some (1, 4) ∧
      hopWait (bufAt (pkt 3 1 0 0 [] 0 0)) 0 0 (pkt 3 1 0 0 [] 0 0) = .go ∧
      portState (bufAt (pkt 3 1 0 0 [] 0 0)) 0 = .live ∧ noneWait (bufAt (pkt 3 1 0 0 [] 0 0)) 0 0 = true ∧
      (pkt 3 1 0 0 [] 0 0).bad = false ∧ (pkt 3 1 0 0 [] 0 0).vn.toNat ≠ 3) ∧
    busyPacket (reconfAt 1 (bufAt (pkt 3 1 0 0 [] 2 4096))) 0 2 = some (1, 4, pkt 3 1 0 0 [] 2 4096) ∧
    (dieAwake latchAt 0 = true ∧ look [] latchAt.net.latch 0 = [pkt 3 1 0 0 [] 0 0, pkt 4 1 0 0 [0] 0 0]) := by decide

/-- The running part with a packet in the inbox of pavilion 0, bank 0 on. -/
def inboxAt (pk : Packet) : State := { bankOn with net := { bankOn.net with inbox := [(0, [pk])] } }

/-- Descriptor 0 writes on port 1, and the contributions made so far write codeword `a` of pavilion 0. -/
def writing (a : Nat) (s : State) : State :=
  let c (i : BitVec 8) (v : BitVec 2) : Contrib := { pav := 0, desc := 0, role := 0, idx := i, val := v, lat := 0 }
  { s with cfg := upd 0 s.cfg (cfgKey (frameKey 5 0 0 0 15) 0) (encode72 0xD000000000000000),
           ldr := { s.ldr with image := some { im0 with head := headWith [(0x1000, 8, 2 ^ 62 + 2048)] } },
           fab := { s.fab with contribs := [c 0 (BitVec.ofNat 2 (a % 2)), c 2 (BitVec.ofNat 2 (a / 4 % 2)), c 10 (BitVec.ofNat 2 (a / 1024))] } }

/-- The contributions made so far write deep codeword 0 of die 0. -/
def deepWriting : State :=
  { run0 with cfg := upd 0 run0.cfg (cfgKey (frameKey 5 0 0 0 15) 0) (encode72 0xE000000000000000),
              ldr := { run0.ldr with image := some { im0 with head := headWith [(0x1000, 8, 2 ^ 61 + 1)] } },
              fab := { run0.fab with contribs := [{ pav := 0, desc := 0, role := 0, idx := 0, val := 0, lat := 0 }] } }

/-- Every cycle of a pavilion's bank 1 is taken in this stroke. -/
def noCycles (s : State) : State := { s with fab := { s.fab with grants := [1, 1] } }

theorem wit_SchedWrites :
    schedWrites (writing 5 bankOn) 0 = [5] ∧
    (let s := writing 0 bankOn; s.scb.full = none ∧ nextBankItem s (bits (reg s 0x60108) 0 23) = some 0 ∧
      schedBank s 0 0 = true) ∧
    (let s := deepWriting; s.scb.full = none ∧ schedDeep s (bits (reg s 0x6010C) 0 31) = true) ∧
    (let s := writing 5 (inboxAt (pkt 2 1 5 0 [7] 0 0)); s.cox.st ≠ .easy ∧
      serves s 0 1 2 (pkt 2 1 5 0 [7] 0 0) = true ∧ (schedWrites s 0).contains (pkAddr (pkt 2 1 5 0 [7] 0 0).head) = true) := by
  decide

theorem wit_PacketMemoryServices :
    ((inboxAt (pkt 2 1 5 0 [7] 0 0)).cox.st ≠ .easy ∧
      serves (inboxAt (pkt 2 1 5 0 [7] 0 0)) 0 1 2 (pkt 2 1 5 0 [7] 0 0) = true ∧
      bankState (inboxAt (pkt 2 1 5 0 [7] 0 0)) 0 (pkAddr (pkt 2 1 5 0 [7] 0 0).head / 1024) = 0 ∧
      clashAt (inboxAt (pkt 2 1 5 0 [7] 0 0)) 0 1 (pkAddr (pkt 2 1 5 0 [7] 0 0).head) = none ∧
      bankBusy (inboxAt (pkt 2 1 5 0 [7] 0 0)) 0 = false ∧ bankBusy (noCycles (inboxAt (pkt 2 1 1029 0 [7] 0 0))) 0 = true) ∧
    (inSt .easy run0).cox.st = .easy ∧
    (serves (inboxAt (pkt 1 1 5 1 [] 0 0)) 0 1 1 (pkt 1 1 5 1 [] 0 0) = true ∧
      pkCount (pkt 1 1 5 1 [] 0 0).head = 1 ∧ bankBusy (inboxAt (pkt 1 1 5 1 [] 0 0)) 0 = false ∧
      bankState (inboxAt (pkt 1 1 5 1 [] 0 0)) 0 (pkAddr (pkt 1 1 5 1 [] 0 0).head / 1024) = 0 ∧
      (check72 (bankCw (inboxAt (pkt 1 1 5 1 [] 0 0)) (bankKey 0 5))).cls = .clean) := by decide

/-- A message of channel 0 for port 0 at a stage. -/
def msg0 (stage : BitVec 2) (ready : Bool) : Msg :=
  { chan := 0, tag := 9, port := 0, inst := 0, cls := 1, frags := 0, got := [(0, [1])], promise := none, claimed := ready,
    ready := ready, stage := stage, order := 1, irq := false, sqHead := 0, waitUs := 0, replay := none, late := 0 }
def sentAt (pk : Packet) : State :=
  { inboxAt pk with dsp := { run0.dsp with msgs := [msg0 2 true], engines := [(3, [1])] } }
/-- A credit notice of port 0 has come to the I/O die. -/
def notice0 : Packet :=
  { pkt 0xE 3 0 0 [0x2000] 0 0 with head := mkHead 0xE 0 true 0 0 false 0 0 1 0 0 }
def noticeAt : State := { run0 with net := { run0.net with ioIn := [notice0] } }

theorem wit_PacketOtherServices :
    serves (inboxAt (pkt 3 1 0 0 [] 0 0)) 0 1 3 (pkt 3 1 0 0 [] 0 0) = true ∧
    serves (inboxAt (pkt 4 1 0 0 [0] 0 0)) 0 1 4 (pkt 4 1 0 0 [0] 0 0) = true ∧
    (serves (inboxAt (pkt 0xC 3 0 0 [7] 0 0)) 0 3 0xC (pkt 0xC 3 0 0 [7] 0 0) = true ∧
      framePav 0x10000000 = 0 ∧ portState (inboxAt (pkt 0xC 3 0 0 [7] 0 0)) 0 ≠ .reconf) ∧
    serves (inboxAt (pkt 0xD 3 0 0 [] 0 0)) 0 3 0xD (pkt 0xD 3 0 0 [] 0 0) = true ∧
    (serves (sentAt (pkt 5 1 0 0 [] 0 0)) 0 1 5 (pkt 5 1 0 0 [] 0 0) = true ∧
      (pkSrcPos (pkt 5 1 0 0 [] 0 0).head == position run0 && pkSrcIo (pkt 5 1 0 0 [] 0 0).head) = true ∧
      sentBy (sentAt (pkt 5 1 0 0 [] 0 0)) (pkTag (pkt 5 1 0 0 [] 0 0).head) = some (msg0 2 true) ∧
      (msg0 2 true).port.toNat = pkAddr (pkt 5 1 0 0 [] 0 0).head) ∧
    (nextReply (inboxAt (pkt 8 2 0 0 [7] 0 0)) false 0 = some (pkt 8 2 0 0 [7] 0 0) ∧
      pkOpcode (pkt 8 2 0 0 [7] 0 0).head = 8 ∧ pkOpcode (pkt 9 2 0 0 [] 0 0).head = 9 ∧
      pkOpcode (pkt 0xA 2 0 0 [] 0 0).head = 0xA) ∧
    ((noticeAt.net.ioIn.find? fun pk => pk.vn == 3) = some notice0 ∧ noticeOf noticeAt (fun _ => true) notice0 = true ∧
      (notice0.data.headD 0).getLsbD 13 = true) := by decide

/-! The course controller. -/

/-- The loaded part, READY, with every release stage in effect. -/
def ready0 : State := inSt .ready run0
/-- The part waiting at a boundary with its start lead ended, and in an Easy of 32 strokes at stroke 3. -/
def wait0 : State := inSt .wait { run0 with cox := { run0.cox with stroke := 0 } }
def stopRec (n : Nat) : StopRec :=
  { p := n, cause := 4, tick := 0, len := 32, opn := false, figure := none, linkTick := 0, dmemTick := 0, linkLen := 0,
    thermLen := 32 }
def withStop (n : Nat) (s : State) : State := { s with cox := { s.cox with stops := [stopRec n] } }
def easy0 : State := inSt .easy (withStop 3 { run0 with cox := { run0.cox with easyK := 32 } })
/-- The last stroke of a course. -/
def last0 : State := { run0 with cox := { run0.cox with stroke := 15 } }
/-- On a formed board, where another position is the master, or this one is. -/
def onBoardOf (m : Nat) (s : State) : State := setFld fBoardMaster m { s with cox := { s.cox with board := .formed } }
def coxOf (org course stroke : Nat) : CoxMsg :=
  { origin := BitVec.ofNat 4 org, cause := 1, stroke := BitVec.ofNat 10 stroke, opn := false, len := 0,
    course := BitVec.ofNat 64 course, value := 0 }
def boardOf (b : BoardState) (s : State) : State := { s with cox := { s.cox with board := b } }

theorem wit_RunAndStep :
    startable ready0 = true ∧ fld (setFld fStepCount 0 ready0) fStepCount = 0 ∧ fld (setFld fStepCount 1 ready0) fStepCount ≠ 0 ∧
    startable (setFld fStepCount 1 ready0) = true ∧ startable run0 = false ∧ ready0.pwr.st = .p0 ∧
    startable { ready0 with pwr := { ready0.pwr with st := .p1 } } = true := by decide

theorem wit_Halts :
    (flag run0 fIsolated = false ∧ inCourse run0 = true) ∧
    (flag wait0 fIsolated = false ∧ wait0.cox.st = .wait ∧ wait0.cox.halts = []) ∧
    (flag ready0 fIsolated = false ∧ inCourse ready0 = false ∧ ready0.cox.st ≠ .wait) ∧
    ((coxOf 1 1 3).origin.toNat ≠ position (onBoardOf 0 run0) ∧ onBoard (onBoardOf 0 run0) = true ∧
      inCourse (onBoardOf 0 run0) = true ∧ isMaster (onBoardOf 0 run0) = true ∧ isMaster (onBoardOf 1 run0) = false) ∧
    ((coxOf 15 0 3).origin.toNat ≠ position (onBoardOf 1 wait0) ∧ onBoard (onBoardOf 1 wait0) = true ∧
      (onBoardOf 1 wait0).cox.st = .wait ∧ (coxOf 15 0 3).course.toNat ≤ course (onBoardOf 1 wait0)) ∧
    ((let s := onBoardOf 0 run0; missingPorts s = 0) ∧ ({ coxOf 1 1 3 with cause := 6 } : CoxMsg).cause.toNat = 6 ∧
      missingPorts (setReg 0xB008C 1 (onBoardOf 0 run0)) ≠ 0) := by decide

/-- Pavilion 0 alone is enabled, and each of its BPs has executed in this stroke. -/
def allDone (s : State) : State :=
  { s with fuses := { s.fuses with pavs := 1 }, fab := { s.fab with retired := List.range 1024 } }

/-- A boundary that a step ends, one that no halt meets, and one where SERVICE takes over. -/
def stepEnd : State := { last0 with cox := { last0.cox with stepping := some 1 } }
def serviceDue : State :=
  { last0 with cox := { last0.cox with
      pend := some { mode := .service, lockstep := false, fleetPins := false, course := 1 } } }

theorem wit_CourseBoundaryAdvances :
    (running (allDone last0) && strokeDone (allDone last0) && (allDone last0).cox.stroke + 1 == (allDone last0).cox.length) =
      true ∧
    ((passStroke (allDone last0)).cox.halts.any (fun h => decide (h.before ≤ course last0 + 1)) ||
      last0.cox.stepping.map (· - 1) == some 0 ||
      last0.cox.pend.any fun m => decide (m.course ≤ course last0 + 1) && m.mode == .service) = false ∧
    (stepEnd.cox.stepping.map (· - 1) == some 0) = true ∧
    (serviceDue.cox.pend.any fun m => decide (m.course ≤ course serviceDue + 1) && m.mode == .service) = true := by decide +kernel

theorem wit_EasyComesAndGoes :
    (let s := allDone (withStop 4 run0); running s = true ∧ strokeDone s = true ∧
      easyAt s (gOf s + 1) (wall s + 1) = true ∧ s.cox.stroke + 1 < s.cox.length) ∧
    (let s := allDone (withStop 16 last0); running s = true ∧ strokeDone s = true ∧
      easyAt s (gOf s + 1) (wall s + 1) = true ∧ s.cox.stroke + 1 = s.cox.length) ∧
    (easy0.cox.st = .easy ∧ easyLength easy0 = some 32 ∧ 32 ≤ easy0.cox.easyK ∧ easy0.cox.stroke ≠ 0 ∧
      easy0.hif.parked = []) ∧
    (let s : State := { easy0 with cox := { easy0.cox with easyK := 2 ^ 24 } };
      s.cox.st = .easy ∧ 2 ^ 24 ≤ s.cox.easyK ∧ s.cox.easyLong = false) ∧
    (let s : State := { easy0 with cox := { easy0.cox with easyLong := true } }; s.cox.st = .easy ∧ s.cox.easyLong = true) := by
  decide +kernel

def leadOver (s : State) : State := { s with cox := { s.cox with lead := some 0 } }
def lockOf (s : State) : State := { s with cox := { s.cox with mode := .comodel, lockstep := true } }
def tetherOver (s : State) : State := { s with cox := { s.cox with mode := .tethered, tether := some 0 } }

theorem wit_WaitsAtBoundaries :
    ((leadOver wait0).cox.st = .wait ∧ (leadOver wait0).cox.lead = some 0 ∧ clearToStart (leadOver wait0) = true ∧
      (paceMode (leadOver wait0)).mode ≠ .tethered ∧ (leadOver wait0).cox.tether = none) ∧
    (clearToStart (boardOf .forming (leadOver wait0)) = false ∧
      (paceMode (inMode .tethered (leadOver wait0))).mode = .tethered) ∧
    (lockStep wait0 = false ∧ lockStep (lockOf run0) = true ∧
      waitsHere (lockOf run0) = false ∧ waitsHere (lockOf wait0) = true ∧
      clearToStart (setFld fGrantBal (min 0xFFFFFFFF (fld (lockOf wait0) fGrantBal + 1)) (lockOf wait0)) = true ∧
      (paceMode (lockOf wait0)).mode ≠ .tethered) ∧
    (waitsHere { tetherOver wait0 with cox := { (tetherOver wait0).cox with tether := none } } = true ∧
      (paceMode (tetherOver wait0)).mode = .tethered ∧ clearToStart (tetherOver wait0) = true ∧
      ((tetherOver wait0).cox.tether == some 0 || !isMaster (tetherOver wait0)) = true) ∧
    ((boardOf .forming wait0).cox.st = .wait ∧ boardReady (boardOf .forming wait0) = false ∧
      bits (reg (boardOf .forming wait0) 0xB0088) 0 16 ≠ 0 ∧ (boardOf .forming wait0).cox.halts = []) := by decide

theorem wit_TclkEdges :
    true ≠ run0.cox.edge ∧ false = run0.cox.edge ∧ ((paceMode run0).mode == .tethered && isMaster run0) = false ∧
    (let s := inMode .tethered wait0; ((paceMode s).mode == .tethered && isMaster s) = true ∧ waitsHere s = true ∧
      clearToStart s = true ∧ fld s fThrLevel = 16) ∧
    (let s := inMode .tethered { run0 with cox := { run0.cox with lastEdge := some 0, ticks := 70000 } };
      ((paceMode s).mode == .tethered && isMaster s) = true ∧ inCourse s = true ∧ s.cox.lastEdge.isSome = true ∧
      min (s.cox.ticks - s.cox.lastEdge.getD 0) 0xFFFF = 0xFFFF ∧ flag (setFlag fOverrunHalt true s) fOverrunHalt = true) := by
  decide

/-- A request of another position's length message, and the state in which the master issues STOP for it. -/
def askReq (p : Nat) : EasyReq := { origin := 0, cause := 1, unit := 0, p := p, kind := .len 0 }
def stopTime : State :=
  { run0 with cox := { run0.cox with reqs := [{ origin := 0, cause := 4, unit := 0, p := 63, kind := .len 32 }] } }

theorem wit_CoxLineStops :
    (let s : State := { run0 with cox := { run0.cox with raised := [askReq 67] } };
      (coxOf 0 4 3).origin.toNat = position s ∧ s.cox.raised.find? (sameReq (reqOf s (coxOf 0 4 3))) = some (askReq 67)) ∧
    (let s := onBoardOf 0 run0;
      (coxOf 1 4 3).origin.toNat ≠ position s ∧ isMaster s = true ∧ s.cox.mode ≠ .tethered ∧
      gOf s < (reqOf s (coxOf 1 4 3)).p) ∧
    (let s := onBoardOf 1 run0; s.cox.mode ≠ .tethered ∧ stopAt s (stopPoint s (coxOf 1 4 3)) = none ∧
      gOf s < stopPoint s (coxOf 1 4 3) ∧ isMaster s = false) ∧
    (let s := stopTime; isMaster s = true ∧ stopAt s (stopPoint s (coxOf 0 3 15)) = none ∧
      gOf s + 64 = stopPoint s (coxOf 0 3 15) + fld s fReachUp + s.cox.lead.getD 0 ∧
      stopNeeded s (stopPoint s (coxOf 0 3 15)) = true) ∧
    (hostClearOk run0 (coxOf 0 4 3) = true ∧ isMaster run0 = true ∧ hostClearOk (onBoardOf 1 run0) (coxOf 0 4 3) = true ∧
      isMaster (onBoardOf 1 run0) = false) := by decide

/-- What the other packages of a board report: nothing, and that they are cool. -/
def calm : HeatIn := { ahead := 0, hot := false, draw := false, cool := true }
/-- A sensor stands at 100 °C or more; the package has been cool for long. -/
def hotAt (s : State) : State := { s with hlt := { s.hlt with tetherHot := true } }
def coolAt (s : State) : State :=
  setWide 0x70008 2000000 { s with hlt := { s.hlt with coolSince := some 0 } }

theorem wit_SizedRequests :
    (decide (throttleFloor run0 < fld run0 fThrLevel) = true ∧ isMaster run0 = true ∧ (hotAt run0).cox.throttle = none ∧
      throttleDue false calm (hotAt run0) = true ∧ inCourse (hotAt run0) = true ∧ (hotAt run0).cox.mode ≠ .tethered ∧
      throttleDue false calm run0 = false ∧ throttleDue true calm run0 = false) ∧
    (let s := coolAt (setFld fThrLevel 15 ready0);
      fld s fThrLevel < 16 ∧ throttleDue true calm s = true ∧ inCourse s = false ∧ s.cox.throttle = none) ∧
    (let s := onBoardOf 1 run0; isMaster s = false ∧ 8 < fld s fThrLevel ∧ inCourse s = true) ∧
    (let s := setFld fStretch 32 run0; let t : State := { s with cox := { s.cox with stroke := 0 } };
      isMaster t = true ∧ fld t fStretch ≠ 0 ∧ t.cox.mode ≠ .tethered ∧ running t = true ∧
      (gOf t + 64) % t.cox.length = 0 ∧ t.cox.lead = none ∧
      ((t.cox.reqs ++ t.cox.raised).any fun q => q.p == gOf t + 64 && q.cause == 2) = false) ∧
    (let x : LnkPort := { LnkPort.off with st := .active };
      let s := setReg (lnkA 7 + 0x80) 0x40000000 { run0 with lnk := [(7, x)] };
      inCourse s = true ∧ (lnkPort s 7).st = .active ∧ s.cox.mode ≠ .tethered ∧ (lnkPort s 7).drift = 0 ∧
      bits (reg s (lnkA 7 + 0x80)) 30 2 = 1 ∧ (inMode .tethered s).cox.mode = .tethered ∧
      (lnkPort { s with lnk := [(7, { x with drift := 32 })] } 7).drift ≠ 0) := by
  decide

/-- Mailbox arguments. -/
def mbx (a0 : Word) : MbxArgs := { irq := false, seq := 5, a0 := a0, a1 := 0, a2 := 0, a3 := 0 }

theorem wit_SetModeTakesEffect :
    mbxFree run0 = true ∧ modeArg 0x6 = none ∧ modeArg 0x10 = none ∧ modeArg 0x14 ≠ none ∧
    (modeArg 2).isSome = true ∧ run0.cox.pend = none ∧
    (modeArg 2).any (fun x => !modeSame x run0 && !modeRefused x run0) = true ∧ run0.ldr.stage ≠ 0 ∧
    inCourse run0 = true ∧ mbxFree ready0 = true ∧ ready0.cox.st = .ready ∧
    (modeArg 2).any (fun x => !modeSame x ready0 && !modeRefused x ready0) = true ∧
    (modeArg 5).any (fun x => !modeSame x (setFld fThrLevel 15 run0) && modeRefused x (setFld fThrLevel 15 run0)) = true := by
  decide

/-- A board of positions 0 and 1. -/
def im2 : Stream := { im0 with head := headWith [(0x14, 1, 2), (0x16, 2, 3)] }
/-- Measuring with that part in place, READY. -/
def measuring2 : State := boardOf .measuring { ready0 with ldr := { ready0.ldr with image := some im2 } }
/-- What the package at position 1 reports: a hop to the master, its worst Δ and a course length. -/
def farReport (hop worst l : Nat) : PkgReport :=
  { position := 1, imageId := 0x11, courseLength := BitVec.ofNat 16 l, modes := 0x3E, packageCount := 2, positions := 3,
    slow := false, course := 0, hop := BitVec.ofNat 8 hop, worstDelta := BitVec.ofNat 8 worst, worstPort := 0 }
def measOf (rs : List PkgReport) : BoardMeas :=
  { deltas := List.replicate 8 0, reports := rs, master := 0, wall := 100, droutes := [] }
/-- The three conditions under which the measurement forms a board: reach, slack, and agreement of the reports. -/
def forms (b : BoardMeas) (s : State) : Bool × Bool × Bool :=
  let m := masterOf s
  let rs := allReports b m s
  let ref := (rs.find? fun x => x.position.toNat == m).getD (ownReport b m s)
  (decide (2 * reachOf rs (shape s).1 (shape s).2 m ≤ 56), (worstOf rs).all (fun w => latencyClass w.worstDelta.toNat != 3),
    rs.all fun x => x.courseLength == ref.courseLength && (fieldDiffers ref x rs.length).isNone && x.course == ref.course)

/-- A formed board with port 0 expected and ACTIVE. -/
def board1 : State :=
  setReg 0xB008C 0x101 { onBoardOf 0 run0 with lnk := [(0, { LnkPort.off with st := .active })] }

theorem wit_BoardsForm :
    (measuring2.cox.board = .measuring ∧ measuring2.cox.st = .ready ∧ inCourse measuring2 = false) ∧
    (forms (measOf [farReport 24 0 16]) measuring2 = (true, true, true) ∧
      forms (measOf [farReport 25 0 16]) measuring2 = (false, true, true) ∧
      forms (measOf [farReport 24 255 16]) measuring2 = (true, false, true) ∧
      forms (measOf [farReport 24 0 32]) measuring2 = (true, true, false) ∧ forms (measOf []) measuring2 = (true, true, false)) ∧
    ((boardOf .forming ready0).cox.board == .forming) = true ∧ bits (reg (boardOf .forming ready0) 0xB0088) 0 16 ≠ 0 ∧
    (let s : State := { onBoardOf 0 ready0 with ldr := { ready0.ldr with image := some im2 } };
      mbxFree s = true ∧ s.pwr.boot = .up ∧ s.cox.board = .formed ∧ inCourse s = false ∧ s.cox.st ≠ .wait ∧
      (mbx 1).a0.toNat < 16 ∧ fld s fBoardMaster ≠ (mbx 1).a0.toNat ∧
      (header s).any (fun h => h.positions.getLsbD (mbx 1).a0.toNat) = true) ∧
    (board1.cox.board = .formed ∧ portExpected board1 0 = true ∧ portActive board1 0 = true ∧
      (lnkPort board1 0).st = .active ∧ (0 : BitVec 4).toNat = position board1 ∧ (15 : BitVec 4).toNat ≠ position board1) ∧
    (missingPorts board1 = 0 ∧
      missingPorts (setReg 0xB008C 1 board1) ≠ 0) ∧
    (let s := onBoardOf 0 ready0; s.cox.board = .formed ∧ inCourse s = false ∧ s.cox.st ≠ .wait ∧
      onShape s 0 = true ∧ onShape s 1 = false) := by
  decide +kernel

/-! The Daxair link. -/

/-- Port `n` in a state. -/
def portIn (n : Nat) (st : LnkState) (s : State) : State := { s with lnk := [(n, { LnkPort.off with st := st })] }
/-- A TRAIN block that names a lane. -/
def trainOf (lane : Nat) : BitVec 64 := BitVec.ofNat 64 (0xB1 * 2 ^ 56 + lane * 2 ^ 51 + 0x5A5A5A5A5)
/-- The sync headers of a frame: data or control. -/
def headers (k : BitVec 2) : List (BitVec 2) := [k, k, k, k, k, k, k, k, k, k, k, k, k, k, k, k]
/-- A frame whose lanes 0 to 13 are zero: lane 14, and the check symbols of lane 15 (worked by hand from R251). -/
def frameOf (k : BitVec 2) (l14 l15 : BitVec 64) : RxFrame :=
  { hdrs := headers k, lanes := [0, 0, 0, 0, 0, 0, 0, 0, 0, 0, 0, 0, 0, 0, l14, l15] }
def exchFrame : RxFrame := frameOf 2 0x0201000000000000 0x08040F0786C361E0F
def badFrame : RxFrame := frameOf 0 0 0

theorem wit_LinkBringUp :
    (lnkPort (portIn 7 .detect ready0) 7).st = .detect ∧
    ((BitVec.allOnes 17 == BitVec.allOnes 17 && (0 : BitVec 17) == 0 && !false) = true ∧
      2 ≤ popcount ((3 : BitVec 17) ||| 0) ∧ popcount ((0x10000 : BitVec 17) ||| 0) < 2) ∧
    ((lnkPort (portIn 0 .train run0) 0).st = .train ∧ isTrain 0 = false ∧ isTrain (~~~(0 : BitVec 64)) = false ∧
      isTrain (trainOf 16) = true ∧ bits (trainOf 16) 51 5 ≤ 16 ∧
      laneOrder [(3, 5)] 0 = none ∧ laneOrder [(0, 16)] 0 = some true ∧
      (let p := laneSwap (portIn 0 .train run0) 0 16
       (badLanes (portIn 0 .train run0) 0).getLsbD p = false ∧
        (look adaptNew (lnkPort (portIn 0 .train run0) 0).adapt p).phase ≠ 3)) ∧
    (lnkPort (portIn 0 .lock run0) 0).st = .lock ∧ (lnkPort (portIn 0 .exchange run0) 0).st = .exchange ∧
    (lnkPort (portIn 0 .fault run0) 0).st = .fault := by decide

/-- A frame as the ports of these states take it: no lane is spared in them. -/
def taken (f : RxFrame) : RxFrame := asFramed (portIn 0 .active ready0) 0 f

theorem wit_LinkFrames :
    (framed (portIn 0 .active ready0) 0 = true ∧ inCourse (portIn 0 .active ready0) = false ∧
      (decodeFrame (lnkPort (portIn 0 .active ready0) 0).scram (taken badFrame)).isNone = true) ∧
    ((lnkPort (portIn 0 .active ready0) 0).dropNext = false ∧ (lnkPort (portIn 0 .active ready0) 0).st = .active ∧
      (decodeFrame [] (taken (frameOf 1 0 0))).any (fun r => !r.ctl &&
        ((slotsOf r.body).filter fun y => slVn y != 0).all slGood) = true) ∧
    (let x : LnkPort := { LnkPort.off with st := .exchange, exchRx := 7,
                                           exchLast := (decodeFrame [] exchFrame).map (·.body) };
      framed { ready0 with lnk := [(0, x)] } 0 = true ∧
      (decodeFrame x.scram (asFramed { ready0 with lnk := [(0, x)] } 0 exchFrame)).any (fun r => r.ctl && ctlType r.body == 2 && bits r.body 944 8 == 1 &&
        x.exchLast == some r.body) = true ∧ 7 ≤ x.exchRx ∧
      (decodeFrame LnkPort.off.scram (taken exchFrame)).any (fun r => LnkPort.off.exchLast != some r.body) = true) ∧
    (decodeFrame [] (taken (frameOf 2 0x0202000000000000 0x08080F0F06C6C1E1E))).any (fun r => r.ctl && ctlType r.body == 2 &&
      bits r.body 944 8 != 1) = true ∧
    (decodeFrame [] (taken (frameOf 2 0x0300000000000000 0x0C00088005A001100))).any (fun r => r.ctl && ctlType r.body == 3) = true ∧
    ((decodeFrame [] (taken (frameOf 2 0x0400000000000000 0x0100BF00BD8003C00))).any (fun r => r.ctl && ctlType r.body == 4) = true ∧
      (lnkPort (portIn 0 .active ready0) 0).st = .active ∧ sleepAllowed (portIn 0 .active ready0) = true) ∧
    ((decodeFrame [] (taken (frameOf 2 0x0500000000000000 0x0500B880BEE003300))).any (fun r => r.ctl && ctlType r.body == 5) = true ∧
      (lnkPort { ready0 with lnk := [(0, { LnkPort.off with st := .active, sleeping := true })] } 0).sleeping = true) ∧
    (let s := setFld (fSpareFor 0) 3 (portIn 0 .active ready0);
      let f : RxFrame := { hdrs := headers 1 ++ [1], lanes := [0, 0, 0, 5, 0, 0, 0, 0, 0, 0, 0, 0, 0, 0, 0, 0, 0] };
      framed s 0 = true ∧ (decodeFrame (lnkPort s 0).scram (asFramed s 0 f)).any (fun r => !r.ctl && r.corr == 0) = true) := by
  decide +kernel

theorem wit_LinkControls :
    ((lnkPort (portIn 7 .active ready0) 7).st = .active ∧ sleepAllowed (portIn 7 .active ready0) = true ∧
      sleepAllowed (portIn 7 .active run0) = false) ∧
    (let s : State := { ready0 with lnk := [(7, { LnkPort.off with st := .active, sleeping := true })],
                                    pwr := { ready0.pwr with entering := true } };
      s.pwr.entering = true ∧ (lnkPort s 7).st = .active ∧ (lnkPort s 7).sleeping = true) ∧
    ((16 : BitVec 5).toNat < 17 ∧ (31 : BitVec 5) = 31) ∧ (lnkPort (portIn 0 .sleep run0) 0).st = .sleep ∧
    (lnkPort (portIn 0 .fault run0) 0).st = .fault ∧ (lnkPort (portIn 0 .test run0) 0).st = .test ∧
    (lnkWritable (portIn 7 .active ready0) 7 = true ∧ lnkWritable (portIn 0 .sleep run0) 0 = true ∧
      lnkWritable (portIn 0 .fault run0) 0 = true ∧ lnkWritable (portIn 0 .test run0) 0 = true) := by decide

/-! Channels. -/

/-- Channel `c` of function 0 in a service class, enabled, with rings of 16 and one entry to fetch. -/
def chanOn (c : Nat) (cls : Nat) (s : State) : State :=
  setReg (chnA c) 1 (setReg (chnA c + 0x20) 0x84040000 { s with hif := { s.hif with
    owner := [(c, BitVec.ofNat 32 (0x80000000 + cls * 2 ^ 24))], chans := [(c, { ChanSt.off with st := .active })] } })
/-- An entry with tag 9: opcode, unit, length and device address. -/
def entry (op unit len dev : Nat) : FetchIn :=
  { entry := BitVec.ofNat 512 (9 + op * 2 ^ 16 + unit * 2 ^ 32 + len * 2 ^ 48 + dev * 2 ^ 64), waitUs := 0, bus := 0, ready := true }

theorem wit_ChannelEntries :
    fetches (chanOn 8191 3 ready0) 8191 0 (entry 0 0 0 0) = true ∧
    (let s := chanOn 0 1 bankOn; fetchesMem s 0 2 (entry 2 0 8 5) = true ∧ portState s 0 ≠ .dead ∧ routeReconf s 0 = false ∧
      dieIsOn s (dieOf 0) = true ∧ bankRefuses s 0 5 = none ∧ (check72 (bankCw s (bankKey 0 5))).cls = .clean ∧
      entryBusy s 0 (entry 2 0 8 5) = false ∧ entryBusy (noCycles s) 0 (entry 2 0 8 1029) = true ∧
      fetchesMem s 0 3 (entry 3 0 8 5) = true ∧ s.cox.st ≠ .easy ∧ clashAt s 0 1 5 = none ∧
      entryBusy s 0 (entry 3 0 8 5) = false) ∧
    (let s := writing 5 (chanOn 0 1 bankOn); fetchesMem s 0 3 (entry 3 0 8 5) = true ∧ s.cox.st ≠ .easy ∧
      clashAt s 0 1 5 = some 0 ∧ bankRefuses s 0 5 = none ∧ entryBusy s 0 (entry 3 0 8 5) = false ∧ portState s 0 ≠ .dead ∧ routeReconf s 0 = false ∧
      dieIsOn s (dieOf 0) = true) ∧
    clashAt (setBank 0 1 0 (writing 1029 bankOn)) 0 1 1029 = some 0 ∧
    (let s := inSt .easy (chanOn 0 1 bankOn); fetchesMem s 0 3 (entry 3 0 9 5) = true ∧ s.cox.st = .easy) ∧
    (let s := chanOn 0 1 run0; fetchesMem s 0 4 (entry 4 3 32 (2 ^ 29 - 1)) = true ∧ dieIsOn s 3 = true ∧
      deepClass (checkDeep (deepCw s (deepKey 3 (2 ^ 29 - 1)))) = .clean ∧
      fetchesMem s 0 5 (entry 5 3 32 (2 ^ 29 - 1)) = true) ∧
    (let s := chanOn 0 1 run0;
      (canServe s 0 && (entry 2 128 8 0).bus == 0 && (classOf s 0 == 3 || !dataStopped s)) = true ∧
      entryFault s 0 (entry 2 128 8 0).entry = some 2 ∧ entryFault s 0 (entry 2 0 0 0).entry = some 4 ∧
      entryFault s 0 (entry 6 0 0 0).entry = some 1 ∧ furtherOf s 0 (entry 2 128 8 0).entry = none ∧
      entryIs 2 (entry 2 128 8 0).entry = true ∧ entryIs 0 (entry 6 0 0 0).entry = true) := by decide

/-- Port 0 belongs to channel 0. -/
def boundTo0 (s : State) : State :=
  { s with dsp := { s.dsp with bind := [(0, 0)], unclaimed := [(0, 8)] }, hif := { s.hif with budget := [(0, 1)] } }

theorem wit_SendMsgEnters :
    (let s := boundTo0 (chanOn 0 1 run0); let f := entry 1 0 1 0;
      fetches s 0 1 f = true ∧ restFound s 0 f.entry = none ∧ furtherOf s 0 f.entry = none ∧
      noRoom s 0 f.entry = false ∧ replaying s = false ∧ (find s.dsp.bind 0).map (·.toNat) = some 0 ∧
      s.dsp.deadPav.contains (pePav (portEntry s 0)) = false ∧ tooLong s (newMsg s 0 f) = false ∧ classOf s 0 ≠ 0) ∧
    (let s := boundTo0 (chanOn 0 0 { run0 with cox := { run0.cox with length := 192 } }); let f := entry 1 0 1 0;
      let m := { newMsg s 0 f with sqHead := headAfter s 0 };
      fetches s 0 1 f = true ∧ noRoom s 0 f.entry = false ∧ classOf s 0 = 0 ∧
      timedRefused s m (course s + timedLead s) = none ∧ storeUsed s < 16384 ∧
      restFound s 0 f.entry = none ∧ furtherOf s 0 f.entry = none ∧ slotsTaken s < 128) ∧
    (let s := boundTo0 (chanOn 0 1 run0);
      let t : State := { s with dsp := { s.dsp with msgs := List.replicate 64 { msg0 0 false with tag := 8 } } };
      fetches t 0 1 (entry 1 0 1 0) = true ∧ restFound t 0 (entry 1 0 1 0).entry = none ∧ noRoom t 0 (entry 1 0 1 0).entry = true) ∧
    (let s := chanOn 0 1 run0; let r : Rest := { port := 0, inst := 0, frags := 1, seen := [0] };
      let t : State := { s with dsp := { s.dsp with dropped := [(tagKey 0 9, r)] } };
      let f : FetchIn := { entry 1 0 1 0 with entry := (entry 1 0 1 0).entry ||| BitVec.ofNat 512 (2 ^ 26 + 2 ^ 28) };
      fetches t 0 1 f = true ∧ restFound t 0 f.entry = some r) ∧
    (let s := chanOn 0 1 run0; let f := entry 1 4095 32 0;
      fetches s 0 1 f = true ∧ restFound s 0 f.entry = none ∧ furtherOf s 0 f.entry = none ∧ replaying s = false ∧
      noRoom s 0 f.entry = false ∧ (find s.dsp.bind 4095).map (·.toNat) ≠ some 0) := by decide

theorem wit_ChannelRegisters :
    (hostUp run0 && ownsPage run0 0 0) = false ∧ (hostUp (chanOn 0 1 run0) && ownsPage (chanOn 0 1 run0) 0 0) = true ∧
    (let s : State := { chanOn 0 1 run0 with hif := { (chanOn 0 1 run0).hif with chans := [] } };
      (chan s 0).st = .disabled ∧ cfgOk s 0 0x8410041F = true ∧ cfgOk s 0 0x84100420 = false ∧ cfgOk s 0 0x83100000 = false) ∧
    (chan (chanOn 0 1 run0) 0).st = .active ∧
    (let st := fun (x : ChState) => ({ chanOn 0 1 run0 with hif := { (chanOn 0 1 run0).hif with
        chans := [(0, { ChanSt.off with st := x })] } } : State);
      (chan (st .draining) 0).st = .draining ∧ (chan (st .error) 0).st = .error ∧
      (hostUp (st .draining) && ownsPage (st .draining) 0 0) = true ∧
      (hostUp (st .error) && ownsPage (st .error) 0 0) = true) ∧
    (let s : State := { chanOn 0 1 run0 with dsp := { run0.dsp with msgs := [msg0 0 false] } };
      (msg0 0 false).stage = 0 ∧
      (s.dsp.msgs.find? fun m => m.chan.toNat == 0 && m.replay.isNone && m.tag == 9) = some (msg0 0 false) ∧
      (s.dsp.msgs.find? fun m => m.chan.toNat == 0 && m.replay.isNone && m.tag == 8) = none) ∧
    (hostUp run0 = true ∧ ownRefused run0 (chSel run0) 0x84000000 = false ∧ ownRefused run0 (chSel run0) 0x87000000 = true ∧
      inCourse run0 = true ∧ inCourse ready0 = false ∧ hostUp ready0 = true) := by decide

def done0 (irq : Bool) : Completion := { entryOf 9 0 0 0 0 irq with hostBytes := 8 }
def heldOn (cq : Nat) (s : State) : State :=
  { s with hif := { s.hif with chans := [(0, { ChanSt.off with st := .active, held := [done0 true], cqTail := BitVec.ofNat 16 cq })] } }

theorem wit_CompletionsAndFunctions :
    (let s := heldOn 15 (setReg (chnA 0 + 4) 4 (chanOn 0 1 run0));
      (chan s 0).held = done0 true :: [] ∧ (hostUp s && ((chan s 0).st == .active || (chan s 0).st == .draining)) = true ∧
      s.hif.d3.getLsbD (fnOf s 0) = false ∧ ringRoom s 0 = true ∧ ((chan s 0).cqTail.toNat + 1) % cqSize s 0 = 0 ∧
      (let t : State := { s with hif := { s.hif with chans := [(0, { chan s 0 with st := .draining })] } };
        (chan t 0).held = done0 true :: [] ∧ (chan t 0).st = .draining ∧ ringRoom t 0 = true)) ∧
    (let s := heldOn 15 (chanOn 0 1 run0); ringRoom s 0 = false ∧ s.hif.d3.getLsbD (fnOf s 0) = false) ∧
    hostUp run0 = true := by decide

theorem wit_MailboxProtocol :
    (mbxOpen { run0 with hif := { run0.hif with busy := true } } = true) ∧
    (mbxFree run0 = true ∧ mbxCodes.contains (0 : BitVec 8).toNat = false ∧ mbxCodes.contains (0xFF : BitVec 8).toNat = false) ∧
    (let s : State := { run0 with hif := { run0.hif with busy := true, irq := true, due := some (mbxRes ccDone 0) } };
      s.hif.busy = true ∧ s.hif.due = some (mbxRes ccDone 0)) := by decide

/-! The mailbox, the identity responder, dispatch and loads. -/

def partialOf (s : State) : State :=
  { s with ldr := { s.ldr with regions := [(63, { stage := 3, target := 3, partial_ := true, dead := false, version := 1,
                                                  fromHost := false, since := some 0 })] } }
def tok0 : TokenIn :=
  { magic := 0x4E4B5456, format := 1, keySlot := 6, ecdsaKey := BitVec.ofNat 776 (4 * 2 ^ 768),
    lmsKey := BitVec.ofNat 448 (7 * 2 ^ 416 + 3 * 2 ^ 384), zero := true, ecdsaOk := true, lmsOk := true, keySha := 0,
    deviceId := 0, nonce := 0, rights := 3 }

theorem wit_ReleaseAndTokens :
    (mbxFree run0 = true ∧ releaseArgOk (mbx 0x70002).a0 = true ∧ (mbx 0x70002).a0.getLsbD 8 = false ∧
      (image run0).isSome = true ∧ (mbx 0x70002).a0.getLsbD 16 = true) ∧
    (mbxFree up0 = true ∧ releaseArgOk (mbx 1).a0 = true ∧ bits (mbx 1).a0 0 3 ≠ 0 ∧ image up0 = none) ∧
    (releaseArgOk (mbx 0x7F02).a0 = true ∧ (mbx 0x7F02).a0.getLsbD 8 = true ∧ bits (mbx 0x7F02).a0 9 6 = 63 ∧
      ((image (partialOf run0)).isSome && (regionRec (partialOf run0) 63).partial_ &&
        !(regionRec (partialOf run0) 63).dead) = true) ∧
    (tokenDetail up0 tok0 = 0 ∧ tokenDetail up0 { tok0 with nonce := 1 } = 8 ∧
      tokenDetail up0 { tok0 with keySlot := 5 } = 1) := by decide

theorem wit_PowerDomains :
    (mbxFree ready0 = true ∧ powerArgOk (mbx 0x10).a0 = true ∧ bits (mbx 0x10).a0 0 3 = 0 ∧
      (mbx 0x10).a0.getLsbD 17 = false ∧ argState (mbx 0x10).a0 ≠ ready0.pwr.st ∧ argState (mbx 0x10).a0 ≠ .p0 ∧
      ready0.pwr.entry = none ∧ ready0.pwr.entering = false ∧ ready0.cox.board = .none ∧ ready0.cox.st ≠ .wait ∧
      inCourse ready0 = false ∧ inCourse run0 = true ∧ powerArgOk (mbx 0x20020).a0 = true ∧
      argState (mbx 0x20020).a0 = .p2) ∧
    (powerArgOk (mbx 0x1).a0 = true ∧ ((pavsOfDie 0).any fun p => usedPav ready0 p || portState ready0 p == .reconf) = true ∧
      powerArgOk (mbx 0x301).a0 = true ∧
      ((pavsOfDie 3).any fun p => usedPav ready0 p || portState ready0 p == .reconf) = false) ∧
    (powerArgOk (mbx 0x302).a0 = true ∧ ready0.hlt.clocksBad = false ∧ dieIsOn (setFld (fDomDie 3) 3 ready0) 3 = false) ∧
    (powerArgOk (mbx 0x7003).a0 = true ∧ (portExpected ready0 7 && ready0.cox.board != .none) = false) ∧
    (powerArgOk (mbx 0x7004).a0 = true ∧ fld (setFld (fDomLnk 7) 3 ready0) (fDomLnk 7) = 3) := by decide

/-- Host arguments: a source of one page. -/
def mbxH (a0 : Word) : MbxArgs := { mbx a0 with a3 := 1 }
/-- A directory with the entries of both designs. -/
def entryAt (role : Nat) : DirEntry :=
  { role := BitVec.ofNat 8 role, region := 0, device := 0, version := 2, length := 0x6000, offset := BitVec.ofNat 32 (role * 0x10000),
    digest := 0x5D, imageId := 0x11 }
def dirOf (roles : List Nat) : DirCopy :=
  sealDir { noDir with sequence := 1, autoRelease := true, entries := (1 :: roles).map entryAt }
def withDir (roles : List Nat) (s : State) : State := { s with ldr := { s.ldr with dir0 := dirOf roles, dir1 := dirOf roles } }

theorem dir3_valid : dirValid (dirOf [3]) = true := by
  unfold dirOf; rw [dirValid_of_crc (sealDir_crcOk _ (by decide))]; decide
theorem dir4_valid : dirValid (dirOf [4]) = true := by
  unfold dirOf; rw [dirValid_of_crc (sealDir_crcOk _ (by decide))]; decide
theorem dir34_valid : dirValid (dirOf [3, 4]) = true := by
  unfold dirOf; rw [dirValid_of_crc (sealDir_crcOk _ (by decide))]; decide

/-- The copy in use of a part that holds the same valid copy twice, and the entries that are found in it. -/
theorem dirInUse_withDir {rs : List Nat} {s : State} (hv : dirValid (dirOf rs) = true) (hc : flag s fDirConflict = false) :
    dirInUse (withDir rs s) = some (dirOf rs) := by
  have h1 : flag (withDir rs s) fDirConflict = false := hc
  have h2 : (withDir rs s).ldr.dir0 = dirOf rs := rfl
  have h3 : (withDir rs s).ldr.dir1 = dirOf rs := rfl
  simp [dirInUse, h1, h2, h3, hv]
theorem dirEntry_withDir {rs : List Nat} {s : State} (r g : Nat) (hv : dirValid (dirOf rs) = true)
    (hc : flag s fDirConflict = false) :
    dirEntry (withDir rs s) r g =
      ((1 :: rs).map entryAt).find? fun e => e.role.toNat == r && (r != rolePartial || e.region.toNat == g) := by
  unfold dirEntry
  rw [dirInUse_withDir hv hc]
  rfl
theorem dir4_previous : dirEntry (withDir [4] ready0) rolePrevious 0 = some (entryAt 4) := by
  rw [dirEntry_withDir _ _ dir4_valid (by decide)]; decide
theorem dir3_current : dirEntry (withDir [3] ready0) roleCurrent 0 = some (entryAt 3) := by
  rw [dirEntry_withDir _ _ dir3_valid (by decide)]; decide
theorem dir3_partial : dirEntry (withDir [3] ready0) rolePartial 0 = none := by
  rw [dirEntry_withDir _ _ dir3_valid (by decide)]; decide

theorem rollbackEntry_current {s : State} {r : Nat} {e : DirEntry} (hp : dirEntry s rolePartial r = none)
    (hc : dirEntry s roleCurrent 0 = some e) (hh : (header s).map (·.imageId) = some e.imageId) :
    rollbackEntry s r = some e := by
  cases h : header s with
  | none => rw [h] at hh; cases hh
  | some x =>
    rw [h] at hh
    have hi : x.imageId = e.imageId := Option.some.inj hh
    simp [rollbackEntry, hp, hc, h, hi]
theorem loadBars_found {s : State} {e : DirEntry} (hk : s.hlt.clocksBad = false) (hc : flag s fDirConflict = false) :
    loadBars false (some e) s = none := by simp [loadBars, hk, hc]
theorem wit_LoadCommands :
    (mbxFree ready0 = true ∧ loadArgsOk false (mbxH 1) = true ∧ bits (mbxH 1).a0 8 2 = 0 ∧
      loadBars true (dirEntry ready0 (objectRole 0) 0) ready0 = none) ∧
    (loadArgsOk false (mbxH 0x601) = true ∧ bits (mbxH 0x601).a0 8 2 = 2 ∧ (mbxH 0x601).a0.getLsbD 10 = true ∧
      (inMode .service ready0).cox.mode = .service) ∧
    (loadArgsOk false (mbx 0) = true ∧ loadBars false (dirEntry ready0 (objectRole 0) 0) ready0 = some (ccRollbackDenied, 2)) ∧
    loadArgsOk false (mbx 2) = false ∧ loadArgsOk false { mbxH 1 with a3 := 4097 } = false ∧
    (loadArgsOk true (mbxH 1) = true ∧ ready0.ldr.stage ≠ 0 ∧ declared ready0 0 = true ∧
      loadBars true (dirEntry ready0 rolePartial 0) ready0 = none) ∧
    (loadArgsOk true (mbxH 0x3F001) = true ∧ declared ready0 63 = false) ∧
    ((mbx 0).a0 &&& 0xFFFFFE40 = 0 ∧ (mbx 0x80).a0 &&& 0xFFFFFE40 = 0) := by decide
theorem wit_LoadCommands_rollback :
    loadBars false (dirEntry (withDir [4] ready0) rolePrevious 0) (withDir [4] ready0) = none ∧
    loadBars false (rollbackEntry (withDir [3] ready0) 0) (withDir [3] ready0) = none := by
  rw [dir4_previous, rollbackEntry_current dir3_partial dir3_current (by decide +kernel)]
  exact ⟨loadBars_found (by decide) (by decide), loadBars_found (by decide) (by decide)⟩

theorem wit_TestAndRepairCommands :
    (mbxFree ready0 = true ∧ marchArgsOk (mbx 0x800700) = true ∧ controllerBusy ready0 = false ∧
      marchArgsOk (mbx 0x800710) = true) ∧
    ((mbx 0).a0 &&& 0xFFFFFFFE = 0 ∧ (inMode .service ready0).cox.mode = .service ∧ railBad ready0 = false ∧
      ready0.fuses.repairs.length + ready0.hlt.soft.length ≤ 2048) ∧
    controllerBusy run0 = true ∧ fullArgsOk (mbx 2) = true ∧ fullArgsOk (mbxH 1) = true := by decide

/-- An SPDM connection that has come so far. -/
def spdmAt (k : BitVec 2) : State := { run0 with hif := { run0.hif with spdm := k } }

theorem wit_IdentityResponder :
    doeUp State.reset = false ∧ doeUp run0 = true ∧ (spdmAt 1).hif.spdm = 1 ∧ (spdmAt 2).hif.spdm = 2 ∧
    (spdmAt 3).hif.spdm = 3 ∧ doeUp (spdmAt 3) = true ∧ fld (spdmAt 3) fExhausted = 0 ∧
    (let s := setReg 0x40054 0x80008000 (spdmAt 3); doeUp s = true ∧ s.hif.spdm = 3 ∧ fld s fExhausted = 1) ∧
    run0.hif.spdm ≠ 3 := by decide

/-- A port of BP 0.0.0 that lands and takes in stroke 3, paced. -/
def portWord : BitVec 64 := BitVec.ofNat 64 (2 ^ 63 + 3 * 2 ^ 29 + 3 * 2 ^ 19 + 2 ^ 8)
/-- The running part with that entry for port `n`. -/
def withPort (n : Nat) (s : State) : State := { s with ldr := { s.ldr with image := some { im0 with ports := [(n, portWord)] } } }
def port0 : State := withPort 0 run0
/-- A message for port 0 stands in the store, in an engine, or staged. -/
def storeAt : State := { port0 with dsp := { port0.dsp with msgs := [msg0 0 false], unclaimed := [(0, 1)] } }
def engineAt : State :=
  setDroutes [(gateFor 0 * 256, 0x80000000)]
    { port0 with dsp := { port0.dsp with msgs := [msg0 1 true], engines := [(63, [1])] } }
def stagedAt (land : Bool) : State :=
  { chanOn 0 1 port0 with
    dsp := { port0.dsp with msgs := [msg0 3 true], staged := [(0, [1])],
                            decided := [{ port := 0, inst := 0, due := 3, land := land, wait := false, free := true }] } }

/-- The take signal of port 0 is 1, and pavilion 0 has a route to the I/O die. -/
def takeAt : State :=
  setDroutes [(drouteIndex port0 (mkHead 0xE 0 true 0 0 false 0 0 1 0 0), 0x80001000)] (setSlot 0 0 0 3 1 port0)
/-- The packet of its credit. -/
def noticeNow (s : State) : Option Packet := routed s 0 (mkHead 0xE 0 true 0 0 false 0 0 1 0 0) [0x2000]

/-- A record ring of 1,024 entries whose head stands one place beyond its tail. -/
def recAt (v : Word) (s : State) : State := setReg 0x9003C 1 (setReg 0x90038 v s)

theorem wit_DispatchDelivers :
    (hostUp port0 = true ∧ bindRefused port0 (portSel port0) 0x80000000 = none ∧
      bindRefused run0 (portSel run0) 0x80000000 = some 3 ∧ bindRefused storeAt 0 0x80000000 = some 1 ∧
      bindRefused (chanOn 0 3 port0) 0 0 = some 2) ∧
    (let s : State := { port0 with fab := { port0.fab with retired := [0] } }; let e := portEntry s 0;
      (portActs s 0 (peTake e) 52 && s.fab.retired.contains (bpIndex (pePav e) (peCrew e) (peBp e))) = true ∧
      instances s = 1 ∧ takes takeAt (portEntry takeAt 0) 0 = true ∧ niCredits takeAt (piKey 0 0) < 15 ∧
      (noticeNow takeAt).isSome = true ∧ waiting takeAt (bufKey 0 0 3) = [] ∧
      (noticeNow takeAt).all (inputTakes takeAt 0 0) = true) ∧
    ((storeAt.dsp.msgs.find? fun m => m.chan == 0 && m.tag == 9 && m.replay.isNone) = some (msg0 0 false) ∧
      becomesReady storeAt (msg0 0 false) = true) ∧
    (let s : State := { run0 with dsp := { run0.dsp with readyT := [1, 2, 3] } };
      engine s 63 = [] ∧ s.dsp.readyT = 1 :: 2 :: [3]) ∧
    nextSend run0 0 = none ∧
    (nextSend engineAt 63 = some (msg0 1 true) ∧
      (routed (filled engineAt 63) (gateFor (pePav (portEntry engineAt 0))) (deliverHead engineAt 63 (msg0 1 true))
        (byteWords (((payload (msg0 1 true)).length + 7) / 8) (payload (msg0 1 true)))).any (inputTakes engineAt (gateFor 0) 5) =
        true ∧ waiting engineAt (bufKey (gateFor 0) 5 1) = []) ∧
    (portDecides port0 0 = true ∧ replaying port0 = false ∧ portDecides (withPort 4095 run0) 4095 = true) ∧
    (portActs (stagedAt false) 0 (peStroke (portEntry (stagedAt false) 0)) 53 = true ∧ landsNow (stagedAt false) 0 0 = false) ∧
    (portActs (stagedAt true) 0 (peStroke (portEntry (stagedAt true) 0)) 53 = true ∧ landsNow (stagedAt true) 0 0 = true ∧
      instances (stagedAt true) = 1 ∧ landingMsg (stagedAt true) (piKey 0 0) = some (msg0 3 true) ∧
      (chan (stagedAt true) 0).st = .active ∧ landsNothing (stagedAt true) = false ∧ recOn (stagedAt true) = false) ∧
    (recOn (recAt 0x8000000A (stagedAt true)) = true ∧ landsNothing (recAt 0x8000000A (stagedAt true)) = false) ∧
    landsNothing (recAt 0xC000000A (inMode .tethered (stagedAt true))) = true := by decide +kernel

/-- A replay copy for port 0 in course 4, staged. -/
def copy0 : Msg := { msg0 3 true with replay := some 4 }
def replayAt (cr : Nat) (ms : List Msg) : State :=
  inMode .comodel (setReg 0x90000 1
    { port0 with dsp := { port0.dsp with msgs := ms, staged := ms.map fun m => (0, [m.order]), credits := [(0, cr)] } })
def rplAt : State := setReg 0x90058 0x8000000A (setReg 0x90000 1 (setReg 0x90060 1023 (setReg 0x9005C 0 run0)))

theorem wit_ReplayDelivers :
    (hostUp up0 = true ∧ up0.ldr.stage = 0 ∧ hostUp run0 = true ∧ run0.ldr.stage ≠ 0) ∧
    (replayReads rplAt = true ∧ bits (BitVec.ofNat 512 (0xFFFF * 2 ^ 64)) 64 16 = 0xFFFF ∧
      bits (BitVec.ofNat 512 (4095 * 2 ^ 64)) 64 16 < 4096 ∧ rplAt.dsp.msgs = [] ∧ rplAt.dsp.decided = [] ∧
      (let s : State := { rplAt with dsp := { rplAt.dsp with
          decided := [{ port := 1, inst := 0, due := 67, land := false, wait := true, free := true }] } };
        replayReads s = true ∧ replayCopy s (piKey 1 0) (67 / s.cox.length) = none)) ∧
    (let s := replayAt 1 [copy0]; fleet s = false ∧ portDecides s 0 = true ∧ replaying s = true ∧
      replayCopy s (piKey 0 0) ((gOf s + 64) / s.cox.length) = some copy0 ∧
      creditsNow s (portEntry s 0) (piKey 0 0) ≠ 0) ∧
    (let s := replayAt 0 [copy0]; portDecides s 0 = true ∧
      replayCopy s (piKey 0 0) ((gOf s + 64) / s.cox.length) = some copy0 ∧
      creditsNow s (portEntry s 0) (piKey 0 0) = 0) ∧
    (let s := replayAt 0 []; replayCopy s (piKey 0 0) ((gOf s + 64) / s.cox.length) = none ∧
      replayBehind s ((gOf s + 64) / s.cox.length) = true ∧ s.cox.mode = .comodel) ∧
    (let held := fun (v : Word) => ({ recAt v run0 with dsp := { run0.dsp with recHeld := [(0, [1])] } } : State);
      hostUp (held 0xC000000A) = true ∧ recOn (held 0xC000000A) = true ∧ 0 / 8192 ≠ gOf (held 0xC000000A) ∧
      recFull (writePlain 0x9003C 1 (held 0xC000000A)) = true ∧ (reg (held 0xC000000A) 0x90038).getLsbD 30 = true ∧
      recFull (writePlain 0x9003C 2 (held 0x8000000A)) = false) := by decide

/-! Passes A and B, power, start-up, the pins, and the health monitors. -/

/-- A part that pass A finds sound: L = 16, the two-state family, no frame listed. -/
def fieldsOk : List (Nat × Nat × Nat) :=
  [(0x00, 4, 0x48525856), (0x06, 2, 8), (0x12, 1, 0x32), (0x20, 16, 0), (0x100, 16, 0), (0x32, 2, 0), (0x34, 2, 0),
   (0x36, 2, 0)]
def imOk : Stream := { im0 with head := headWith fieldsOk }
def jobBase : Job := recoveryJob 0 false
/-- A load of a base part from NVM; of a partial of region 0; and of a shell. -/
def jobNew (auto store : Bool) : Job := { jobBase with recovery := false, auto := auto, store := store }
/-- The same load from a host source. -/
def jobHost : Job := { jobNew false false with host := true }
def jobPart : Job := { jobNew false false with op := 2, regional := true, region := 0, role := 5 }
def jobShell : Job := { jobNew false true with object := 1 }
def loading (j : Job) (x : Option Stream) (st : LdState) (s : State) : State :=
  { s with ldr := { s.ldr with job := some j, stream := x, st := st } }
def inPassB (s : State) : State := { s with ldr := { s.ldr with passB := true } }
/-- The pavilions of die 0 are asleep. -/
def downAt : State := { ready0 with net := { ready0.net with ports := [(0, .down)] } }

theorem wit_PassA :
    ((loading (jobNew false false) none .manifest run0).ldr.job = some (jobNew false false) ∧
      (jobNew false false).recovery = false) ∧
    ((passA ready0 jobHost { imOk with head := headWith (fieldsOk ++ [(0x10, 2, 24)]) }).fails).isSome = true ∧
    manifestDetail ready0 3 { man0 with ecdsaOk := false } = 4 ∧ manifestDetail ready0 3 { man0 with keySlot := 6 } = 2 ∧
    (let s : State := { ready0 with fuses := { ready0.fuses with dsFloor := 3 } };
      manifestDetail s (wantedKind (jobNew false false)) man0 = 0 ∧ man0.version.toNat < floorOf s 3) ∧
    (passesA run0 jobHost imOk = true ∧ baseJob jobHost = true ∧ inCourse run0 = true ∧
      passesA wait0 jobHost imOk = true ∧ passesA ready0 jobHost imOk = true) ∧
    (baseJob jobShell = false ∧ jobShell.regional = false ∧
      passesA ready0 { jobShell with host := true } { im0 with man := { man0 with kind := 2 } } = true) ∧
    (baseJob jobPart = false ∧ jobPart.regional = true ∧ (downDies ready0 0).isEmpty = true ∧
      downDies downAt 0 = [0]) := by decide +kernel
theorem wit_PassA_nvm :
    ((dirEntry (withDir [3] ready0) roleCurrent 0).any fun e => e.digest == man0.digest) = true := by
  rw [dirEntry_withDir _ _ dir3_valid (by decide)]; decide

/-- A part that lists one schedule word and allocates a deep-memory chunk. -/
def imFull : Stream :=
  { imOk with man := { man0 with bodyLen := 0xC000 }, payloads := 1,
              frames := [{ addr := BitVec.ofNat 32 (frameKey 1 0 0 0 0 * 128), index := 0, words := [(0, 7)] }],
              head := headWith (fieldsOk ++ [(0x30, 2, 1), (0x1000, 8, 2 * 2 ^ 60)]) }

theorem wit_PassB :
    (let s := loading (jobNew false false) (some imFull) .write ready0;
      s.ldr.job = some (jobNew false false) ∧ s.ldr.stream = some imFull ∧ s.ldr.st = .write ∧ s.ldr.passB = false ∧
      baseJob (jobNew false false) = true ∧
      (imFull.frames.all fun f => enabled s (frPav f) && !bankFrame f &&
        f.words.all fun e => keyType (cfgKey (f.addr.toNat / 128) e.1) != 0) = true) ∧
    (let s := loading jobPart (some imFull) .write run0;
      s.ldr.job = some jobPart ∧ s.ldr.stream = some imFull ∧ jobPart.regional = true ∧ s.ldr.passB = false ∧
      streamOk imFull = true ∧ regionPavs s 0 = [0]) := by decide +kernel

theorem wit_LoadsEnd :
    (let s := inPassB (loading (jobNew false true) (some imOk) .write ready0);
      s.ldr.job = some (jobNew false true) ∧ s.ldr.stream = some imOk ∧ s.ldr.st = .write ∧ s.ldr.passB = true ∧
      (jobNew false true).store = true ∧ baseJob (jobNew false true) = true ∧
      waitsForRelease (jobNew false true) imOk = true) ∧
    (jobPart.store = false ∧ jobPart.object = 0 ∧ jobPart.regional = true ∧ baseJob jobPart = false) ∧
    (({ jobShell with store := false } : Job).object ≠ 0) ∧
    ((jobNew false true).op ≠ 3 ∧ imOk.hdr.packageCount.toNat ≤ 1) ∧
    (dirEntry ready0 3 0).isNone = true := by decide +kernel
theorem wit_LoadsEnd_store :
    (dirInUse (withDir [3, 4] ready0)).isSome = true ∧ (dirEntry (withDir [3, 4] ready0) 3 0).isSome = true ∧
    (dirEntry (withDir [3, 4] ready0) 4 0).isSome = true := by
  rw [dirInUse_withDir dir34_valid (by decide), dirEntry_withDir _ _ dir34_valid (by decide),
    dirEntry_withDir _ _ dir34_valid (by decide)]
  decide

theorem wit_SuppliesRiseAndFall :
    State.reset.pwr.boot = .off ∧ run0.pwr.boot ≠ .off ∧
    (let s : State := { State.reset with pwr := { State.reset.pwr with boot := .supply } };
      (5 : BitVec 3).toNat < 6 ∧ (5 : BitVec 3) ≠ 4 ∧ s.pwr.boot = .supply ∧ s.pwr.st = .p0) ∧
    ({ ready0 with pwr := { ready0.pwr with st := .p2 } } : State).pwr.st = .p2 ∧ 6 ≤ (7 : BitVec 3).toNat := by decide

/-- Self-test is at slice `k`. -/
def sliceAt (k : Nat) : State :=
  { State.reset with regs := (List.range k).map fun i => (0x30000 + 4 * i, 0x10000000),
                     pwr := { State.reset.pwr with boot := .selfTest } }
def bootAt (b : BootStep) (s : State) : State := { s with pwr := { s.pwr with boot := b } }

theorem wit_StartsUp :
    (sliceRuns (sliceAt 0) 0 = true ∧ sliceRuns (sliceAt 4) 4 = true ∧ sliceRuns (sliceAt 0x20) 0x20 = true ∧
      sliceRuns (sliceAt 0x22) 0x22 = true ∧ sliceFault 4 { kind := 0, pav := 0, crew := 0, bp := 0 } = true) ∧
    (0x23 ≤ (0x3F : BitVec 6).toNat ∧ ({ ready0 with hlt := { ready0.hlt with dwell := true } } : State).hlt.dwell = true) ∧
    (let s := setReg 0xC0004 0 up0;
      (flag s fPostDone && s.ldr.stage == 0 && !flag s fDmemInit && fld s fDomDmem == 0) = true ∧ s.cox.st ≠ .wait) ∧
    (let s := bootAt .rom up0; s.pwr.boot = .rom ∧ dirValid noDir = false) ∧
    (let s := bootAt .keeper (withDir [3] up0); s.pwr.boot = .keeper ∧ s.hlt.clocksBad = false) := by decide +kernel

/-- Boot firmware of version 2, whose manifest digest is the entry's, unchanged between the passes or not. -/
def fwOf (same : Bool) : Option (Stream × Bool) := some ({ im0 with man := { man0 with kind := 1 } }, same)
/-- Key slots of which every copy agrees on hash 0, not revoked; slot 0 lost one copy of its hash. -/
def keyOf : KeyRead := { hash0 := some 0, hash1 := some 0, hash2 := some 0, rev0 := some false, rev1 := some false, rev2 := some false }
def keys8 : List KeyRead := { keyOf with hash1 := none } :: List.replicate 7 keyOf
/-- The boot ROM's state with the slots resolved. -/
def romAt : State := resolveKeys keys8 (bootAt .rom up0)
/-- A copy of a later directory, with AUTOLOAD. -/
def dirLater : DirCopy := sealDir { dirOf [3, 4] with sequence := 2, autoload := true }
theorem dirLater_valid : dirValid dirLater = true := by
  unfold dirLater; rw [dirValid_of_crc (sealDir_crcOk _ (by decide))]; decide
/-- The state in which the boot ROM reads the firmware of the first copy, and the entry that it finds there. -/
def fwState (s : State) : State :=
  setFlag fDirConflict false (setFlag fDirUse false { s with ldr := { s.ldr with dir0 := dirOf [3] } })
theorem fwEntry {s : State} (hc : flag (fwState s) fDirConflict = false) (hu : flag (fwState s) fDirUse = false) :
    dirEntry (fwState s) roleFirmware 0 = some (entryAt 1) := by
  have h3 : (fwState s).ldr.dir0 = dirOf [3] := rfl
  have h4 : dirInUse (fwState s) = some (dirOf [3]) := by simp [dirInUse, hc, hu, h3, dir3_valid]
  unfold dirEntry
  rw [h4]
  rfl
/-- Firmware that passes every check but the last starts where its second reading matches. -/
theorem fwStarts {s : State} {same : Bool} (hc : flag (fwState s) fDirConflict = false)
    (hu : flag (fwState s) fDirUse = false) (hm : manifestDetail (fwState s) 1 { man0 with kind := 1 } = 0)
    (hf : floorOf (fwState s) 1 ≤ 2) : firmwareOk s (dirOf [3]) (fwOf same) = same := by
  have hk : ((dirEntry (fwState s) roleFirmware 0).any fun e => e.digest == man0.digest) = true := by
    rw [fwEntry hc hu]; rfl
  have hd : ¬ (2 < floorOf (fwState s) 1) := by omega
  have hp : (passA (fwState s) (bootJob 2 roleFirmware false) { im0 with man := { man0 with kind := 1 } }).fails = none := by
    unfold passA
    simp only [show wantedKind (bootJob 2 roleFirmware false) = 1 from rfl, hm]
    rw [if_neg (by decide), if_neg (by exact hd), if_neg (by decide)]
    show (if !false && !((dirEntry (fwState s) roleFirmware 0).any fun e => e.digest == man0.digest) then _ else _ : PassA).fails = none
    rw [hk]
    rfl
  have hv : firmwareVerdict s (dirOf [3]) (fwOf same) = if same then okVerdict else ⟨ccSourceChanged, 0, 0, 0⟩ := by
    show (match (passA (fwState s) (bootJob 2 roleFirmware false) { im0 with man := { man0 with kind := 1 } }).fails with
      | some v => v
      | none => if same then okVerdict else ⟨ccSourceChanged, 0, 0, 0⟩) = _
    rw [hp]
  unfold firmwareOk
  rw [hv]
  cases same <;> rfl
theorem wit_StartsUp_copies :
    dirValid (dirOf [3]) = true ∧ dirValid dirLater = true ∧ dirValid (dirOf [4]) = true ∧
    (dirOf [3]).sequence < dirLater.sequence ∧ (dirOf [3]).sequence = (dirOf [4]).sequence ∧ dirOf [3] ≠ dirOf [4] ∧
    fwVersion (dirOf [4]) ≤ fwVersion (dirOf [3]) := by
  refine ⟨dir3_valid, dirLater_valid, dir4_valid, by decide, by decide, fun h => ?_, by decide⟩
  have : (dirOf [3]).entries = (dirOf [4]).entries := congrArg _ h
  revert this; decide
theorem wit_StartsUp_starts :
    firmwareOk romAt (dirOf [3]) (fwOf true) = true ∧ firmwareOk romAt (dirOf [3]) (fwOf false) = false ∧
    firmwareOk romAt (dirOf [3]) none = false :=
  ⟨fwStarts (by decide) (by decide) (by decide) (by decide), fwStarts (by decide) (by decide) (by decide) (by decide), rfl⟩
theorem wit_StartsUp_keys :
    keyUsable keyOf = true ∧ keyVoted { keyOf with hash1 := none } = true ∧ keyUsable noKey = false ∧
    vote3 keyOf.hash0 keyOf.hash1 none = some 0 ∧ vote3 (some (1 : BitVec 384)) (some 2) (some 3) = none ∧
    keyRevoked { keyOf with rev0 := some true } = false ∧ keyRevoked { keyOf with rev0 := some true, rev1 := none, rev2 := some true } = true := by decide
theorem wit_StartsUp_keeper :
    (let s := bootAt .keeper (withDir [3] up0);
      (dirEntry s roleShell 0).isNone = true ∧ dirInUse s = some (dirOf [3]) ∧ (dirEntry s roleCurrent 0).isSome = true ∧
      (dirOf [3]).autoload = false) := by
  have hu : bootAt .keeper (withDir [3] up0) = withDir [3] (bootAt .keeper up0) := rfl
  simp only [hu]
  rw [dirInUse_withDir dir3_valid (by decide), dirEntry_withDir _ _ dir3_valid (by decide),
    dirEntry_withDir _ _ dir3_valid (by decide)]
  exact ⟨by decide, rfl, by decide, rfl⟩
/-- The same with the later copy in use, which asks for autoload. -/
theorem wit_StartsUp_autoload (s : State) (hc : flag s fDirConflict = false) :
    dirInUse { s with ldr := { s.ldr with dir0 := dirLater, dir1 := dirLater } } = some dirLater ∧
    dirLater.autoload = true := by
  refine ⟨?_, rfl⟩
  have h1 : flag { s with ldr := { s.ldr with dir0 := dirLater, dir1 := dirLater } } fDirConflict = false := hc
  unfold dirInUse
  rw [h1]
  simp [dirLater_valid]

def pwrAt (x : PkgState) (s : State) : State := { s with pwr := { s.pwr with st := x } }
def entryTo (x : PkgState) (busy : Bool) (s : State) : State :=
  { s with pwr := { s.pwr with entry := some { target := x, resume := true, tclkWake := false }, entering := busy } }
/-- Every domain retained, bank 0 of pavilions 0 and 127 retained, and a wake at step `n`. -/
def wakingAt (n : Nat) (p3 : Bool) : State :=
  let s := setBank 127 0 1 <| setBank 0 0 1 (setReg 0x20004 0xAAAAAAAA (pwrAt .p2 ready0))
  { s with pwr := { s.pwr with waking := some (2, n, 0, p3), kept := [(0, 1), (127, 1)] } }
/-- P2 with every wake source enabled and the package's domains retained. -/
def asleep2 : State := setReg 0x2000C 0xFFFFFFFF (setFld fDomIod 2 (pwrAt .p2 ready0))

theorem wit_PackageStates :
    ((entryTo .p1 false ready0).pwr.entry.isSome = true ∧ (entryTo .p1 false ready0).pwr.entering = false ∧
      inCourse ready0 = false ∧ ready0.cox.st ≠ .wait ∧ linksAsleep (entryTo .p2 true ready0) = true ∧
      (entryTo .p3 true ready0).pwr.entering = true) ∧
    (mayWake asleep2 2 = true ∧ upState run0 = true) ∧
    ((lnkPort (portIn 7 .sleep run0) 7).st = .sleep ∧ upState (portIn 7 .sleep run0) = true ∧
      mayWake (portIn 7 .sleep asleep2) 3 = true ∧ (portIn 7 .sleep asleep2).pwr.st = .p2) ∧
    (nextStep (wakingAt 0 true) 0 = 0 ∧ nextStep (wakingAt 1 false) 1 = 1 ∧ nextStep (wakingAt 12 false) 12 = 12 ∧
      nextStep (wakingAt 13 false) 13 = 13 ∧ nextStep (wakingAt 16 false) 16 = 16 ∧ nextStep (wakingAt 17 false) 17 = 17 ∧
      nextStep (wakingAt 18 false) 18 = 18 ∧ (wakingAt 18 false).pwr.waking = some (2, 18, 0, false) ∧
      fld (setFld (fDomNet 3) 3 (wakingAt 12 false)) (seqFld 12) = 3 ∧ fld (wakingAt 1 false) (seqFld 1) ≠ 3) ∧
    (let s := setFld (fDomDie 3) 3 { run0 with net := { run0.net with latch := [(3, [pkt 3 1 0 0 [] 0 0])] } };
      s.pwr.waking = none ∧ latchWaits s = some 3) ∧
    (let s : State := { ready0 with pwr := { ready0.pwr with resuming := true } };
      s.pwr.resuming = true ∧ startable s = true ∧ ready0.pwr.resuming = false) := by decide +kernel

theorem wit_SmbusTarget :
    (run0.pwr.boot ≠ .off ∧ (0x41 : BitVec 7).toNat ≠ 0x40 + position run0 ∧ (0x40 : BitVec 7).toNat = 0x40 + position run0 ∧
      fld run0 fDomIod = 0 ∧ fld asleep2 fDomIod ≠ 0 ∧ mayWake asleep2 1 = true) ∧
    (let s : State := { run0 with pwr := { run0.pwr with sclHeld := true, nackNext := true } };
      s.pwr.sclHeld = true ∧ s.pwr.nackNext = true) ∧
    (smReady run0 = true ∧ run0.pwr.nackNext = false ∧ (5 : BitVec 8) ≠ 4 ∧ smTakes run0 (some true) = true ∧
      smTakes run0 none = true ∧ smTakes run0 (some false) = false) ∧
    (alertPin run0 = false ∧ alertPin (setFld fAlertEn 255 (setFld fAlert 1 run0)) = true) := by decide

/-- Bank 15 wanted at 1.8 V, in a state. -/
def podAt (x : PodState) (s : State) : State :=
  setReg (0x200040 + 60) 0x12 { s with ldr := { s.ldr with image := some { im0 with head := headWith [(0x38, 8, 2 ^ 62)] } },
                                       pins := { s.pins with pods := [(15, x)] } }
/-- Pin 511 driven against its target. -/
def fightAt : State :=
  { podAt .on run0 with pins := { (podAt .on run0).pins with drvOn := BitVec.ofNat 512 (2 ^ 511), drv := 0,
                                                             landOn := BitVec.ofNat 512 (2 ^ 511),
                                                             land := BitVec.ofNat 512 (2 ^ 511) } }

theorem wit_TargetBanksAndPins :
    (bankIsWanted (podAt .off run0) 15 = true ∧ podState (podAt .off run0) 15 = .off ∧
      bankIsWanted { run0 with pins := { run0.pins with pods := [(0, .check)] } } 0 = false ∧
      podState { run0 with pins := { run0.pins with pods := [(0, .check)] } } 0 ≠ .off ∧
      (bankIsWanted run0 0 == (podState run0 0 != .off)) = true) ∧
    (podState (podAt .check run0) 15 = .check ∧ bankIsWanted (podAt .check run0) 15 = true ∧
      podFits (podAt .check run0) 15 (voltMv (expectedVolt (podAt .check run0) 15)) = true ∧
      podFits (podAt .check run0) 15 (2 * voltMv (expectedVolt (podAt .check run0) 15)) = false ∧
      podState (podAt .on run0) 15 = .on ∧ podState (podAt .podFault run0) 15 = .podFault ∧
      vccioBad (podAt .on run0) 15 0 = true) ∧
    (shorted fightAt 511 = true ∧ hostUp fightAt = true) ∧
    (pullOk 0x80008000 (inMode .service (podAt .on run0)) = true ∧ pullOk 0x80008000 (podAt .on run0) = false) ∧
    ({ run0 with pins := { run0.pins with pulling := true } } : State).pins.pulling = true := by decide +kernel

theorem wit_JtagPort :
    run0.pwr.boot ≠ .off ∧ bypassCode 0 = true ∧ bypassCode 0x3F = true ∧ bypassCode 0xFF = true ∧ bypassCode 7 = false ∧
    privateCode 0x40 = true ∧ privateCode 0x7F = true ∧ tokenRight run0 1 = false ∧
    tokenRight { run0 with ldr := { run0.ldr with token := some 2 } } 1 = true ∧
    (let s := podAt .on run0; (onPins s).getLsbD 511 = true ∧
      (takeSample (withIr { s with pins := { s.pins with landOn := BitVec.ofNat 512 (2 ^ 511) } } 2)).float.getLsbD 511 =
        false) := by decide

/-- A sample of the monitors with one temperature everywhere, its rails in order or rail 0 in fault. -/
def healthAt (t : BitVec 16) (us : Nat) : HealthIn :=
  { temps := (List.range 72).map fun _ => t, railMv := [800, 800, 800, 800, 800, 800], railDa := [1, 1, 1, 1, 1, 1],
    warnUs := [0, 0, 0, 0, 0, 0], faultUs := [us, 0, 0, 0, 0, 0], procs := [] }

theorem wit_HealthMonitors :
    (monitored (healthAt 1680 10) = true ∧ run0.pwr.st = .p0 ∧ sensorGood (setReg 0x3021C 0x80000000 run0) 71 = true ∧
      1600 ≤ ((healthAt 1680 10).temps.getD 71 0).toInt ∧ 1680 ≤ ((healthAt 1680 10).temps.getD 71 0).toInt ∧
      railTrips run0 (healthAt 1680 10) 0 = true ∧ controllerBusy run0 = true) ∧
    (monitored (healthAt 0 0) = true ∧ (pwrAt .p2 ready0).pwr.st = .p2 ∧ (pwrAt .p3 ready0).pwr.st = .p3) ∧
    ((71 : BitVec 7).toNat < 72 ∧ 1840 ≤ (1840 : BitVec 16).toInt ∧ 64 ≤ (71 : BitVec 7).toNat ∧
      ({ run0 with hlt := { run0.hlt with hotTwice := 1 } } : State).hlt.hotTwice.getLsbD 0 = true ∧
      72 ≤ (72 : BitVec 7).toNat) := by decide

/-! Registers, scrubbing, triggers, probes, trace, and the whole machine. -/

/-- SERVICE with one bank of a pavilion on. -/
def svcAt (p b : Nat) : State := setBank p b 0 (inMode .service run0)
/-- A pavilion's port in another state. -/
def portAt (p : Nat) (x : NetState) (s : State) : State := { s with net := { s.net with ports := [(p, x)] } }

theorem wit_Registers :
    (takesWrite run0 0x80010 = true ∧ takesWrite run0 0xC0FFC = true ∧ takesWrite run0 (pavA 127 + 0x214) = true ∧
      (0xE : BitVec 4) ≠ 0xF) ∧
    hostUp run0 = true ∧
    (reaches run0 0 = true ∧ reaches run0 0xFFFFFC = true ∧ (1 : BitVec 4) ≠ 0 ∧
      rcMask 0x90014 &&& byteMask 0xF ≠ 0 ∧ answers run0 0x90014 = true ∧ isCtr 0x24 = true ∧ answers run0 0x24 = true) ∧
    (reaches run0 0x24 = true ∧ ctrWord 0x24 = true ∧ reaches run0 0x28 = true ∧ isCtr 0x28 = false ∧
      ctrWord 0x28 = true) ∧
    (portState run0 (127 : Pav).toNat = .live ∧ enabled (portAt 127 .dead run0) (127 : Pav).toNat = true ∧
      portState (portAt 127 .dead run0) (127 : Pav).toNat = .dead ∧ hostUp (portAt 127 .dead run0) = true) ∧
    (windowAt (svcAt 31 63) 0xFFFFF8 = true ∧ windowAt (svcAt 31 63) 0xFFFFFC = true ∧
      (0xFFFFFC : BitVec 24).toNat / 4 % 2 = 1 ∧
      (let s : State := { svcAt 31 63 with winLow := some (windowKey (svcAt 31 63) 0xFFFFFC, 9) };
        s.winLow = some (windowKey s 0xFFFFFC, 9) ∧ windowAt s 0xFFFFFC = true) ∧
      (check72 (bankCw (svcAt 31 63) (windowKey (svcAt 31 63) 0))).cls = .clean ∧
      windowOpen run0 (0 : BitVec 24).toNat = false) := by decide +kernel

/-- The configuration scrubber at a place of its walk, with the codeword of the item it reads next. -/
def scrubAt (place : Word) (w : BitVec 72) (s : State) : State :=
  let r := setReg 0x60004 place (setReg 0x60000 1 s)
  withCw ((nextPlace r).elim 0 fun k => (itemPlaced r k).key) w r
where withCw (k : Nat) (w : BitVec 72) (s : State) : State := { s with cfg := ins s.cfg k w }
/-- The item that the scrubber reads next. -/
def itemNow (s : State) : Item := (nextPlace s).elim ⟨2, 0, 0, 0, 0, 0, 0⟩ (itemPlaced s)
def rcvAt (x : RecState) (s : State) : State := { s with scb := { s.scb with st := x, queue := [0xA0000000] } }

theorem wit_ConfigurationIntegrity :
    (let a := scrubAt 0 0 run0; reads a (itemNow a) = true ∧ (itemCheck a (itemNow a)).cls = .clean) ∧
    (let b := scrubAt 0xBFC00000 1 run0; reads b (itemNow b) = true ∧ (itemNow b).pav = 127 ∧
      (itemCheck b (itemNow b)).cls = .fixed) ∧
    (let c := scrubAt 0x80000001 3 run0; reads c (itemNow c) = true ∧ plainBad c (itemNow c) = true ∧
      itemCare c (itemNow c) = true ∧ c.scb.queue.length < 16 ∧ inCourse c = true) ∧
    (let d := scrubAt 0 3 run0; reads d (itemNow d) = true ∧ plainBad d (itemNow d) = true ∧
      itemCare d (itemNow d) = false) ∧
    (let e := scrubAt 0 3 ready0; reads e (itemNow e) = true ∧ plainBad e (itemNow e) = true ∧
      itemCare e (itemNow e) = true ∧ inCourse e = false) ∧
    ((rcvAt .read run0).scb.st = .read ∧ (rcvAt .read run0).scb.full = none ∧ (rcvAt .write run0).scb.st = .write ∧
      (image (rcvAt .write run0)).all streamOk = true ∧
      (rcvAt .write run0).scb.queue.all (fun a => a.toNat % 128 = 0) = true) ∧
    ((8 : BitVec 4).toNat < 9 ∧ recovering (rcvAt .write run0) = true ∧ 9 ≤ (9 : BitVec 4).toNat) ∧
    ((71 : BitVec 7).toNat < 72 ∧ (15 : BitVec 10).toNat < run0.cox.length ∧
      run0.cox.length ≤ 16 * (1 : BitVec 6).toNat ∧ (38 : BitVec 6).toNat < 39 ∧ frameType 0 = 0 ∧
      frameType 0x30000000 = 3 ∧ frameType 0x90000000 = 9 ∧ (287 : BitVec 9).toNat < 288) := by decide +kernel

/-- Capture is armed or elsewhere. -/
def armedAt (x : TrgState) (s : State) : State := { s with trg := { s.trg with st := x } }
/-- A part whose pavilion 0 has a type 6 frame. -/
def im6 : Stream :=
  { im0 with frames := [{ addr := BitVec.ofNat 32 (frameKey 6 0 0 0 0 * 128), index := 0xFFFFFFFF, words := [] }] }
/-- The part runs with S = 3, tap 63 valid, bank 63 in the capture ring, and conditions 0 and 15 in use in state 0. -/
def probe0 : State :=
  let s := withCfg (cfgKey (frameKey 6 0 0 0 0) 0) 3 (withCfg (cfgKey (frameKey 6 0 0 0 0) 1) (1 <<< 63)
    (withCfg (cfgKey (frameKey 6 0 0 0 0) 39) (1 <<< 63) { run0 with ldr := { run0.ldr with image := some im6 } }))
  setReg 0x80100 0x80010000 (setReg 0x802E0 0x80010000 (setReg 0x80010 0x10001 (setReg 0x80014 8 (armedAt .armed s))))

theorem wit_TriggersArmAndFire :
    (isMaster (onBoardOf 1 run0) = false) ∧
    (isMaster run0 = true ∧ armErr probe0 = 0 ∧ isMaster probe0 = true ∧ armErr (setReg 0x80014 0x10001 probe0) = 1 ∧ armErr (setReg 0x80014 7 probe0) = 2 ∧
      armErr (early probe0) = 3 ∧ (coxOf 1 1 3).origin.toNat ≠ position run0 ∧
      ({ coxOf 1 1 3 with value := 1 } : CoxMsg).value.getLsbD 0 = true ∧ (coxOf 1 1 3).value.getLsbD 0 = false) ∧
    ((armedAt .armed run0).trg.st = .armed ∧ run0.trg.st ≠ .armed ∧ hostUp run0 = true) ∧
    (let s := armedAt .armed (onBoardOf 1 run0); isMaster s = false ∧ s.trg.st = .armed ∧
      writtenWith s s.trg.writes 1 = false ∧
      writtenWith { s with trg := { s.trg with taken := 3, course := 2 } } [] 1 = true) ∧
    (let s := armedAt .armed run0; (coxOf 1 1 3).origin.toNat ≠ position s ∧ s.trg.accepted = false ∧ running s = true ∧
      running (inSt .wait s) = false ∧ (coxOf 1 1 3).value.getLsbD 17 = false ∧
      (let m : CoxMsg := { coxOf 1 1 3 with value := 0x20000 }; m.value.getLsbD 17 = true ∧ gOf (inSt .wait s) < haltOf s m) ∧
      coxOf 0 1 3 ∈ ({ s with trg := { s.trg with raised := [coxOf 0 1 3] } } : State).trg.raised ∧
      coxOf 0 1 3 ∉ s.trg.raised ∧ (coxOf 0 1 3).origin.toNat = position s) ∧
    (let s : State := { armedAt .armed run0 with trg := { (armedAt .armed run0).trg with
        accepted := true, sent := some (coxOf 2 1 3, 3) } };
      s.trg.accepted = true ∧ beatsSent s (coxOf 1 1 3) = true ∧ beatsSent s (coxOf 3 1 3) = false) ∧
    (let s := setReg 0x8000C 1 { probe0 with trg := { probe0.trg with taken := 1 },
                                             cox := { probe0.cox with stroke := 11 } };
      (running s && isMaster s && s.trg.st == .armed && !s.trg.accepted &&
        !(s.trg.raised.any fun m => m.value.getLsbD 16 && m.course.toNat == s.trg.course) &&
        reg s 0x8000C != 0 && s.trg.taken == (reg s 0x8000C).toNat && gOf s == decisionStroke s) = true) := by
  decide +kernel

/-- The decision on the sample of this course, with the conditions it met. -/
def decide0 (met : BitVec 16) : State :=
  { probe0 with cox := { probe0.cox with stroke := 11 }, trg := { probe0.trg with waiting := true, met := met, taken := 1 } }
/-- A sample waits to be written. -/
def capW : CapWrite := { pav := 0, pos := 0, val := 5, w := 1, j := 0 }
def capAt : State := { probe0 with trg := { probe0.trg with writes := [capW] } }
/-- A density window of one course is over, on a ring of 2 ** k entries, of which `tail` are in use. -/
def densAtEnd (k tail : Nat) : State :=
  let s := setFld fDensTail tail (setReg 0x80030 (BitVec.ofNat 32 (0x80000000 + k)) probe0)
  { s with trg := { s.trg with densOn := true, densN := 1, densFirst := 0, densK := 0 } }

theorem wit_SamplesAndDecisions :
    (samplesNow probe0 = true ∧ samplesNow run0 = false ∧ meets probe0 0 = true ∧ meets probe0 15 = true ∧
      meets probe0 1 = false ∧ (sampleWrites probe0).length = 1) ∧
    (decidesNow run0 = false ∧ decidesNow (decide0 0) = true ∧ lowestMet (decide0 0) = none ∧ haltDue (decide0 0) = false ∧
      haltDue { decide0 0 with trg := { (decide0 0).trg with haltAt := some 11 } } = true ∧
      decidesNow (decide0 0x8000) = true ∧ lowestMet (decide0 0x8000) = some 15 ∧ lowestMet (decide0 0x8001) = some 0) ∧
    ([0, 1, 2, 3].all fun a => bits (reg (setReg 0x80100 (0x80000000 + BitVec.ofNat 32 (a * 2048)) (decide0 1)) (condA 0)) 11 2 == a) =
      true ∧
    (waitingWrite run0 0 = none ∧ (inSt .easy capAt).cox.st = .easy ∧ capAt.cox.st ≠ .easy ∧
      waitingWrite capAt 0 = some capW ∧ (captureBank capAt capW).isSome = true ∧ captureGranted capAt capW = true ∧ captureClash capAt capW = false ∧
      (captureBank capAt capW).all (fun b => !captureGranted
        { capAt with fab := { capAt.fab with grants := List.replicate 4 b } } capW) = true ∧
      capKey { capAt with trg := { capAt.trg with writes := [] } } 0 1023 0 = some (bankKey 0 65535)) ∧
    ((writesAfter capAt capW = [] ∧ closedBy capAt [] = none) ∧
      (let s : State := { capAt with trg := { capAt.trg with
          st := .fired, fire := some (coxOf 0 0 3), taken := 1, course := 0, win := 0 } };
        closedBy s [] = some (coxOf 0 0 3) ∧ closedBy s [capW] = none)) ∧
    (densFull run0 = false ∧ densFull (densAtEnd 8 0) = true ∧ densRingOn (densAtEnd 8 0) = true ∧
      densRingOn (densAtEnd 7 0) = false ∧ densRingOn (densAtEnd 17 0) = false ∧ densRoom (densAtEnd 8 0) = 255 ∧
      densRoom (densAtEnd 8 255) = 0 ∧ densRoom (densAtEnd 16 65534) = 1 ∧
      (densEntries (densAtEnd 8 0) false).length = 1) ∧
    ((0x80000000 : Word).getLsbD 31 = true ∧ (0 : Word).getLsbD 31 = false ∧ (reg run0 0x80030).getLsbD 31 = false ∧
      (reg (densAtEnd 8 0) 0x80030).getLsbD 31 = true ∧ hostUp run0 = true ∧ hostUp (densAtEnd 8 0) = true) := by decide +kernel

/-- A capture write that finds no cycle in the last stroke before the next sample, and one that has its turn yet; and one
that meets a scheduled write of its codeword. -/
theorem wit_SamplesAndDecisions_dropped :
    (let full := fun (s : State) => ({ s with fab := { s.fab with
        grants := (captureBank s capW).elim [] fun b => List.replicate 4 b } } : State);
      beforeSample (full { capAt with cox := { capAt.cox with stroke := 2 } }) = true ∧
      captureGranted (full { capAt with cox := { capAt.cox with stroke := 2 } }) capW = false ∧
      beforeSample (full { capAt with cox := { capAt.cox with stroke := 5 } }) = false) ∧
    (let s := writing 0 (setBank 0 0 0 { capAt with cfg := upd 0 capAt.cfg (cfgKey (frameKey 6 0 0 0 0) 1) (encode72 1) });
      s.cox.st ≠ .easy ∧ waitingWrite s 0 = some capW ∧ captureGranted s capW = true ∧ captureClash s capW = true) := by
  decide +kernel

/-- Trace runs with a sink and a packet of `n` data words waiting. -/
def traceAt (sink n : Nat) : State :=
  let s := setReg 0x70020 16 (setReg 0x70000 (BitVec.ofNat 32 (1 + 2 * sink)) run0)
  { s with trc := { s.trc with
      syncDue := false,
      committed := [{ type := 0x20, flags := 0, source := 0, words := List.replicate n 7, time := 5, course := 0 }] } }

/-- The queue of host messages full, and with one message of three words. -/
def markersAt (n : Nat) : State := { traceAt 1 1 with trc := { (traceAt 1 1).trc with hostQ := List.replicate n (7, [1, 2, 3]) } }

theorem wit_HostMarkers :
    ((decide (bits (9 : Word) 0 4 = 0) || decide (8 < bits (9 : Word) 0 4)) = true ∧
      (decide (bits (0 : Word) 0 4 = 0)) = true ∧ (decide (4 ≤ (markersAt 4).trc.hostQ.length)) = true ∧
      (decide (bits (8 : Word) 0 4 = 0) || decide (8 < bits (8 : Word) 0 4) || decide (4 ≤ (markersAt 3).trc.hostQ.length)) =
        false) ∧
    (markersAt 1).trc.hostQ = (7, [1, 2, 3]) :: [] := by decide

/-- The packet that waits in those states, and the bytes that go out for it, the SYNC and the OVERFLOW before it among them. -/
def firstPkt (s : State) : TracePacket := s.trc.committed.headD ⟨0, 0, 0, [], 0, 0⟩
def bytesOut (s : State) : Nat := 8 * (groupWords s.trc.lastTime.toNat (groupOf s (firstPkt s))).length
/-- The same packet with a SYNC due, and with an OVERFLOW due. -/
def syncAt : State := { traceAt 1 1 with trc := { (traceAt 1 1).trc with syncDue := true } }
def lostAt : State := { traceAt 1 1 with trc := { (traceAt 1 1).trc with lostRun := 2 } }

theorem wit_TraceStream :
    (flag (traceAt 1 1) fTrcEnable = true ∧ bits (5 : Word) 1 2 ≠ fld (traceAt 1 1) fTrcSink ∧
      flag run0 fTrcEnable = false ∧ (3 : Word).getLsbD 0 = true ∧ (3 : Word).getLsbD 4 = false ∧
      (0x13 : Word).getLsbD 4 = true ∧ (2 : Word).getLsbD 0 = false ∧ bits (2 : Word) 1 2 = fld (traceAt 1 1) fTrcSink ∧
      hostUp run0 = true) ∧
    (run0.trc.committed = [] ∧ (traceAt 1 1).trc.committed ≠ [] ∧ run0.trc.ended = [] ∧ ranked (traceAt 1 1).trc.committed) ∧
    (let s := traceAt 1 1; s.trc.committed = firstPkt s :: [] ∧ (firstPkt s).words.length < 256 ∧ fld s fTrcSink = 1 ∧
      (!flag s fTrcStopped && (flag s fTrcWrap || decide (fld s fTrcOff + bytesOut s ≤ 0xFFF8))) = true ∧
      (groupOf s (firstPkt s)).length = 1 ∧ (groupOf syncAt (firstPkt syncAt)).length = 2 ∧
      (groupOf lostAt (firstPkt lostAt)).length = 3) ∧
    (let s := setFld fTrcOff 0xFFF8 (traceAt 1 1); s.trc.committed = firstPkt s :: [] ∧
      (!flag s fTrcStopped && (flag s fTrcWrap || decide (fld s fTrcOff + bytesOut s ≤ 0xFFF8))) = false ∧
      (!flag (setFlag fTrcWrap true s) fTrcStopped && flag (setFlag fTrcWrap true s) fTrcWrap) = true) ∧
    (let s := traceAt 2 1; s.trc.committed = firstPkt s :: [] ∧ fld s fTrcSink = 2 ∧
      (hostTail s + hostRing s - hostHead s % hostRing s) % hostRing s + bytesOut s + 8 ≤ hostRing s ∧
      (let f := setReg 0x70024 8 s; hostRing f <
        (hostTail f + hostRing f - hostHead f % hostRing f) % hostRing f + bytesOut f + 8)) ∧
    (fld (traceAt 0 1) fTrcSink ≠ 1 ∧ fld (traceAt 0 1) fTrcSink ≠ 2) ∧
    (flushEnds { traceAt 1 1 with trc := { (traceAt 1 1).trc with flushing := some 1 } } = true ∧
      flushEnds { traceAt 1 1 with trc := { (traceAt 1 1).trc with flushing := some 2 } } = false) ∧
    (maySleep { run0 with trc := { run0.trc with committed := [] } } = true ∧ maySleep (setFld fKeeperIdle 0 run0) = false ∧
      (let s : State := { run0 with pwr := { run0.pwr with asleep := true } };
        upState s = true ∧ s.pwr.asleep = true) ∧ (upState run0 && run0.pwr.asleep) = false) := by
  unfold ranked
  decide +kernel

/-- A log message that has ended waits for its commit. -/
theorem wit_TraceStream_logs :
    (let m : LogMsg := { port := 3, inst := 0, two := false, cont := false, vals := [1, 0], course := 0, stroke := 3 };
     let s : State := { traceAt 1 1 with trc := { (traceAt 1 1).trc with ended := [m] } };
      s.trc.ended = m :: [] ∧ 1 < m.vals.length) := by decide

/-- A step answers a next state. -/
def goesOn (s : State) : Bool := match step s with | .next _ => true | _ => false

theorem wit_WholeMachine :
    (let s : State := { run0 with pending := [.halt, .run] }; s.pending = .halt :: [.run] ∧ goesOn s = true ∧ Memory.wf s) ∧
    (run0.pending = [] ∧ goesOn run0 = true) ∧
    (let s : State := { backAt with pending := [.correctionWriteBack] }; Memory.wf s ∧ goesOn s = true) := by decide +kernel

/-- Two events of this tick stand in the log, and it is about to wrap. -/
def logged2 : State := log0 9 1 0 (log0 3 7 0 (setFld fEvNext 254 { run0 with evTick := run0.cox.ticks }))

theorem wit_EventsOfATickInOrder :
    inOrder (tickEntries run0 0) ∧ logged2.evIn = 2 ∧ (running logged2 && logged2.evTick == logged2.cox.ticks) = true ∧
    (tickEntries logged2 2).length = 2 ∧ inOrder (tickEntries logged2 2) := by
  unfold inOrder
  decide +kernel

/-- A pending vector of a VF, masked as at reset (PCI Express; log entry 66). -/
def pendingAt (k : Nat) : State := { run0 with hif := { run0.hif with msix := putBit 0 k true } }

theorem wit_InterruptVectors :
    (hostUp (pendingAt 2047) = true ∧ ownVector 31 31 = true ∧ ownVector 0 1055 = true ∧ ownVector 31 32 = false ∧
      (pendingAt 2047).hif.msix.getLsbD (msixIndex 31 31) = true) ∧
    (readReg (pendingAt 1055) (0xAF000 + 4 * 32) = 0x80000000 ∧ readReg (pendingAt 2047) 0x501F8000 = 0x80000000) ∧
    readReg run0 0xA800C = 1 := by decide +kernel

/-- What a command that a register write starts brings with it; none here. -/
def cmd0 : CmdIn := { ready := true, token := none, faults := [], bist := { failed := 0, late := 0, us := [], sensors := [], rails := [], faults := [] } }

theorem test_unmask_sends : (match exec (.registerWrite (.vf0 31) 0x1FC 0 ⟨0xF, cmd0⟩) (pendingAt 2047) with
    | .next t => t.out == [.msix 31 31] && t.hif.msix == 0
    | _ => false) = true := by decide +kernel

/-! The manual's worked examples. -/

/-- The state that a command leaves. -/
def ran (c : Instr) (s : State) : State := match exec c s with | .next t => t | _ => s
/-- The running part at a stroke, with L = `l`. -/
def atStroke (l n : Nat) (s : State) : State := { s with cox := { s.cox with length := l, stroke := n } }
/-- A state with slots set: (pavilion, crew, BP, slot, value). -/
def withSlots (l : List (Nat × Nat × Nat × Nat × BitVec 2)) (s : State) : State :=
  l.foldl (fun x e => setSlot e.1 e.2.1 e.2.2.1 e.2.2.2.1 e.2.2.2.2 x) s

/-- "A two-input AND" after R30: word 0x8888_00B0_0E10_4201 of BP 12.3.6 at stroke 12. -/
theorem test_eval_and :
    ([(0, 0), (0, 1), (1, 0), (1, 1)].map fun (e : BitVec 2 × BitVec 2) =>
      slot (ran (.eval 12 3 6) (withCfg (schedKey 12 3 6 12) 0x888800B00E104201
        (withSlots [(12, 3, 6, 5, e.1), (12, 3, 3, 11, e.2)] (atStroke 32 12 run0)))) 12 3 6 12) = [0, 0, 0, 1] := by
  decide +kernel

/-- "A D flip-flop with enable" after R31: word 0x00AA_01D0_8210_4022 of BP 4.7.9 at stroke 20. -/
theorem test_eval_hold_flip_flop :
    ([(1, 1), (0, 1), (1, 0), (0, 0)].map fun (e : BitVec 2 × BitVec 2) =>
      slot (ran (.evalHold 4 7 9) (withCfg (schedKey 4 7 9 20) 0x00AA01D082104022
        (withSlots [(4, 7, 9, 14, e.1), (4, 7, 2, 19, e.2), (4, 7, 9, 20, 1)] (atStroke 32 20 run0)))) 4 7 9 20) =
      [1, 0, 1, 1] := by
  decide +kernel

/-- The parity quad of "A six-bit parity check": the leader at stroke 40, in a mode and with the six bits. -/
def parity (m : Mode) (bs : List (BitVec 2)) : BitVec 2 :=
  slot (ran (.wide 22 9 4) (withCfg (schedKey 22 9 4 40) 0x69968110260540B3 (withCfg (schedKey 22 9 5 40)
    0x9669819036104203 (withCfg (schedKey 22 9 6 40) 0x9669841082104203 (withCfg (schedKey 22 9 7 40) 0x6996841082104203
    (withSlots ((List.range 6).map fun i => (22, 9, 8 + i, 39, bs.getD i 0)) (atStroke 64 40 (inMode m run0)))))))) 22 9 4 40

/-- Four ones are even; five are odd; in FOURSTATE an X in bit 5 gives X. -/
theorem test_wide_parity :
    parity .capacity [1, 0, 1, 1, 0, 1] = 0 ∧ parity .capacity [1, 0, 1, 1, 1, 1] = 1 ∧
    parity .fourstate [1, 0, 1, 1, 0, 2] = 2 := by decide +kernel

/-- EVAL of tt 0xCACA with A = slot 5, B = slot 6, C = slot 7, and D constant 0. -/
def muxWord : BitVec 64 := 0xCACA <<< 48 ||| 5 <<< 37 ||| 6 <<< 26 ||| 7 <<< 15 ||| 0x420 <<< 4 ||| 1

/-- "A four-state multiplexer": tt 0xCACA, A = night_lvl, B = day_lvl, C = lamp_sel, each row of its table. -/
theorem test_eval_fourstate :
    (([(2, 1, 1), (2, 1, 0), (0, 2, 0), (1, 0, 3), (2, 2, 0)] : List (BitVec 2 × BitVec 2 × BitVec 2)).map fun e =>
      slot (ran (.eval 0 0 0) (withCfg (schedKey 0 0 0 12) muxWord
        (withSlots [(0, 0, 0, 5, e.2.2), (0, 0, 0, 6, e.2.1), (0, 0, 0, 7, e.1)]
          (atStroke 32 12 (inMode .fourstate run0))))) 0 0 0 12) = [1, 2, 0, 0, 2] := by
  decide +kernel

/-- The grid: BP 37.12.5, pavilion 37 on die 0 in terrace 2; terrace 9 is pavilions 80 to 87 of die 2. -/
theorem test_grid :
    bpIndex 37 12 5 = 38085 ∧ dieOf 37 = 0 ∧ terraceOf 37 = 2 ∧
    (List.range 128).filter (fun p => terraceOf p == 9) = [80, 81, 82, 83, 84, 85, 86, 87] ∧ dieOf 80 = 2 := by decide

/-- The port entry of "A host-paced window-lift model". -/
theorem test_port_entry :
    let e : BitVec 64 := 0xA151508C8780B300
    peValid e = true ∧ pePav e = 33 ∧ peVreg e = 20 ∧ peDreg e = 21 ∧ peDcount e = 1 ∧ peTake e = 240 ∧ peCrew e = 5 ∧
    peBp e = 9 ∧ pePaced e = true ∧ portBytes run0 e = 2 := by decide

/-- The figure of merit of a lane with h = 54 mV and W = 79 (after R259). -/
theorem test_fom : fomOf 54 79 = 114 := by decide

/-- A tap that toggles in 37 of 64 courses and is X in 5 (after R425). -/
theorem test_density_word :
    densTap { inMode .fourstate run0 with trg := { run0.trg with
      densN := 64, dens := [(densKey 0 0 9 0, 37), (densKey 0 0 9 1, 5)] } } 0 0 9 = 0x00140094 := by decide

/-- Bank 5 at 3.3 V with a pod at 3,285 mV, and after a 1.8 V pod took its place ("Two pods"). -/
def bank5 (x : PodState) : State :=
  setReg (0x200040 + 20) 0x15 { run0 with
    ldr := { run0.ldr with image := some { im0 with head := headWith [(0x38, 8, 5 <<< 20)] } },
    pins := { run0.pins with pods := [(5, x)] } }
theorem test_tio_bank :
    readReg (ran (.bankOn 5 3285) (bank5 .check)) 0x200014 = 0x20540CD5 ∧
    readReg (ran (.podMiskeyed 5 false 1800) (setFlag (fVccioOk 5) true (bank5 .on))) 0x200014 = 0x32540708 := by
  decide +kernel

/-- HLT.SPARES of "A crew fault and then a pavilion loss": three bad spare crews, and one in use. -/
theorem test_spares :
    let s := [3, 5, 7].foldl (fun x p => setReg (spareCrewA p) 0x40000000 x) (setReg (spareCrewA 44) 0x8000001E
      { run0 with hlt := { run0.hlt with applied := true } })
    readReg s 0x30610 = 0x17C ∧
    readReg { s with hlt := { s.hlt with retired := [44] } } 0x30610 = 0x1007C ∧
    readReg { s with hlt := { s.hlt with retired := [44] } } 0x108 = 0xFFFFEFFF := by decide +kernel

/-- The event of the shared sense bus, as GLB.EVLOG shows it (after R552). -/
theorem test_event_entry :
    evEntry 0x4002 (locBp 9 40 3 2) 1 45 12000 = 0x00000000000000000000000000002EE000012268382D4002 ∧
    locBp 9 40 3 2 = 0x89A0E := by decide

/-- The first packets of the trace example (after R453). -/
theorem test_trace_packets :
    let log : TracePacket := logPacket run0 { port := 9, inst := 0, two := false, cont := false, course := 1200, stroke := 77,
                                              vals := [1, 0, 1, 1, 0, 0, 0, 0, 1, 0, 1, 0] }
    packetWords { log with time := 5000300 } 300 = [0x0000012C09000330, 1200, 0x000C004D, 0x050D] ∧
    packetWords { powerPacket run0 false with time := 5002300 } 2000 = [0x000007D000000002] ∧
    packetWords (syncFor { log with time := 5000000, course := 1200 }) 0 = [0x201, 5000000, 1200] ∧
    packetWords { powerPacket run0 true with time := 5400000 } 0 = [0x10002] := by decide

/-- The check value of CRC-32C over the nine characters 1 to 9 (the polynomial that R358 names). -/
theorem test_crc32c : crc32c [0x31, 0x32, 0x33, 0x34, 0x35, 0x36, 0x37, 0x38, 0x39] 0 = 0xE3069283 := by decide +kernel
/-- A frame that is sent decodes to its content, and with one bit of lane 3 wrong it is corrected (R250, R251). -/
theorem test_frame_round_trip :
    let b : BitVec 960 := 0xA5 <<< 900 ||| 0x1234
    let l := (frameLanes [] b).1
    ((rsDecode l).map fun r => (r.1.take 15 == l.take 15, r.2)) = some (true, false) := by decide +kernel

/-! Well-formedness: a term that each check takes, and terms that it refuses. -/

theorem test_wf_ports :
    (Instr.vn0Land 0 5 0).wellFormed = true ∧ (Instr.vn0Land 0 6 0).wellFormed = false ∧
    (Instr.flitSwitch 0 7 0).wellFormed = false ∧ (Instr.packetHop 0 6 []).wellFormed = false := by decide
theorem test_wf_lanes :
    (Instr.trainBlock 0 31 0).wellFormed = true ∧ (Instr.trainBlock 0 17 0).wellFormed = false ∧
    (Instr.adaptStep 0 16 0 0).wellFormed = true ∧ (Instr.adaptStep 0 31 0 0).wellFormed = false ∧
    (Instr.laneSignalLoss 0 30 false).wellFormed = false := by decide
theorem test_wf_units :
    (Instr.retentionRailLoss 5).wellFormed = true ∧ (Instr.retentionRailLoss 6).wellFormed = false ∧
    (Instr.supplyRiseTimeout 7).wellFormed = false ∧ (Instr.thermalShutdown 71 0).wellFormed = true ∧
    (Instr.thermalShutdown 72 0).wellFormed = false ∧ (Instr.scrubSelfCorrect 8 true).wellFormed = true ∧
    (Instr.scrubSelfCorrect 9 true).wellFormed = false := by decide
theorem test_wf_self_test :
    (Instr.incomplete 0x22).wellFormed = true ∧ (Instr.incomplete 0x23).wellFormed = false ∧
    (Instr.postSlice 0 true 0 [] [{ kind := 5, pav := 0, crew := 0, bp := 18 }]).wellFormed = true ∧
    (Instr.postSlice 0 true 0 [] [{ kind := 6, pav := 0, crew := 0, bp := 0 }]).wellFormed = false ∧
    (Instr.march (mbx 0) [{ kind := 0, pav := 0, crew := 0, bp := 19 }]).wellFormed = false ∧
    (Instr.march (mbx 0) [{ kind := 0, pav := 0, crew := 0, bp := 48 }]).wellFormed = true ∧
    (Instr.bist (mbx 0) { failed := 0, late := 0, us := [], sensors := [], rails := [], faults := [] }).wellFormed = false := by
  decide
theorem test_wf_lists :
    (Instr.healthSample (healthAt 0 0)).wellFormed = true ∧
    (Instr.healthSample { healthAt 0 0 with railMv := [] }).wellFormed = false ∧
    (Instr.boardFormed { measOf [] with deltas := [] }).wellFormed = false ∧
    (Instr.boardFormed (measOf [])).wellFormed = true ∧
    (Instr.boardFormed (measOf (List.replicate 16 (farReport 24 0 16)))).wellFormed = false := by
  decide
theorem test_wf_frames :
    (Instr.dataFrame 0 (frameOf 0 0 0)).wellFormed = true ∧
    (Instr.dataFrame 0 { frameOf 0 0 0 with hdrs := [] }).wellFormed = false ∧
    (Instr.align 0 { hdrs := List.replicate 17 1, lanes := List.replicate 17 0 }).wellFormed = true ∧
    (Instr.align 0 { hdrs := List.replicate 18 1, lanes := List.replicate 18 0 }).wellFormed = false ∧
    (Instr.align 0 { hdrs := List.replicate 17 1, lanes := List.replicate 16 0 }).wellFormed = false := by
  decide
/-- A part that lists one frame, with a payload index and words. -/
def oneFrame (k : BitVec 32) (ws : Sparse (BitVec 64)) : Frame := { addr := 0, index := k, words := ws }
theorem test_wf_streams :
    (Instr.passAEnd (some im0)).wellFormed = true ∧
    (Instr.passAEnd (some { im0 with frames := [oneFrame 0 [(511, 1)], oneFrame 0 [(511, 1)]] })).wellFormed = true ∧
    (Instr.passAEnd (some { im0 with frames := [oneFrame 0 [(512, 1)]] })).wellFormed = false ∧
    (Instr.passAEnd (some { im0 with frames := [oneFrame 0xFFFFFFFF [(0, 1)]] })).wellFormed = false ∧
    (Instr.passAEnd (some { im0 with frames := [oneFrame 0 [(0, 1)], oneFrame 0 [(0, 2)]] })).wellFormed = false ∧
    (Instr.bootRomStart none none keys8 none none none).wellFormed = true ∧
    (Instr.bootRomStart none none [keyOf] none none none).wellFormed = false := by
  decide

/-- The states that the witnesses of commands from the host name are ones in which the host reaches the registers. -/
theorem wit_host_reaches :
    (hostUp ready0 = true ∧ hostUp run0 = true ∧ hostUp (setFld fStepCount 1 ready0) = true ∧
      hostUp { ready0 with pwr := { ready0.pwr with st := .p1 } } = true ∧ hostUp wait0 = true ∧ hostUp (lockOf run0) = true ∧
      hostUp (lockOf wait0) = true) ∧
    (lnkWritable (portIn 7 .active ready0) 7 = true ∧ lnkWritable (portIn 0 .sleep run0) 0 = true ∧
      lnkWritable (portIn 0 .fault run0) 0 = true ∧ lnkWritable (portIn 0 .test run0) 0 = true) ∧
    (hostUp (podAt .podFault run0) = true ∧ hostUp probe0 = true ∧ hostUp (setReg 0x80014 7 probe0) = true ∧
      hostUp (armedAt .armed run0) = true ∧ hostUp (markersAt 4) = true ∧ hostUp (markersAt 3) = true ∧
      hostUp (traceAt 1 1) = true ∧ hostUp (rcvAt .write run0) = true) ∧
    (powered run0 = true ∧ powered (setReg 0x3021C 0x80000000 run0) = true ∧ powered (pwrAt .p2 ready0) = true ∧
      powered (pwrAt .p3 ready0) = true ∧ powered State.reset = false ∧ hostUp State.reset = false) := by decide

end Sys2Proof.Tests
end

section
/-! PROOFS. What an operation keeps of the package's power state and of its design, as a relation between the state before
and the state after: composed along the operations of a command, never unfolded again. -/

namespace Sys2Proof.Machine

/-! A register after the stores of a block have been cleared by key. -/

/-- A read of a store from which every key that `keep` refuses has been removed. -/
theorem look_filter {β : Type} (d : β) (m : Sparse β) (keep : Nat → Bool) (k : Nat) :
    look d (m.filter fun e => keep e.1) k = if keep k then look d m k else d := by
  induction m with
  | nil => simp [look]
  | cons e m ih =>
    obtain ⟨i, v⟩ := e
    rw [List.filter_cons]
    by_cases hk : k = i
    · subst hk
      cases hi : keep k <;> simp_all [look]
    · cases hi : keep i <;> simp [look, hk, ih]

/-- A register whose block is not the one that goes through reset. -/
theorem reg_of_filter {s t : State} {keep : Nat → Bool} (h : t.regs = s.regs.filter fun e => keep e.1) {a : Nat}
    (ha : keep a = true) : reg t a = reg s a := by
  rw [reg, h, look_filter, if_pos ha, reg]

/-! The relations. -/

/-- The registers of PWR that hold the package's state: all below 0x20040 but the domains of the links. -/
abbrev PwrReg (a : Nat) : Prop := 0x20000 ≤ a ∧ a < 0x20040 ∧ a ≠ 0x20008

/-- The power state, the registers that hold it, and the stores of the design are as they were. -/
structure KeepsPower (s t : State) : Prop where
  pwr : t.pwr = s.pwr
  stores : SameStores s t
  regs : ∀ a, PwrReg a → reg t a = reg s a

/-- The controller, the fuses, the pins and the design are as they were. -/
structure KeepsDesign (s t : State) : Prop where
  cox : t.cox = s.cox
  fuses : t.fuses = s.fuses
  pins : t.pins = s.pins
  design : SameDesign s t

/-- Both, as for everything that logs, counts or moves packets. -/
structure Quiet (s t : State) : Prop extends KeepsPower s t, KeepsDesign s t

theorem SameStores.refl (s : State) : SameStores s s := ⟨rfl, rfl, rfl, rfl, rfl⟩

theorem SameStores.trans {s t u : State} (h : SameStores s t) (k : SameStores t u) : SameStores s u := by
  obtain ⟨h1, h2, h3, h4, h5⟩ := h
  obtain ⟨k1, k2, k3, k4, k5⟩ := k
  exact ⟨k1.trans h1, k2.trans h2, k3.trans h3, k4.trans h4, k5.trans h5⟩

theorem SameDesign.refl (s : State) : SameDesign s s := ⟨rfl, rfl, rfl, rfl, rfl, rfl, rfl, rfl, rfl, rfl, rfl⟩

theorem SameDesign.trans {s t u : State} (h : SameDesign s t) (k : SameDesign t u) : SameDesign s u := by
  obtain ⟨h1, h2, h3, h4, h5, h6, h7, h8, h9, h10, h11⟩ := h
  obtain ⟨k1, k2, k3, k4, k5, k6, k7, k8, k9, k10, k11⟩ := k
  exact ⟨k1.trans h1, k2.trans h2, k3.trans h3, k4.trans h4, k5.trans h5, k6.trans h6, k7.trans h7, k8.trans h8,
    k9.trans h9, k10.trans h10, k11.trans h11⟩

/-- The memories and the configuration are part of the design. -/
theorem SameDesign.stores {s t : State} (h : SameDesign s t) : SameStores s t := by
  obtain ⟨hb, hd, hs, hc, -, hg, -⟩ := h
  exact ⟨hb, hd, hs, hg, hc⟩

theorem KeepsPower.refl (s : State) : KeepsPower s s := ⟨rfl, .refl s, fun _ _ => rfl⟩

theorem KeepsPower.trans {s t u : State} (h : KeepsPower s t) (k : KeepsPower t u) : KeepsPower s u :=
  ⟨k.pwr.trans h.pwr, h.stores.trans k.stores, fun a ha => (k.regs a ha).trans (h.regs a ha)⟩

theorem KeepsDesign.refl (s : State) : KeepsDesign s s := ⟨rfl, rfl, rfl, .refl s⟩

theorem KeepsDesign.trans {s t u : State} (h : KeepsDesign s t) (k : KeepsDesign t u) : KeepsDesign s u :=
  ⟨k.cox.trans h.cox, k.fuses.trans h.fuses, k.pins.trans h.pins, h.design.trans k.design⟩

theorem Quiet.refl (s : State) : Quiet s s := ⟨.refl s, .refl s⟩

theorem Quiet.trans {s t u : State} (h : Quiet s t) (k : Quiet t u) : Quiet s u :=
  ⟨h.toKeepsPower.trans k.toKeepsPower, h.toKeepsDesign.trans k.toKeepsDesign⟩

theorem KeepsPower.fld {s t : State} (h : KeepsPower s t) (f : Fld) (hf : PwrReg f.a) : fld t f = fld s f :=
  fld_of_reg (h.regs _ hf)

theorem KeepsPower.iff {s : State} {f : State → State} (c : Bool) (h : KeepsPower s (f s)) : KeepsPower s (iff c f s) := by
  cases c
  · exact .refl s
  · exact h

theorem KeepsDesign.iff {s : State} {f : State → State} (c : Bool) (h : KeepsDesign s (f s)) :
    KeepsDesign s (iff c f s) := by
  cases c
  · exact .refl s
  · exact h

theorem Quiet.iff {s : State} {f : State → State} (c : Bool) (h : Quiet s (f s)) : Quiet s (iff c f s) :=
  ⟨h.toKeepsPower.iff c, h.toKeepsDesign.iff c⟩

theorem KeepsPower.foldl {α : Type} {f : State → α → State} (h : ∀ x a, KeepsPower x (f x a)) (l : List α) (s : State) :
    KeepsPower s (l.foldl f s) :=
  l.foldlRecOn f (.refl s) fun x hx a _ => hx.trans (h x a)

theorem KeepsDesign.foldl {α : Type} {f : State → α → State} (h : ∀ x a, KeepsDesign x (f x a)) (l : List α)
    (s : State) : KeepsDesign s (l.foldl f s) :=
  l.foldlRecOn f (.refl s) fun x hx a _ => hx.trans (h x a)

theorem Quiet.foldl {α : Type} {f : State → α → State} (h : ∀ x a, Quiet x (f x a)) (l : List α) (s : State) :
    Quiet s (l.foldl f s) :=
  l.foldlRecOn f (.refl s) fun x hx a _ => hx.trans (h x a)

/-! Plain updates. -/

/-- A change of the fields that no relation speaks of. -/
theorem quiet_outside (s : State) {ctrs wide snaps evlog evTick evIn satDue winLow net lnk hif dsp ldr scb trg trc jtag
    hlt out free pending} :
    Quiet s { s with
      ctrs := ctrs, wide := wide, snaps := snaps, evlog := evlog, evTick := evTick, evIn := evIn, satDue := satDue,
      winLow := winLow, net := net, lnk := lnk, hif := hif, dsp := dsp, ldr := ldr, scb := scb, trg := trg, trc := trc,
      jtag := jtag, hlt := hlt, out := out, free := free, pending := pending } :=
  ⟨⟨rfl, ⟨rfl, rfl, rfl, rfl, rfl⟩, fun _ _ => rfl⟩, ⟨rfl, rfl, rfl, rfl, rfl, rfl, rfl, rfl, rfl, rfl, rfl, rfl, rfl, rfl⟩⟩

/-- A change of the controller or of the pins keeps the power state. -/
theorem keepsPower_cox (s : State) {cox pins fab} : KeepsPower s { s with cox := cox, pins := pins, fab := fab } :=
  ⟨rfl, ⟨rfl, rfl, rfl, rfl, rfl⟩, fun _ _ => rfl⟩

/-- A change of the registers, of the network and of the power state keeps the design. -/
theorem keepsDesign_regs (s : State) {regs ctrs snaps net pwr} :
    KeepsDesign s { s with regs := regs, ctrs := ctrs, snaps := snaps, net := net, pwr := pwr } :=
  ⟨rfl, rfl, rfl, rfl, rfl, rfl, rfl, rfl, rfl, rfl, rfl, rfl, rfl, rfl⟩

theorem keepsDesign_setFld (f : Fld) (v : Nat) (s : State) : KeepsDesign s (setFld f v s) := keepsDesign_regs s

theorem quiet_setReg {a : Nat} (v : Word) (s : State) (h : ¬ PwrReg a) : Quiet s (setReg a v s) :=
  ⟨⟨rfl, ⟨rfl, rfl, rfl, rfl, rfl⟩, fun _ hb => reg_setReg_ne v s fun e => h (e ▸ hb)⟩, keepsDesign_regs s⟩

theorem quiet_setFld {f : Fld} (v : Nat) (s : State) (h : ¬ PwrReg f.a) : Quiet s (setFld f v s) := quiet_setReg _ s h

theorem quiet_setFlag {f : Fld} (b : Bool) (s : State) (h : ¬ PwrReg f.a) : Quiet s (setFlag f b s) := quiet_setFld _ s h

/-- A block outside PWR goes through reset. -/
theorem quiet_filterRegs (s : State) (keep : Nat → Bool) {ctrs snaps} (h : ∀ a, PwrReg a → keep a = true) :
    Quiet s { s with regs := s.regs.filter fun e => keep e.1, ctrs := ctrs, snaps := snaps } :=
  ⟨⟨rfl, ⟨rfl, rfl, rfl, rfl, rfl⟩, fun a ha => reg_of_filter (s := s) (keep := keep) rfl (h a ha)⟩, keepsDesign_regs s⟩

theorem quiet_setLnk (n : Nat) (x : LnkPort) (s : State) : Quiet s (setLnk n x s) := quiet_outside s

theorem quiet_emit (o : Out) (s : State) : Quiet s (emit o s) := quiet_outside s

/-- The registers of a port stand apart from those of PWR. -/
theorem not_pwrReg_lnkA (n o : Nat) : ¬ PwrReg (lnkA n + o) := by
  simp only [PwrReg, lnkA]
  omega

/-! Logging and counting. -/

theorem quiet_commit (t f o : BitVec 8) (ws : List (BitVec 64)) (s : State) : Quiet s (commit t f o ws s) := by
  unfold commit
  split
  · exact quiet_outside s
  · exact .refl s

theorem quiet_logEvent (c l d : Nat) (s : State) : Quiet s (logEvent c l d s) :=
  ⟨⟨by simp, by simp [SameStores], fun _ ha => reg_logEvent c l d s (by omega)⟩, ⟨by simp, by simp, by simp, by simp [SameDesign]⟩⟩

theorem quiet_countN (a n : Nat) (s : State) : Quiet s (countN a n s) :=
  ⟨⟨by simp, by simp [SameStores], fun _ ha => reg_countN a n s (by omega)⟩, ⟨by simp, by simp, by simp, by simp [SameDesign]⟩⟩

theorem quiet_count (a : Nat) (s : State) : Quiet s (count a s) := quiet_countN a 1 s

/-! Packets of the network and of the links. -/

theorem quiet_enqueuePacket (r inp : Nat) (p : Packet) (s : State) : Quiet s (enqueuePacket r inp p s) := by
  unfold enqueuePacket
  dsimp only
  split
  · unfold enter iff
    dsimp only
    split <;> exact quiet_outside s
  · exact quiet_outside s

theorem quiet_queued (p port : Nat) (x : Option Packet) (s : State) : Quiet s (queued p port x s) := by
  cases x
  · exact .refl s
  · exact quiet_enqueuePacket _ _ _ s

theorem quiet_replyStatus (p code : Nat) (h : BitVec 64) (s : State) : Quiet s (replyStatus p code h s) := quiet_queued _ _ _ s

theorem quiet_losePkt (s : State) (pk : Packet) : Quiet s (losePkt s pk) := by
  unfold losePkt ioStatus ioAnswer
  dsimp only
  split
  · exact quiet_emit _ s
  · split
    · exact quiet_outside s
    · exact quiet_queued _ _ _ s

/-! Completions of the data plane. -/

theorem quiet_complete (c : Nat) (e : Completion) (s : State) : Quiet s (complete c e s) := by
  have hc : ∀ x, Quiet s (setChan c x s) := fun _ => quiet_outside s
  unfold complete
  dsimp only
  split
  · exact .refl s
  · split
    · exact (hc _).trans (quiet_count _ _)
    · exact hc _

theorem quiet_tooLate (c : Nat) (tag : BitVec 16) (s : State) : Quiet s (tooLate c tag s) := by
  unfold tooLate
  exact quiet_complete _ _ s

theorem quiet_endMsg (m : Msg) (status detail crs dev : Nat) (s : State) : Quiet s (endMsg m status detail crs dev s) := by
  have removed : Quiet s (removeMsg m.order s) := quiet_outside s
  have dropped : ∀ x, Quiet x (dropRest m.chan.toNat m.tag (restOfMsg m) x) := fun x => quiet_outside x
  unfold endMsg
  dsimp only
  split
  · exact removed
  · exact (removed.trans ((dropped _).trans (quiet_complete _ _ _))).trans (.foldl (fun x _ => quiet_tooLate _ _ x) _ _)

theorem quiet_returnCredit (m : Msg) (s : State) : Quiet s (returnCredit m s) :=
  (Quiet.iff (s := s) _ (quiet_outside s : Quiet s (setUnclaimed _ _ s))).trans
    (.iff _ (quiet_outside _ : Quiet _ (setCredits _ _ _)))

theorem quiet_cancelMsg (status detail : Nat) (s : State) (m : Msg) : Quiet s (cancelMsg status detail s m) :=
  (quiet_returnCredit m s).trans (quiet_endMsg _ _ _ _ _ _)

theorem quiet_endHeld (w : HeldWrite) (status detail dev : Nat) (s : State) : Quiet s (endHeld w status detail dev s) :=
  (quiet_outside s).trans (quiet_complete _ _ _)

theorem quiet_stopDataPlane (s : State) : Quiet s (stopDataPlane s) :=
  (Quiet.foldl (fun x m => quiet_cancelMsg _ _ x m) _ s).trans (.foldl (fun x w => quiet_endHeld w _ _ _ x) _ _)

/-! Capture. -/

theorem quiet_densWrite (p inst : Nat) (cut : Bool) (s : State) : Quiet s (densWrite p inst cut s) := by
  unfold densWrite
  dsimp only
  split
  · exact .refl s
  · split
    · exact (quiet_count _ s).trans (.iff _ (quiet_logEvent _ _ _ _))
    · exact (quiet_emit _ s).trans (quiet_setFld _ _ (by decide))

theorem quiet_densEnd (cut : Bool) (s : State) : Quiet s (densEnd cut s) := by
  unfold densEnd
  dsimp only
  split
  · exact (Quiet.foldl (fun x p => .foldl (fun y i => quiet_densWrite p i cut y) _ x) _ s).trans (quiet_outside _)
  · exact quiet_outside s

theorem quiet_triggerStop (s : State) : Quiet s (triggerStop s) :=
  ((quiet_densEnd true s).trans (quiet_outside _)).trans (quiet_setFlag _ _ (by decide))

end Sys2Proof.Machine
end

section
/-! PROOFS. A Daxair port that leaves its state, and the board that loses it (R229, R239, R240): what both keep. -/

namespace Sys2Proof.Machine

/-! The board forms again. -/

theorem quiet_showFar (n : Nat) (s : State) : Quiet s (showFar n s) :=
  (quiet_setFld _ s (not_pwrReg_lnkA n _)).trans (quiet_setFld _ _ (not_pwrReg_lnkA n _))

theorem keepsPower_toForming (s : State) : KeepsPower s (toForming s) := by
  have step : ∀ (x : State) (n : Nat), KeepsPower x (iff (portExpected x n)
      (fun y => showFar n (setLnk n { lnkPort y n with markers := 1024 } y)) x) := fun x n =>
    .iff _ ((quiet_setLnk n _ x).trans (quiet_showFar n _)).toKeepsPower
  have measures : ∀ x, KeepsPower x (tryMeasure x) := fun x => by
    unfold tryMeasure
    split
    · exact (keepsPower_cox x).trans (.foldl step _ _)
    · exact .refl x
  unfold toForming
  split
  · exact (keepsPower_cox s).trans (measures _)
  · exact .refl s

/-! The controller halts where it waits. -/

theorem keepsPower_throttleNow (s : State) : KeepsPower s (throttleNow s) := by
  unfold throttleNow throttleStep
  split
  · exact (keepsPower_cox s).trans ((quiet_setFld _ _ (by decide)).trans
      ((quiet_setFlag _ _ (by decide)).trans (quiet_logEvent _ _ _ _))).toKeepsPower
  · exact .refl s

theorem quiet_toLoader (st : LdState) (s : State) : Quiet s (toLoader st s) := by
  have shown : ∀ x a b, Quiet x (setFld fMbxStep a (setFld fMbxPct b { x with free := x.free + 1 })) := fun x a b =>
    (quiet_outside x).trans ((quiet_setFld b _ (by decide)).trans (quiet_setFld a _ (by decide)))
  unfold toLoader showStep
  refine (quiet_outside s : Quiet s { s with ldr := { s.ldr with st := st } }).trans ?_
  dsimp only
  split
  · exact shown _ _ _
  · exact (shown _ _ _).trans (quiet_commit _ _ _ _ _)

theorem keepsPower_enterHalted (cause : Nat) (teth : Bool) (s : State) : KeepsPower s (enterHalted cause teth s) := by
  have released : ∀ x : State, KeepsPower x
      ((if flag x fHaltPins then releasePins else fun y => { y with pins := { y.pins with due := [] } }) x) := fun x => by
    split <;> exact keepsPower_cox x
  have recovers : ∀ x, Quiet x (recoverStart x) := fun x =>
    (quiet_outside x).trans (quiet_setFlag _ _ (by decide))
  unfold enterHalted
  dsimp only
  exact ((((quiet_setFld cause s (by decide)).toKeepsPower.trans (keepsPower_cox _)).trans (.iff _ (released _))).trans
    (.iff _ (recovers _).toKeepsPower)).trans ((KeepsPower.iff _ (quiet_toLoader _ _).toKeepsPower).trans
      (keepsPower_throttleNow _))

theorem keepsPower_applyMode (m : ModeSet) (s : State) : KeepsPower s (applyMode m s) := by
  have service : ∀ x, KeepsPower x (serviceEffects x) := fun x =>
    (keepsPower_cox x).trans ((quiet_triggerStop _).trans (quiet_stopDataPlane _)).toKeepsPower
  have logged : ∀ old new x, Quiet x (logMode old new x) := fun old new x =>
    (quiet_setFld _ x (by decide)).trans (quiet_logEvent _ _ _ _)
  have tethered : ∀ x : State, KeepsPower x (setFlag fThrPending false (setFlag fTclkSeen false
      { x with cox := { x.cox with throttle := none, reqs := [], raised := [], stops := [] } })) := fun x =>
    (keepsPower_cox x).trans ((quiet_setFlag _ _ (by decide)).trans (quiet_setFlag _ _ (by decide))).toKeepsPower
  have pulls : ∀ x, KeepsPower x (pullsOn x) := fun x => keepsPower_cox x
  have released : ∀ x, KeepsPower x (releasePins x) := fun x => keepsPower_cox x
  unfold applyMode
  dsimp only
  refine KeepsPower.trans ?_ (.iff _ (logged _ _ _).toKeepsPower)
  refine KeepsPower.trans ?_ (.iff _ (released _))
  refine KeepsPower.trans ?_ (.iff _ (pulls _))
  refine KeepsPower.trans ?_ (.iff _ (service _))
  refine KeepsPower.trans ?_ (.iff _ (tethered _))
  refine KeepsPower.trans ?_ (.iff _ (quiet_setFld 0 _ (by decide)).toKeepsPower)
  exact (KeepsPower.iff _ (quiet_densEnd true s).toKeepsPower).trans (keepsPower_cox _)

theorem keepsPower_haltHere (cause : Nat) (s : State) : KeepsPower s (haltHere cause s) := by
  unfold haltHere
  dsimp only
  refine KeepsPower.trans ?_ (keepsPower_enterHalted _ _ _)
  split
  · exact keepsPower_applyMode _ s
  · exact .refl s

/-! A board that loses a port. -/

theorem keepsPower_addHalt (h : HaltReq) (s : State) : KeepsPower s (addHalt h s) := by
  unfold addHalt
  split
  · exact .refl s
  · exact keepsPower_cox s

theorem keepsPower_raiseHalt (cause : Nat) (s : State) : KeepsPower s (raiseHalt cause s) := by
  unfold raiseHalt
  dsimp only
  split
  · exact (keepsPower_addHalt _ s).trans (.iff _ (quiet_emit _ _).toKeepsPower)
  · exact .refl s

theorem keepsPower_isolate (s : State) : KeepsPower s (isolate s) := by
  have isolated : ∀ m, KeepsPower s (emit (.cox 5 m) (setFlag fIsolated true (logEvent evCoxIsolated locNone 0 s))) :=
    fun m => ((quiet_logEvent _ _ _ s).trans ((quiet_setFlag _ _ (by decide)).trans (quiet_emit _ _))).toKeepsPower
  unfold isolate
  dsimp only
  split
  · split
    · exact (isolated _).trans (keepsPower_haltHere _ _)
    · exact (isolated _).trans (.iff _ (keepsPower_addHalt _ _))
  · exact .refl s

theorem quiet_setPortActive (n : Nat) (b : Bool) (s : State) : Quiet s (setPortActive n b s) :=
  quiet_setFlag b s (f := ⟨0xB008C, 8 + n, 1⟩) (show ¬ PwrReg 0xB008C by decide)

theorem keepsPower_boardLoses (n : Nat) (st : LnkState) (s : State) : KeepsPower s (boardLoses n st s) := by
  have inactive := (quiet_setPortActive n false s).toKeepsPower
  unfold boardLoses
  dsimp only
  split
  · exact inactive
  · refine KeepsPower.trans ?_ (keepsPower_isolate _)
    split
    · exact inactive.trans ((quiet_logEvent _ _ _ _).toKeepsPower.trans
        ((KeepsPower.iff _ (keepsPower_raiseHalt _ _)).trans (keepsPower_toForming _)))
    · exact inactive.trans (keepsPower_toForming _)

/-- A port that the board's shape does not expect is no loss to the board. -/
theorem quiet_boardLoses_unexpected {n : Nat} {s : State} (st : LnkState) (h : portExpected s n = false) :
    Quiet s (boardLoses n st s) := by
  simp only [boardLoses, h, Bool.false_and, Bool.not_false, if_true]
  exact quiet_setPortActive n false s

/-! A port that leaves its state, goes through reset, or leaves OFF. -/

/-- COX.BOARD_PORTS is no register of a port. -/
theorem portExpected_of_reg {s t : State} (h : reg t 0xB008C = reg s 0xB008C) (n : Nat) :
    portExpected t n = portExpected s n := by
  simp only [portExpected, fld_of_reg (s := s) (t := t) (f := fPortsExpected) h]

/-- A port that leaves its state: quiet steps, the board's loss of it at most, and quiet steps again. -/
theorem leavePort_factors (n : Nat) (st : LnkState) (cause : Nat) (s : State) :
    ∃ x y, Quiet s x ∧ portExpected x n = portExpected s n ∧ (y = x ∨ y = boardLoses n st x) ∧
      Quiet y (leavePort n st cause s) := by
  unfold leavePort
  extract_lets p was lost s1 s2 s3
  have h1 : Quiet s s1 := (quiet_setLnk n _ s).trans (quiet_setFld _ _ (not_pwrReg_lnkA n 4))
  have h2 : Quiet s1 s2 := .iff _ (quiet_count _ _)
  have h3 : Quiet s2 (iff (was && rewriting s2) (logEvent evLinkLost (locUnit n 0) st.code) s2) :=
    .iff _ (quiet_logEvent _ _ _ _)
  have r1 : reg s1 0xB008C = reg s 0xB008C := reg_setFld_ne cause _ (by simp only [fLnkCause, lnkA]; omega)
  have r2 : reg s2 0xB008C = reg s1 0xB008C := by
    simp only [s2, iff]
    split
    · exact reg_count _ _ (by decide)
    · rfl
  have r3 : reg (iff (was && rewriting s2) (logEvent evLinkLost (locUnit n 0) st.code) s2) 0xB008C = reg s2 0xB008C := by
    simp only [iff]
    split
    · exact reg_logEvent _ _ _ _ (by decide)
    · rfl
  refine ⟨_, s3, (h1.trans h2).trans h3, portExpected_of_reg ((r3.trans r2).trans r1) n, ?_, .foldl quiet_losePkt _ _⟩
  simp only [s3, iff]
  split
  · exact .inr rfl
  · exact .inl rfl

theorem keepsPower_leavePort (n : Nat) (st : LnkState) (cause : Nat) (s : State) :
    KeepsPower s (leavePort n st cause s) := by
  obtain ⟨x, y, hx, -, rfl | rfl, hy⟩ := leavePort_factors n st cause s
  · exact (hx.trans hy).toKeepsPower
  · exact (hx.toKeepsPower.trans (keepsPower_boardLoses n st x)).trans hy.toKeepsPower

theorem quiet_leavePort_unexpected {n : Nat} (st : LnkState) (cause : Nat) {s : State} (h : portExpected s n = false) :
    Quiet s (leavePort n st cause s) := by
  obtain ⟨x, y, hx, hp, rfl | rfl, hy⟩ := leavePort_factors n st cause s
  · exact hx.trans hy
  · exact (hx.trans (quiet_boardLoses_unexpected st (hp.trans h))).trans hy

theorem quiet_lnkReset (n : Nat) (s : State) : Quiet s (lnkReset n s) := by
  have kept : ∀ a, PwrReg a → (!decide (lnkA n ≤ a ∧ a < lnkA n + 0x10000)) = true := fun a ha => by
    have : a < lnkA n := by unfold lnkA; omega
    simp
    omega
  unfold lnkReset
  exact (quiet_filterRegs s (fun a => !decide (lnkA n ≤ a ∧ a < lnkA n + 0x10000)) kept).trans
    ((quiet_setLnk n _ _).trans (quiet_setFlag _ _ (not_pwrReg_lnkA n _)))

theorem quiet_leaveOff (s : State) (n : Nat) : Quiet s (leaveOff s n) := by
  unfold leaveOff
  split
  · exact (quiet_setLnk n _ s).trans (.iff _ (quiet_setFld _ _ (not_pwrReg_lnkA n 4)))
  · exact .refl s

theorem quiet_setDomLnk (n v : Nat) (s : State) : Quiet s (setFld (fDomLnk n) v s) :=
  quiet_setFld v s (show ¬ PwrReg 0x20008 by decide)

theorem keepsPower_portOff (n : Nat) (s : State) : KeepsPower s (portOff n s) := by
  unfold portOff
  refine KeepsPower.trans ?_ ((quiet_lnkReset n _).trans (quiet_setDomLnk n 3 _)).toKeepsPower
  split
  · exact .refl s
  · exact keepsPower_leavePort _ _ _ s

theorem quiet_portOff_unexpected {n : Nat} {s : State} (h : portExpected s n = false) : Quiet s (portOff n s) := by
  unfold portOff
  refine Quiet.trans ?_ ((quiet_lnkReset n _).trans (quiet_setDomLnk n 3 _))
  split
  · exact .refl s
  · exact quiet_leavePort_unexpected _ _ h

/-- A port put to retention in P2 (R462). -/
theorem quiet_portRetain (s : State) (n : Nat) : Quiet s (portRetain s n) := by
  unfold portRetain
  split
  · exact .refl s
  · split
    · exact quiet_setDomLnk n 2 s
    · rename_i h
      exact quiet_portOff_unexpected (by simp at h; exact h.1.2)

theorem quiet_wakeTo (wakes n : Nat) (s : State) : Quiet s (wakeTo wakes n s) := quiet_setLnk n _ s

theorem quiet_sleepOp (n : Nat) (s : State) : Quiet s (sleepOp n s) := by
  unfold sleepOp
  split
  · exact (quiet_setLnk n _ s).trans (quiet_setLnk n _ _)
  · exact .refl s

theorem quiet_wakeOp (n : Nat) (s : State) : Quiet s (wakeOp n s) := by
  unfold wakeOp
  dsimp only
  split
  · exact quiet_wakeTo _ n s
  · exact .refl s

/-- A link that wakes with its package (R463, R466, R470). -/
theorem keepsPower_wakeLink (s : State) (n : Nat) : KeepsPower s (wakeLink s n) := by
  unfold wakeLink
  dsimp only
  split
  · exact ((quiet_wakeOp n s).trans (quiet_setDomLnk n 0 _)).toKeepsPower
  · split
    · exact (((quiet_lnkReset n s).trans (quiet_setDomLnk n 0 _)).toKeepsPower.trans (keepsPower_boardLoses n .off _)).trans
        (quiet_leaveOff _ n).toKeepsPower
    · split
      · exact (quiet_setDomLnk n 0 s).toKeepsPower
      · exact .refl s

end Sys2Proof.Machine
end

section
/-! PROOFS. Package states (R462 to R475): what an entry, a wake and their parts change and keep. -/

namespace Sys2Proof.Machine

/-- A fold that reaches the element `d` of its list with `P`, makes it `Q` there, and keeps both elsewhere. -/
theorem foldl_at {α σ : Type} {P Q : σ → Prop} {f : σ → α → σ} {d : α} {l : List α} (nd : l.Nodup) (hd : d ∈ l)
    (before : ∀ x n, n ∈ l → n ≠ d → P x → P (f x n)) (here : ∀ x, P x → Q (f x d))
    (after : ∀ x n, n ∈ l → n ≠ d → Q x → Q (f x n)) {s : σ} (hs : P s) : Q (l.foldl f s) := by
  obtain ⟨l1, l2, rfl⟩ := List.append_of_mem hd
  have h1 : d ∉ l1 := fun h => (List.nodup_append.mp nd).2.2 d h d (by simp) rfl
  have h2 : d ∉ l2 := (List.nodup_cons.mp (List.nodup_append.mp nd).2.1).1
  rw [List.foldl_append, List.foldl_cons]
  exact l2.foldlRecOn f
    (here _ (l1.foldlRecOn f hs fun x hx n hn => before x n (by simp [hn]) (fun e => h1 (e ▸ hn)) hx))
    fun x hx n hn => after x n (by simp [hn]) (fun e => h2 (e ▸ hn)) hx

/-! A wake begins (R467, R470). -/

theorem beginWake_pwr (src : Nat) (l : Bool) (s : State) : (beginWake src l s).pwr =
    { s.pwr with waking := some (BitVec.ofNat 4 src, 0, 0, s.pwr.st == .p3 || s.pwr.lost), latched := none,
                 wakePin := s.pwr.wakePin || src != 2 && (s.hif.d3.getLsbD 0 || fld s fDomPcie == 3) } := by
  simp [beginWake]

theorem keepsDesign_beginWake (src : Nat) (l : Bool) (s : State) : KeepsDesign s (beginWake src l s) :=
  (quiet_count _ s).toKeepsDesign.trans (keepsDesign_regs _)

theorem beginWake_ldr (src : Nat) (l : Bool) (s : State) : (beginWake src l s).ldr = s.ldr := by simp [beginWake]

/-- A wake touches PWR.STATE and the log, and no other register. -/
theorem reg_beginWake (src : Nat) (l : Bool) (s : State) {a : Nat} (h : a ≠ 0x20) (h' : a ≠ 0x20000) :
    reg (beginWake src l s) a = reg s a := by
  have pwr : ∀ (x : State) (p : Pwr), reg { x with pwr := p } a = reg x a := fun _ _ => rfl
  unfold beginWake
  dsimp only
  rw [pwr, reg_setFld_ne _ _ h', reg_setFlag_ne _ _ h', reg_setFlag_ne _ _ h', reg_count _ _ h]

theorem wakeBegun_beginWake (src : BitVec 4) (s : State) : WakeBegun s (beginWake src.toNat false s) src := by
  have pwr : ∀ (x : State) (p : Pwr) (f : Fld), fld { x with pwr := p } f = fld x f := fun _ _ _ => rfl
  have design := keepsDesign_beginWake src.toNat false s
  refine ⟨by simp [beginWake_pwr], ?_, ?_, ?_, by simp [beginWake_pwr], design.cox, design.design⟩
  · unfold beginWake
    dsimp only
    rw [pwr, fld_setFld _ _ _ (by decide)]
    exact Nat.mod_eq_of_lt src.isLt
  · unfold beginWake flag setFlag
    dsimp only
    rw [pwr, fld_setFld_bits _ _ (by decide), fld_setFld_bits _ _ (by decide), fld_setFld _ _ _ (by decide)]
    rfl
  · exact (ctr_of_ctrs rfl _).trans (ctr_count 0x20080 s (by decide : 0x20080 ≠ 0x24 ∧ 0x20080 ≠ 0x700C8))

/-- A source that wakes the package from where it stands begins a wake. -/
theorem packageWake_of_mayWake {s : State} {src : Nat} (h : mayWake s src = true) (hw : wakesFrom s src = true) :
    packageWake src s = beginWake src false s := by
  simp only [mayWake, Bool.and_eq_true, Bool.not_eq_true'] at h
  obtain ⟨⟨⟨⟨he, ha⟩, hn⟩, hk⟩, -⟩ := h
  simp [packageWake, he, ha, hn, hk, hw]

/-- No source wakes a package that is up. -/
theorem packageWake_of_up {s : State} (src : Nat) (h : upState s = true) : packageWake src s = s := by
  simp only [upState, Bool.and_eq_true, Bool.not_eq_true', Bool.or_eq_true, beq_iff_eq] at h
  obtain ⟨⟨hst, hn⟩, -⟩ := h
  have hw : wakesFrom s src = false := by
    unfold wakesFrom
    rcases hst with e | e <;> rw [e]
  simp [packageWake, hn, hw]

/-- Whether a wake can begin depends on the power state and PWR.WAKE_EN alone. -/
theorem mayWake_of_keepsPower {s t : State} (h : KeepsPower s t) (src : Nat) : mayWake t src = mayWake s src := by
  simp only [mayWake, wakeEnabled, h.pwr, h.regs 0x2000C (by decide)]

theorem upState_of_pwr {s t : State} (h : t.pwr = s.pwr) : upState t = upState s := by simp only [upState, h]

/-- A wake that begins after quiet steps that leave its counter has begun before them. -/
theorem WakeBegun.of_quiet {s x t : State} {src : BitVec 4} (q : Quiet s x) (hc : ctr x 0x20080 = ctr s 0x20080)
    (h : WakeBegun x t src) : WakeBegun s t src := by
  obtain ⟨hw, hs, hf, hn, hst, hcox, hd⟩ := h
  exact ⟨q.pwr ▸ hw, hs, hf, hc ▸ hn, hst.trans (by rw [q.pwr]), hcox.trans q.cox, q.design.trans hd⟩

/-! The package state and the domains of the dies. -/

theorem setPkg_pwr (st : PkgState) (src : Nat) (s : State) : (setPkg st src s).pwr = { s.pwr with st := st } := by
  simp [setPkg]

theorem keepsDesign_setPkg (st : PkgState) (src : Nat) (s : State) : KeepsDesign s (setPkg st src s) :=
  (keepsDesign_regs s).trans (quiet_logEvent _ _ _ _).toKeepsDesign

theorem reg_setPkg (st : PkgState) (src : Nat) (s : State) {a : Nat} (h : a ≠ 0x20) (h' : a ≠ 0x20000) :
    reg (setPkg st src s) a = reg s a := by
  unfold setPkg
  dsimp only
  rw [reg_logEvent _ _ _ _ h, reg_setFld_ne _ _ h']
  rfl

/-- PWR.STATE shows the package state it came from; its other fields stand. -/
theorem fld_setPkg (st : PkgState) (src : Nat) (s : State) {f : Fld} (ha : f.a ≠ 0x20) (hb : f.lo + f.w ≤ 28) :
    fld (setPkg st src s) f = fld s f := by
  unfold setPkg
  dsimp only
  rw [fld_of_reg (reg_logEvent _ _ _ _ ha), fld_setFld_bits _ _ (.inl hb)]
  rfl

theorem keepsDesign_setDies (code : Nat) (s : State) : KeepsDesign s (setDies code s) :=
  .foldl (fun _ _ => .iff _ (keepsDesign_regs _)) _ s

theorem setDies_induction {P : State → Prop} (code : Nat) {s : State} (hs : P s)
    (step : ∀ x n, n < 4 → P x → P (setFld (fDomDie n) code (setFld (fDomStore n) code x))) : P (setDies code s) := by
  refine (List.range 4).foldlRecOn _ hs fun x hx n hn => ?_
  unfold iff
  split
  · exact step x n (List.mem_range.mp hn) hx
  · exact hx

theorem setDies_pwr (code : Nat) (s : State) : (setDies code s).pwr = s.pwr :=
  setDies_induction (P := fun x => x.pwr = s.pwr) code rfl fun _ _ _ h => h

theorem reg_setDies (code : Nat) (s : State) {a : Nat} (h : a ≠ 0x20004) : reg (setDies code s) a = reg s a :=
  setDies_induction (P := fun x => reg x a = reg s a) code rfl fun x _ _ hx =>
    (reg_setFld_ne _ _ h).trans ((reg_setFld_ne _ x h).trans hx)

/-- The dies' domains lie in bits 2 to 17 of PWR.DOM0. -/
theorem fld_setDies_other (code : Nat) (s : State) {f : Fld} (h : 18 ≤ f.lo) : fld (setDies code s) f = fld s f :=
  setDies_induction (P := fun x => fld x f = fld s f) code rfl fun x n hn hx => by
    rw [fld_setFld_bits _ _ (.inr (by simp only [fDomDie]; omega)),
      fld_setFld_bits _ _ (.inr (by simp only [fDomStore]; omega)), hx]

theorem fld_domDie_setFld_domStore (d n v : Nat) (s : State) (hn : n < 4) :
    fld (setFld (fDomStore n) v s) (fDomDie d) = fld s (fDomDie d) :=
  fld_setFld_bits _ _ (.inr (by simp only [fDomDie, fDomStore]; omega))

theorem fld_domStore_setFld_domDie (d n v : Nat) (s : State) (hd : d < 4) :
    fld (setFld (fDomDie n) v s) (fDomStore d) = fld s (fDomStore d) :=
  fld_setFld_bits _ _ (.inl (by simp only [fDomDie, fDomStore]; omega))

theorem fld_domDie_setFld_domDie {d n : Nat} (v : Nat) (s : State) (h : n ≠ d) :
    fld (setFld (fDomDie n) v s) (fDomDie d) = fld s (fDomDie d) :=
  fld_setFld_bits _ _ (by simp only [fDomDie]; omega)

theorem fld_domStore_setFld_domStore {d n : Nat} (v : Nat) (s : State) (h : n ≠ d) :
    fld (setFld (fDomStore n) v s) (fDomStore d) = fld s (fDomStore d) :=
  fld_setFld_bits _ _ (by simp only [fDomStore]; omega)

/-- A die whose domains go to `v` shows it in both. -/
theorem fld_die_both (d v : Nat) (s : State) (hd : d < 4) (hv : v < 4) :
    fld (setFld (fDomDie d) v (setFld (fDomStore d) v s)) (fDomDie d) = v ∧
      fld (setFld (fDomDie d) v (setFld (fDomStore d) v s)) (fDomStore d) = v := by
  have fits : ∀ (f : Fld) (x : State), f.w = 2 → f.lo + 2 ≤ 32 → fld (setFld f v x) f = v := fun f x hw hl => by
    rw [fld_setFld f v x (by omega), hw]
    exact Nat.mod_eq_of_lt hv
  refine ⟨fits _ _ rfl (by simp only [fDomDie]; omega), ?_⟩
  rw [fld_domStore_setFld_domDie _ _ _ _ hd]
  exact fits _ _ rfl (by simp only [fDomStore]; omega)

/-- DIE and STORE of a die that is neither held off nor off take the code (R461). -/
theorem fld_setDies {code : Nat} (hc : code < 4) {s : State} {d : Nat} (hd : d < 4)
    (hoff : s.pwr.dieOff.getLsbD d = false) (hf : fld s (fDomDie d) ≠ 3) :
    fld (setDies code s) (fDomDie d) = code ∧ fld (setDies code s) (fDomStore d) = code := by
  have other : ∀ x n, n < 4 → n ≠ d → ∀ f ∈ [fDomDie d, fDomStore d],
      fld (setFld (fDomDie n) code (setFld (fDomStore n) code x)) f = fld x f := fun x n hn hne f hf => by
    obtain rfl | rfl : f = fDomDie d ∨ f = fDomStore d := by simpa using hf
    · rw [fld_domDie_setFld_domDie _ _ hne, fld_domDie_setFld_domStore _ _ _ _ hn]
    · rw [fld_domStore_setFld_domDie _ _ _ _ hd, fld_domStore_setFld_domStore _ _ hne]
  refine foldl_at (P := fun x => x.pwr = s.pwr ∧ fld x (fDomDie d) = fld s (fDomDie d))
    (Q := fun x => fld x (fDomDie d) = code ∧ fld x (fDomStore d) = code) List.nodup_range (List.mem_range.mpr hd)
    ?_ ?_ ?_ ⟨rfl, rfl⟩
  · rintro x n hn hne ⟨hp, hx⟩
    unfold iff
    split
    · exact ⟨hp, (other x n (List.mem_range.mp hn) hne _ (by simp)).trans hx⟩
    · exact ⟨hp, hx⟩
  · rintro x ⟨hp, hx⟩
    have acts : (!x.pwr.dieOff.getLsbD d && fld x (fDomDie d) != 3) = true := by
      rw [hp, hx, hoff]
      simpa using hf
    rw [iff, acts, if_pos rfl]
    exact fld_die_both d code x hd hc
  · rintro x n hn hne ⟨hx, hy⟩
    unfold iff
    split
    · exact ⟨(other x n (List.mem_range.mp hn) hne _ (by simp)).trans hx,
        (other x n (List.mem_range.mp hn) hne _ (by simp)).trans hy⟩
    · exact ⟨hx, hy⟩

end Sys2Proof.Machine
end

section
/-! PROOFS. The entry to a package state (R462 to R466, R475). -/

namespace Sys2Proof.Machine

/-! The Keeper sleeps, and the sink is flushed (R451). -/

theorem quiet_flushNow (s : State) : Quiet s (flushNow s) := by
  unfold flushNow
  split
  · exact quiet_setFlag _ s (by decide)
  · exact quiet_outside s

theorem keepsDesign_keeperDown (s : State) : KeepsDesign s (keeperDown s) :=
  ((quiet_commit _ _ _ _ s).toKeepsDesign.trans (keepsDesign_regs _)).trans (quiet_flushNow _).toKeepsDesign

theorem quiet_putPacket (p : TracePacket) (s : State) : Quiet s (putPacket p s) := by
  have ring : ∀ ws, Quiet s (ringWrite ws s) := fun ws =>
    (quiet_outside s).trans ((quiet_setFld _ _ (by decide)).trans (.iff _ (quiet_setFlag _ _ (by decide))))
  have host : ∀ ws, Quiet s (hostRingWrite ws s) := fun ws => by
    unfold hostRingWrite
    dsimp only
    refine Quiet.trans ?_ (quiet_setReg _ _ (by decide))
    split
    · exact quiet_emit _ s
    · exact (quiet_emit _ s).trans (quiet_emit _ _)
  unfold putPacket
  dsimp only
  split
  · exact (quiet_outside s).trans ((quiet_count _ _).trans (.iff _ (quiet_setFlag _ _ (by decide))))
  · refine Quiet.trans ?_ (quiet_outside _)
    refine Quiet.trans ?_ (quiet_countN _ _ _)
    split
    · exact host _
    · exact ring _

theorem quiet_sinkWrite (s : State) : Quiet s (sinkWrite false s) := by
  have stepped : ∀ x, Quiet x (flushStep x) := fun x => by
    unfold flushStep
    split
    · split
      · exact (quiet_outside x).trans (quiet_setFlag _ _ (by decide))
      · exact quiet_outside x
    · exact .refl x
  unfold sinkWrite
  split
  · exact .refl s
  · rw [Bool.false_and, if_neg (by decide)]
    exact ((quiet_outside s).trans (.iff _ (quiet_putPacket _ _))).trans (stepped _)

theorem quiet_flushAll (k : Nat) (s : State) : Quiet s (flushAll k s) := by
  induction k generalizing s with
  | zero => exact .refl s
  | succ k ih =>
    unfold flushAll
    split
    · exact .refl s
    · exact (quiet_sinkWrite s).trans (ih _)

/-! The domains of P2 (R462). -/

/-- The registers of a pavilion stand apart from those of PWR. -/
theorem not_pwrReg_pavA (p o : Nat) : ¬ PwrReg (pavA p + o) := by
  simp only [PwrReg, pavA]
  omega

/-- The banks that go to retention are registers of their pavilions. -/
theorem banksRetain_keeps (s : State) :
    KeepsDesign s (banksRetain s) ∧ ∀ a, PwrReg a → reg (banksRetain s) a = reg s a := by
  have bank : ∀ (y : State) (p b st : Nat), Quiet y (setBank p b st y) := fun y p b st =>
    quiet_setFld st y (f := ⟨pavA p + 0x620 + 4 * (b / 16), _, _⟩) (by rw [Nat.add_assoc]; exact not_pwrReg_pavA p _)
  refine List.foldlRecOn (motive := fun x => KeepsDesign s x ∧ ∀ a, PwrReg a → reg x a = reg s a) _ _
    ⟨keepsDesign_regs s, fun _ _ => rfl⟩ ?_
  rintro x ⟨hd, hr⟩ p -
  split
  · have q := Quiet.foldl (fun (y : State) b => .iff (bankState y p b == 0) (bank y p b 1)) (List.range 64)
      { x with pwr := { x.pwr with kept := upd 0 x.pwr.kept p (onBanks x p) } }
    exact ⟨(hd.trans (keepsDesign_regs x)).trans q.toKeepsDesign, fun a ha => (q.regs a ha).trans (hr a ha)⟩
  · exact ⟨hd, hr⟩

/-- What the package's other registers and its design keep as the domains go to P2, and the codes of DMEM and IOD. -/
theorem domainsP2_spec (s : State) : KeepsDesign s (domainsP2 s) ∧
    (∀ a, PwrReg a → a ≠ 0x20004 → reg (domainsP2 s) a = reg s a) ∧
    fld (domainsP2 s) fDomDmem = 2 ∧ fld (domainsP2 s) fDomIod = 2 := by
  unfold domainsP2
  extract_lets s1
  have net : ∀ (x : State) (n : Nat), n < 4 → ∀ y, y = iff (fld x (fDomNet n) != 3) (setFld (fDomNet n) 2) x →
      KeepsDesign x y ∧ (∀ a, a ≠ 0x20004 → reg y a = reg x a) ∧ fld y fDomDmem = fld x fDomDmem := by
    rintro x n hn y rfl
    unfold iff
    split
    · exact ⟨keepsDesign_regs x, fun a ha => reg_setFld_ne _ x ha,
        fld_setFld_bits _ _ (.inr (by simp only [fDomNet, fDomDmem]; omega))⟩
    · exact ⟨.refl x, fun _ _ => rfl, rfl⟩
  have h1 : KeepsDesign s s1 ∧ (∀ a, PwrReg a → a ≠ 0x20004 → reg s1 a = reg s a) ∧ fld s1 fDomDmem = 2 := by
    obtain ⟨bd, br⟩ := banksRetain_keeps (setFld fDomDmem 2 s)
    have base : KeepsDesign s (setDies 2 (banksRetain (setFld fDomDmem 2 s))) :=
      ((keepsDesign_setFld _ _ s).trans bd).trans (keepsDesign_setDies 2 _)
    refine List.foldlRecOn (motive := fun x => KeepsDesign s x ∧ (∀ a, PwrReg a → a ≠ 0x20004 → reg x a = reg s a) ∧
      fld x fDomDmem = 2) _ _ ⟨base, fun a ha hne => ?_, ?_⟩ ?_
    · rw [reg_setDies _ _ hne, br a ha, reg_setFld_ne _ _ hne]
    · rw [fld_setDies_other _ _ (by decide), fld_of_reg (br _ (by decide)), fld_setFld _ _ _ (by decide)]
      rfl
    · rintro x ⟨hd, hr, hf⟩ n hn
      obtain ⟨kd, kr, kf⟩ := net x n (List.mem_range.mp hn) _ rfl
      exact ⟨hd.trans kd, fun a ha hne => (kr a hne).trans (hr a ha hne), kf.trans hf⟩
  obtain ⟨hd, hr, hf⟩ := h1
  have q := Quiet.foldl quiet_portRetain (List.range 8) s1
  refine ⟨(hd.trans q.toKeepsDesign).trans (keepsDesign_setFld _ _ _), fun a ha hne => ?_, ?_, ?_⟩
  · rw [reg_setFld_ne _ _ hne, q.regs a ha, hr a ha hne]
  · rw [fld_setFld_bits _ _ (by decide), q.fld _ (by decide), hf]
  · rw [fld_setFld _ _ _ (by decide)]
    rfl

/-! The package enters its state (R466). -/

/-- The package has entered the state `e` names, as R462 and R463 have it, from state `s`. -/
structure Entered (e : Entry) (s t : State) : Prop where
  st : t.pwr.st = e.target
  entry : t.pwr.entry = none
  entering : t.pwr.entering = false
  asleep : t.pwr.asleep = true
  p2 : e.target = .p2 → fld t fDomDmem = 2 ∧ fld t fDomIod = 2 ∧ t.pins.padLev = s.pins.drv ∧ t.pins.padOn = s.pins.drvOn ∧
    fld t fPadLatched = 0xFFFF ∧ t.cox = s.cox ∧ SameDesign s t
  p3 : e.target = .p3 → t.pwr.boot = .supply ∧ t.bank = [] ∧ t.deep = [] ∧ t.slots = [] ∧ t.ldr.image = none ∧
    t.cox.st = .noImage ∧ t.fuses = s.fuses ∧ t.pins.drvOn = 0

/-- A source latched during the entry begins its wake, or is forgotten; the package has entered its state all the same
(R472). -/
theorem Entered.beginWake {e : Entry} {s x : State} (h : Entered e s x) (src : Nat) (l : Bool) :
    Entered e s (beginWake src l x) := by
  have k := keepsDesign_beginWake src l x
  have f : ∀ g : Fld, g.a ≠ 0x20 → g.a ≠ 0x20000 → fld (Machine.beginWake src l x) g = fld x g := fun g h1 h2 =>
    fld_of_reg (reg_beginWake src l x h1 h2)
  obtain ⟨hst, hen, hing, hsl, h2, h3⟩ := h
  refine ⟨by simp [beginWake_pwr, hst], by simp [beginWake_pwr, hen], by simp [beginWake_pwr, hing],
    by simp [beginWake_pwr, hsl], fun he => ?_, fun he => ?_⟩
  · obtain ⟨hd, hi, hl, ho, hp, hc, hs⟩ := h2 he
    exact ⟨(f _ (by decide) (by decide)).trans hd, (f _ (by decide) (by decide)).trans hi, k.pins ▸ hl, k.pins ▸ ho,
      (f _ (by decide) (by decide)).trans hp, k.cox.trans hc, hs.trans k.design⟩
  · obtain ⟨hb, hbank, hdeep, hslots, himg, hc, hf, ho⟩ := h3 he
    obtain ⟨kb, kd, ks, -⟩ := k.design
    exact ⟨by simp [beginWake_pwr, hb], kb.trans hbank, kd.trans hdeep, ks.trans hslots,
      (beginWake_ldr src l x ▸ himg :), k.cox ▸ hc, k.fuses.trans hf, k.pins ▸ ho⟩

/-- The levels of the target banks are latched (R475). -/
theorem latchPads_pads (s : State) : (latchPads s).pins.padLev = s.pins.drv ∧ (latchPads s).pins.padOn = s.pins.drvOn ∧
    fld (latchPads s) fPadLatched = 0xFFFF ∧ (latchPads s).cox = s.cox ∧ SameDesign s (latchPads s) :=
  ⟨rfl, rfl, fld_setFld _ _ _ (by decide), rfl, rfl, rfl, rfl, rfl, rfl, rfl, rfl, rfl, rfl, rfl, rfl⟩

/-- Everything but AON, the fuses and the flash is lost as the package goes to P3 (R463). -/
theorem domainsP3_loseState (s : State) : (domainsP3 (loseState s)).bank = [] ∧ (domainsP3 (loseState s)).deep = [] ∧
    (domainsP3 (loseState s)).slots = [] ∧ (domainsP3 (loseState s)).ldr.image = none ∧
    (domainsP3 (loseState s)).cox.st = .noImage ∧ (domainsP3 (loseState s)).fuses = s.fuses ∧
    (domainsP3 (loseState s)).pins.drvOn = 0 :=
  ⟨rfl, rfl, rfl, rfl, rfl, rfl, rfl⟩

theorem latchPads_pinsOff_fuses (s : State) : (latchPads (pinsOff s)).fuses = s.fuses := rfl

/-- An entry ends in the state that it names. -/
theorem entered_finishEntry (e : Entry) (s : State) : Entered e s (finishEntry e s) := by
  unfold finishEntry
  extract_lets old s1 s2 s3 s4 s5 s6 pwr6 s7
  have k3 : KeepsDesign s s3 :=
    ((quiet_logEvent _ _ _ s).toKeepsDesign.trans (keepsDesign_keeperDown s1)).trans (quiet_flushAll _ s2).toKeepsDesign
  have k6 : KeepsDesign s5 s6 := (KeepsDesign.iff _ (keepsDesign_setFld _ _ s5)).trans (keepsDesign_setFld _ _ _)
  have k7 : KeepsDesign s5 s7 := k6.trans (keepsDesign_regs s6)
  have l7 : s7.ldr = s6.ldr := rfl
  have r7 : ∀ f : Fld, f.a ≠ 0x20000 → fld s7 f = fld s5 f := fun f hf => by
    have r6 : fld s6 f = fld s5 f := by
      rw [show fld s6 f = fld (iff (e.target == .p2) (setFlag fPwrResume e.resume) s5) f from fld_setFld_reg _ _ hf]
      unfold iff
      split
      · exact fld_setFld_reg _ _ hf
      · rfl
    exact r6
  have h7 : Entered e s s7 := by
    refine ⟨rfl, rfl, rfl, rfl, fun he => ?_, fun he => ?_⟩
    · have e4 : s4 = latchPads s3 := by simp [s4, he]
      have e5 : s5 = domainsP2 s4 := by simp [s5, he]
      obtain ⟨hl, ho, hp, hc, hs⟩ := latchPads_pads s3
      obtain ⟨kd, kr, km, ki⟩ := domainsP2_spec s4
      rw [← e5] at kd kr km ki
      rw [← e4] at hl ho hp hc hs
      have kp : s7.pins = s4.pins := k7.pins.trans kd.pins
      refine ⟨(r7 _ (by decide)).trans km, (r7 _ (by decide)).trans ki, ?_, ?_, ?_, ?_, ?_⟩
      · rw [kp, hl, k3.pins]
      · rw [kp, ho, k3.pins]
      · rw [r7 _ (by decide), fld_of_reg (kr _ (by decide) (by decide)), hp]
      · rw [k7.cox, kd.cox, hc, k3.cox]
      · exact ((k3.design.trans hs).trans kd.design).trans k7.design
    · have e4 : s4 = latchPads (pinsOff s3) := by simp [s4, he]
      have e5 : s5 = domainsP3 (loseState s4) := by simp [s5, he]
      have boot : s7.pwr.boot = .supply := by simp [s7, he]
      have l6 : s6.ldr = s5.ldr := by simp [s6, iff, he]
      clear_value s7 s6 s5 s4 s3
      obtain ⟨kb, kd, ks, -⟩ := k7.design
      obtain ⟨hb, hd, hs, hi, hc, hf, ho⟩ := domainsP3_loseState s4
      rw [← e5] at hb hd hs hi hc hf ho
      exact ⟨boot, kb.trans hb, kd.trans hd, ks.trans hs, l7 ▸ l6 ▸ hi, k7.cox ▸ hc,
        k7.fuses.trans (hf.trans (e4 ▸ (latchPads_pinsOff_fuses s3).trans k3.fuses)), k7.pins ▸ ho⟩
  split
  · split
    · exact h7.beginWake _ _
    · exact ⟨h7.st, h7.entry, h7.entering, h7.asleep, h7.p2, h7.p3⟩
  · exact h7

/-- An entry to P2 or P3 waits for its links, or has ended (R466). -/
theorem startEntry_waits_or_ends {s : State} {e : Entry} (he : s.pwr.entry = some e) (hp : e.target ≠ .p1) :
    (startEntry e s).pwr.entering = true ∧ (startEntry e s).pwr.entry = some e ∨
      (startEntry e s).pwr.st = e.target ∧ (startEntry e s).pwr.entry = none := by
  unfold startEntry
  rw [if_neg (by simpa using hp)]
  extract_lets pwr s1 s2
  have k : KeepsPower s1 s2 := .foldl (fun x n => by
    split
    · exact (quiet_sleepOp n x).toKeepsPower
    · exact keepsPower_portOff n x) _ s1
  split
  · have h := entered_finishEntry e s2
    exact .inr ⟨h.st, h.entry⟩
  · exact .inl ⟨by rw [k.pwr], by rw [k.pwr]; exact he⟩

/-- An entry to P1 (R462, R466): the dies are gated, and the design stands. -/
theorem startEntry_p1 {e : Entry} (s : State) (he : e.target = .p1) : (startEntry e s).pwr.st = .p1 ∧
    (startEntry e s).pwr.entry = none ∧ KeepsDesign s (startEntry e s) ∧
    ∀ d, d < 4 → s.pwr.dieOff.getLsbD d = false → fld s (fDomDie d) ≠ 3 →
      fld (startEntry e s) (fDomDie d) = 1 ∧ fld (startEntry e s) (fDomStore d) = 1 := by
  have eq : startEntry e s = setPkg .p1 0 (setDies 1 { s with pwr := { s.pwr with entry := none } }) := by
    simp [startEntry, he]
  rw [eq]
  refine ⟨by simp [setPkg_pwr], by simp [setPkg_pwr, setDies_pwr], ?_, fun d hd hoff hf => ?_⟩
  · exact ((keepsDesign_regs s).trans (keepsDesign_setDies 1 _)).trans (keepsDesign_setPkg _ _ _)
  · obtain ⟨h1, h2⟩ := fld_setDies (code := 1) (by decide) (s := { s with pwr := { s.pwr with entry := none } }) hd hoff hf
    rw [fld_setPkg _ _ _ (by simp [fDomDie]) (by simp only [fDomDie]; omega),
      fld_setPkg _ _ _ (by simp [fDomStore]) (by simp only [fDomStore]; omega)]
    exact ⟨h1, h2⟩

end Sys2Proof.Machine
end

section
/-! PROOFS. The wake of a package and of a die (R470 to R475). -/

namespace Sys2Proof.Machine

/-! Answers. -/

theorem whenever_true {c : Bool} (s t : State) (h : c = true) : whenever c s t = .next t := by simp [whenever, h]

theorem whenever_false {c : Bool} (s t : State) (h : c = false) : whenever c s t = .next s := by simp [whenever, h]

theorem Answers.of_next {c : Instr} {s t : State} {P : State → Prop} (h : exec c s = .next t) (hp : P t) :
    Answers c s P := ⟨t, h, hp⟩

/-! IOD is ready (R469, R470). -/

theorem keeperUp_spec (s : State) : KeepsDesign s (keeperUp s) ∧ (∀ a, PwrReg a → reg (keeperUp s) a = reg s a) ∧
    (keeperUp s).pwr.sclHeld = s.pwr.sclHeld := by
  unfold keeperUp
  dsimp only
  split
  · refine ⟨(keepsDesign_regs s).trans ((quiet_commit _ _ _ _ _).trans (quiet_commit _ _ _ _ _)).toKeepsDesign,
      fun a _ => by rw [reg_commit, reg_commit]; rfl, by simp⟩
  · exact ⟨.refl s, fun _ _ => rfl, rfl⟩

theorem iodReady_spec (p3 : Bool) (s : State) : fld (iodReady p3 s) fDomIod = 0 ∧ fld (iodReady p3 s) fDomPcie = 0 ∧
    (iodReady p3 s).pwr.sclHeld = false ∧ (p3 = true → (iodReady p3 s).pwr.boot = .selfTest) ∧
    KeepsDesign s (iodReady p3 s) := by
  unfold iodReady
  extract_lets s1 s2 leafed pwr2 s3
  have f1 : fld s1 fDomIod = 0 ∧ fld s1 fDomPcie = 0 :=
    ⟨fld_setFld _ _ _ (by decide), (fld_setFld_bits _ _ (by decide)).trans (fld_setFld _ _ _ (by decide))⟩
  have h2 : KeepsDesign s s2 ∧ (∀ a, reg s2 a = reg s1 a) ∧ s2.pwr.sclHeld = false := by
    have k1 : KeepsDesign s s1 := keepsDesign_regs s
    simp only [s2, iff]
    split
    · exact ⟨k1.trans ((keepsDesign_regs s1).trans (quiet_emit _ _).toKeepsDesign), fun _ => rfl, rfl⟩
    · rename_i h
      exact ⟨k1, fun _ => rfl, by simpa using h⟩
  obtain ⟨k2, r2, c2⟩ := h2
  have h3 : KeepsDesign s2 s3 ∧ (∀ a, PwrReg a → reg s3 a = reg s2 a) ∧ s3.pwr.sclHeld = s2.pwr.sclHeld ∧
      (p3 = true → s3.pwr.boot = .selfTest) := by
    simp only [s3]
    cases p3
    · obtain ⟨hd, hr, hc⟩ := keeperUp_spec s2
      exact ⟨hd, hr, hc, fun h => by cases h⟩
    · have leaf : Quiet s2 (startLeaf 0 s2) := quiet_setReg _ s2 (by decide)
      exact ⟨leaf.toKeepsDesign.trans ((keepsDesign_regs _).trans
        (quiet_outside { startLeaf 0 s2 with pwr := { s2.pwr with boot := .selfTest, asleep := false } }).toKeepsDesign),
        leaf.regs, rfl, fun _ => rfl⟩
  obtain ⟨k3, r3, c3, b3⟩ := h3
  have h4 : ∀ t, t = iff s3.pwr.lateLog
      (fun x => logEvent evSmbusWakeLate locNone 0 { x with pwr := { x.pwr with lateLog := false } }) s3 →
      KeepsDesign s3 t ∧ (∀ a, PwrReg a → reg t a = reg s3 a) ∧ t.pwr.sclHeld = s3.pwr.sclHeld ∧ t.pwr.boot = s3.pwr.boot := by
    rintro t rfl
    unfold iff
    split
    · refine ⟨(keepsDesign_regs s3).trans (quiet_logEvent _ _ _ _).toKeepsDesign, fun a ha => ?_, by simp, by simp⟩
      exact ((quiet_logEvent _ _ _ _).regs a ha).trans rfl
    · exact ⟨.refl s3, fun _ _ => rfl, rfl, rfl⟩
  obtain ⟨k4, r4, c4, b4⟩ := h4 _ rfl
  have regs : ∀ f : Fld, f.a = 0x20004 → fld (iff s3.pwr.lateLog
      (fun x => logEvent evSmbusWakeLate locNone 0 { x with pwr := { x.pwr with lateLog := false } }) s3) f = fld s1 f :=
    fun f hf => fld_of_reg (by rw [hf, r4 _ (by decide), r3 _ (by decide), r2])
  exact ⟨(regs _ rfl).trans f1.1, (regs _ rfl).trans f1.2, c4.trans (c3.trans c2), fun h => b4.trans (b3 h),
    (k2.trans k3).trans k4⟩

/-! The steps of PWR.SEQ (R470). -/

theorem stepOn_store {d : Nat} (h : d < 4) (s : State) : stepOn d s = setFld (fDomStore d) 0 s := by
  have h1 : d / 4 = 0 := by omega
  have h2 : d % 4 = d := by omega
  simp [stepOn, h1, h2]

theorem stepOn_die {d : Nat} (h : d < 4) (s : State) :
    stepOn (d + 4) s = setFld (fDomDie d) 0 (iff (fld s (fDomDie d) == 3) (dieReset d) s) := by
  have h1 : (d + 4) / 4 = 1 := by omega
  have h2 : (d + 4) % 4 = d := by omega
  simp [stepOn, h1, h2]

theorem stepOn_net {d : Nat} (h : d < 4) (s : State) :
    stepOn (d + 8) s = setFld (fDomNet d) 0 (iff (fld s (fDomNet d) == 3) (netReset d) s) := by
  have h1 : (d + 8) / 4 = 2 := by omega
  have h2 : (d + 8) % 4 = d := by omega
  simp [stepOn, h1, h2]

theorem stepOn_banks {d : Nat} (h : d < 4) (s : State) : stepOn (d + 12) s = setKept d 0 s := by
  have h1 : (d + 12) / 4 = 3 := by omega
  have h2 : (d + 12) % 4 = d := by omega
  simp [stepOn, h1, h2]

/-- A counter of a die's network reads 0 once NET has been reset (R8). -/
theorem ctr_netReset (d : Nat) (s : State) {a : Nat} (h : netReg d a = true) : ctr (netReset d s) a = 0 := by
  have hk : look 0 (netReset d s).ctrs a = 0 := by
    rw [show (netReset d s).ctrs = s.ctrs.filter fun e => !netReg d e.1 from rfl,
      look_filter 0 s.ctrs (fun k => !netReg d k), if_neg (by simp [h])]
  rw [ctr, hk]
  rfl

theorem netReg_counter {d p : Nat} (h : p ∈ pavsOfDie d) : netReg d (pavA p + 0x510) = true := by
  simp only [netReg, List.any_eq_true, decide_eq_true_eq]
  exact ⟨p, h, by omega⟩

/-- What the step that turns a domain of PWR.SEQ on changes: the registers of a domain that was off go to reset (R8). -/
structure SeqStep (k : Nat) (s t : State) : Prop where
  on : fld t (seqFld k) = 0
  only : t = { s with regs := t.regs, ctrs := t.ctrs, snaps := t.snaps }
  kept : fld s (seqFld k) ≠ 3 → t.ctrs = s.ctrs ∧ t.snaps = s.snaps ∧ RegsBut [0x20004] s t
  reset : 9 ≤ k → fld s (seqFld k) = 3 → ∀ p ∈ pavsOfDie (k - 9), ctr t (pavA p + 0x510) = 0

/-- A domain goes on, after its reset if it was off. -/
theorem SeqStep.of_reset {k : Nat} {f : Fld} {r : State → State} {s : State} (hf : seqFld k = f) (ha : f.a = 0x20004)
    (hl : f.lo + f.w ≤ 32) (hr : r s = { s with regs := (r s).regs, ctrs := (r s).ctrs, snaps := (r s).snaps })
    (hc : 9 ≤ k → ∀ p ∈ pavsOfDie (k - 9), ctr (r s) (pavA p + 0x510) = 0) :
    SeqStep k s (setFld f 0 (iff (fld s f == 3) r s)) := by
  subst hf
  refine ⟨(fld_setFld _ _ _ hl).trans (Nat.zero_mod _), ?_, fun hne => ?_, fun hk he p hp => ?_⟩
  · unfold iff
    split
    · rw [hr]
      rfl
    · rfl
  · rw [iff, if_neg (by simpa using hne)]
    exact ⟨rfl, rfl, fun a h => reg_setFld_ne _ s (by simpa [ha] using h)⟩
  · rw [iff, if_pos (by simpa using he)]
    exact (ctr_of_ctrs rfl _).trans (hc hk p hp)

theorem seqStep_stepOn {k : Nat} (s : State) (h1 : 1 ≤ k) (h12 : k ≤ 12) : SeqStep k s (stepOn (k - 1) s) := by
  have split : (∃ d, d < 4 ∧ k = d + 1) ∨ (∃ d, d < 4 ∧ k = d + 5) ∨ ∃ d, d < 4 ∧ k = d + 9 := by
    by_cases h4 : k ≤ 4
    · exact .inl ⟨k - 1, by omega, by omega⟩
    · by_cases h8 : k ≤ 8
      · exact .inr (.inl ⟨k - 5, by omega, by omega⟩)
      · exact .inr (.inr ⟨k - 9, by omega, by omega⟩)
  rcases split with ⟨d, hd, rfl⟩ | ⟨d, hd, rfl⟩ | ⟨d, hd, rfl⟩
  · have e : seqFld (d + 1) = fDomStore d := by simp [seqFld, show d + 1 ≤ 4 by omega]
    have same : setFld (fDomStore d) 0 s = setFld (fDomStore d) 0 (iff (fld s (fDomStore d) == 3) id s) := by
      unfold iff; split <;> rfl
    rw [show d + 1 - 1 = d from rfl, stepOn_store hd, same]
    exact .of_reset e rfl (by simp only [fDomStore]; omega) rfl (fun h => by omega)
  · have e : seqFld (d + 5) = fDomDie d := by simp [seqFld, show d + 5 ≤ 8 by omega]
    rw [show d + 5 - 1 = d + 4 from rfl, stepOn_die hd]
    exact .of_reset e rfl (by simp only [fDomDie]; omega) rfl (fun h => by omega)
  · have e : seqFld (d + 9) = fDomNet d := by simp [seqFld]
    rw [show d + 9 - 1 = d + 8 from rfl, stepOn_net hd]
    exact .of_reset e rfl (by simp only [fDomNet]; omega) rfl fun _ p hp => ctr_netReset d s (netReg_counter hp)

/-! Banks in retention (R462, R474). -/

theorem pavsOfDie_nodup (d : Nat) : (pavsOfDie d).Nodup := List.nodup_range.filter _

/-- A bank's state after that of one bank has been set. -/
theorem bankState_setBank {p b q c : Nat} (st : Nat) (s : State) (hb : b < 64) (hc : c < 64) :
    bankState (setBank q c st s) p b = if p = q ∧ b = c then st % 4 else bankState s p b := by
  split
  · rename_i h
    obtain ⟨rfl, rfl⟩ := h
    exact fld_setFld _ _ _ (by simp only; omega)
  · rename_i h
    by_cases ha : pavA p + 0x620 + 4 * (b / 16) = pavA q + 0x620 + 4 * (c / 16)
    · exact fld_setFld_bits _ _ (by simp only [pavA] at ha ⊢; omega)
    · exact fld_setFld_reg _ _ ha

/-- Only registers differ. -/
abbrev OnlyRegs (s t : State) : Prop := t = { s with regs := t.regs }

theorem OnlyRegs.setFld {s x : State} (h : OnlyRegs s x) (f : Fld) (v : Nat) : OnlyRegs s (setFld f v x) := by
  rw [OnlyRegs, Machine.setFld, setReg, h]

theorem OnlyRegs.iff {s x : State} {f : State → State} (c : Bool) (h : OnlyRegs s x) (hf : OnlyRegs s (f x)) :
    OnlyRegs s (iff c f x) := by
  cases c
  · exact h
  · exact hf

theorem bankKept_of_onlyRegs {s x : State} (h : OnlyRegs s x) (p b : Nat) :
    bankKept x p b = (enabled s p && (look 0 s.pwr.kept p).getLsbD b && bankState x p b == 1) := by
  have e : enabled x p = enabled s p := by rw [h]; rfl
  have k : x.pwr = s.pwr := by rw [h]
  rw [bankKept, e, k]

/-- The kept banks of a die take a state, and nothing else changes. -/
theorem setKept_spec (d st : Nat) (s : State) : OnlyRegs s (setKept d st s) ∧ ∀ p ∈ pavsOfDie d, ∀ b, b < 64 →
    bankState (setKept d st s) p b = if bankKept s p b then st % 4 else bankState s p b := by
  have regs : ∀ x, OnlyRegs s x → ∀ q c, OnlyRegs s (iff (bankKept x q c) (setBank q c st) x) := fun x hx q c =>
    hx.iff _ (hx.setFld _ _)
  have row : ∀ x, OnlyRegs s x → ∀ q,
      OnlyRegs s ((List.range 64).foldl (fun y c => iff (bankKept y q c) (setBank q c st) y) x) := fun x hx q =>
    List.foldlRecOn _ _ hx fun y hy c _ => regs y hy q c
  refine ⟨List.foldlRecOn _ _ (rfl : OnlyRegs s s) fun x hx q _ => row x hx q, fun p hp b hb => ?_⟩
  have elsewhere : ∀ (x : State) q c v, c < 64 → (q ≠ p ∨ c ≠ b) → bankState x p b = v →
      bankState (iff (bankKept x q c) (setBank q c st) x) p b = v := fun x q c v hc hne hx => by
    unfold iff
    split
    · rw [bankState_setBank st x hb hc, if_neg (by rintro ⟨rfl, rfl⟩; simp at hne), hx]
    · exact hx
  have inRow : ∀ x, OnlyRegs s x ∧ bankState x p b = bankState s p b →
      OnlyRegs s ((List.range 64).foldl (fun y c => iff (bankKept y p c) (setBank p c st) y) x) ∧
      bankState ((List.range 64).foldl (fun y c => iff (bankKept y p c) (setBank p c st) y) x) p b =
        if bankKept s p b then st % 4 else bankState s p b := fun x hx =>
    foldl_at (P := fun x => OnlyRegs s x ∧ bankState x p b = bankState s p b)
      (Q := fun x => OnlyRegs s x ∧ bankState x p b = if bankKept s p b then st % 4 else bankState s p b)
      List.nodup_range (List.mem_range.mpr hb)
      (fun y c hc hne hy => ⟨regs y hy.1 p c, elsewhere y p c _ (List.mem_range.mp hc) (.inr hne) hy.2⟩)
      (fun y hy => ⟨regs y hy.1 p b, by
        have hk : bankKept y p b = bankKept s p b := by
          rw [bankKept_of_onlyRegs hy.1, bankKept_of_onlyRegs (rfl : OnlyRegs s s), hy.2]
        rw [iff, hk]
        split
        · rw [bankState_setBank st y hb hb, if_pos ⟨rfl, rfl⟩]
        · exact hy.2⟩)
      (fun y c hc hne hy => ⟨regs y hy.1 p c, elsewhere y p c _ (List.mem_range.mp hc) (.inr hne) hy.2⟩) hx
  have skip : ∀ x q v, q ≠ p → OnlyRegs s x ∧ bankState x p b = v →
      OnlyRegs s ((List.range 64).foldl (fun y c => iff (bankKept y q c) (setBank q c st) y) x) ∧
      bankState ((List.range 64).foldl (fun y c => iff (bankKept y q c) (setBank q c st) y) x) p b = v := fun x q v hne hx =>
    List.foldlRecOn (motive := fun x => OnlyRegs s x ∧ bankState x p b = v) _ _ hx fun y hy c hc =>
      ⟨regs y hy.1 q c, elsewhere y q c _ (List.mem_range.mp hc) (.inl hne) hy.2⟩
  exact (foldl_at (P := fun x => OnlyRegs s x ∧ bankState x p b = bankState s p b)
    (Q := fun x => OnlyRegs s x ∧ bankState x p b = if bankKept s p b then st % 4 else bankState s p b)
    (pavsOfDie_nodup d) hp (fun x q _ hne hx => skip x q _ hne hx) inRow (fun x q _ hne hx => skip x q _ hne hx)
    ⟨rfl, rfl⟩).2

theorem keepsDesign_setKept (d st : Nat) (s : State) : KeepsDesign s (setKept d st s) := by
  rw [(setKept_spec d st s).1]
  exact keepsDesign_regs s

end Sys2Proof.Machine
end

section
/-! PROOFS. The end of a wake, the dies woken on demand, and PackageStates (R462 to R475). -/

namespace Sys2Proof.Machine

/-! The last step of a wake (R470, R473). -/

theorem awake_pwr (src us : Nat) (p3 : Bool) (s : State) : (awake src us p3 s).pwr.waking = none ∧
    (awake src us p3 s).pwr.lost = false ∧
    (awake src us p3 s).pwr.st = (if p3 || flag s fPwrResume then .p0 else .p1) ∧
    (p3 = false → (awake src us p3 s).pwr.resuming = (flag s fPwrResume || s.pwr.resuming)) := by
  unfold awake
  dsimp only
  cases p3
  · by_cases hr : flag s fPwrResume
    · simp [hr, setPkg_pwr]
    · simp [hr, setPkg_pwr, setDies_pwr]
  · simp [setPkg_pwr]

theorem fld_pwr (s : State) (p : Pwr) (f : Fld) : fld { s with pwr := p } f = fld s f := rfl

theorem fld_setPkg_wakeUs (st : PkgState) (src : Nat) (s : State) : fld (setPkg st src s) fWakeUs = fld s fWakeUs :=
  fld_of_reg (reg_setPkg st src s (by decide) (by decide))

theorem fld_wakeUs_awake (src us : Nat) (p3 : Bool) (s : State) : fld (awake src us p3 s) fWakeUs = min us 0xFFFFFFFF := by
  have shown : ∀ x, fld (setFld fWakeUs (min us 0xFFFFFFFF) x) fWakeUs = min us 0xFFFFFFFF := fun x => by
    rw [fld_setFld _ _ _ (by decide), show fWakeUs.w = 32 from rfl]
    omega
  have on : ∀ x, fld (setReg 0x20008 0 x) fWakeUs = fld x fWakeUs := fun x => fld_of_reg (reg_setReg_ne 0 x (by decide))
  unfold awake
  extract_lets pwr s1 s2 pwr2
  have h1 : fld s1 fWakeUs = min us 0xFFFFFFFF := shown _
  clear_value s1
  split
  · rw [fld_setPkg_wakeUs, fld_pwr, on, h1]
  · split
    · rw [fld_setPkg_wakeUs, fld_pwr, h1]
    · rw [fld_setPkg_wakeUs, fld_of_reg (reg_setDies _ _ (by decide)), h1]

theorem keepsDesign_awake (src us : Nat) (p3 : Bool) (s : State) : KeepsDesign s (awake src us p3 s) := by
  unfold awake
  dsimp only
  split
  · exact (keepsDesign_regs s).trans (keepsDesign_setPkg _ _ _)
  · split
    · exact (keepsDesign_regs s).trans (keepsDesign_setPkg _ _ _)
    · exact ((keepsDesign_regs s).trans (keepsDesign_setDies 1 _)).trans (keepsDesign_setPkg _ _ _)

/-- The links wake, and then the package is awake. -/
theorem wakeLinks_awake (src us : Nat) (p3 : Bool) (s : State) :
    let t := awake src us p3 ((List.range 8).foldl wakeLink s)
    t.pwr.waking = none ∧ t.pwr.st = (if p3 || flag s fPwrResume then .p0 else .p1) ∧
      (p3 = false → t.pwr.resuming = (flag s fPwrResume || s.pwr.resuming)) ∧
      fld t fWakeUs = min us 0xFFFFFFFF ∧ t.pwr.lost = false ∧ SameStores s t := by
  have links : KeepsPower s ((List.range 8).foldl wakeLink s) := .foldl keepsPower_wakeLink _ s
  have resume : flag ((List.range 8).foldl wakeLink s) fPwrResume = flag s fPwrResume := by
    rw [flag, links.fld _ (by decide), flag]
  intro t
  obtain ⟨hw, hl, hst, hr⟩ := awake_pwr src us p3 ((List.range 8).foldl wakeLink s)
  rw [resume] at hst
  rw [resume, links.pwr] at hr
  exact ⟨hw, hst, hr, fld_wakeUs_awake _ _ _ _, hl, links.stores.trans (keepsDesign_awake _ _ _ _).design.stores⟩

/-! Dies that are woken or fail to wake (R130, R471, R474). -/

/-- A packet enters a buffer of its router, or waits before it, and nothing else changes. -/
theorem enqueuePacket_only (r inp : Nat) (p : Packet) (s : State) : ∃ bufs waitQ owed,
    enqueuePacket r inp p s = { s with net := { s.net with bufs := bufs, waitQ := waitQ, owed := owed } } := by
  unfold enqueuePacket enter iff
  dsimp only
  split
  · split <;> exact ⟨_, _, _, rfl⟩
  · exact ⟨_, _, _, rfl⟩

theorem queued_only (p port : Nat) (x : Option Packet) (s : State) : ∃ bufs waitQ owed,
    queued p port x s = { s with net := { s.net with bufs := bufs, waitQ := waitQ, owed := owed } } := by
  cases x with
  | none => exact ⟨s.net.bufs, s.net.waitQ, s.net.owed, rfl⟩
  | some pk => exact enqueuePacket_only p port pk s

theorem replyStatus_only (p code : Nat) (h : BitVec 64) (s : State) : ∃ bufs waitQ owed,
    replyStatus p code h s = { s with net := { s.net with bufs := bufs, waitQ := waitQ, owed := owed } } :=
  queued_only _ _ _ s

/-- The fuses and the health record say which pavilions are enabled. -/
theorem enabled_of_same {s t : State} (hf : t.fuses = s.fuses) (hh : t.hlt = s.hlt) (p : Nat) :
    enabled t p = enabled s p := by
  rw [enabled, enabled, hf, hh]

theorem portState_of_same {s t : State} (hp : t.net.ports = s.net.ports) (hf : t.fuses = s.fuses) (hh : t.hlt = s.hlt)
    (p : Nat) : portState t p = portState s p := by
  rw [portState, portState, enabled_of_same hf hh, hp]

theorem look_ports_setPort (p : Nat) (st : NetState) (s : State) : look .live (setPort p st s).net.ports p = st :=
  look_upd_same _ _ _ _

theorem look_ports_setPort_ne {p q : Nat} (st : NetState) (s : State) (h : p ≠ q) :
    look .live (setPort q st s).net.ports p = look .live s.net.ports p :=
  look_upd_ne _ _ _ h

/-- Every enabled pavilion of a list of them goes DEAD; those that are not enabled are DEAD anyway. -/
theorem portState_setDead (d p : Nat) (s : State) (hp : p ∈ pavsOfDie d) :
    portState ((pavsOfDie d).foldl (fun x q => iff (enabled x q) (setPort q .dead) x) s) p = .dead := by
  have kept : ∀ x q, (iff (enabled x q) (setPort q .dead) x).fuses = x.fuses ∧
      (iff (enabled x q) (setPort q .dead) x).hlt = x.hlt := fun x q => by
    constructor <;> simp [iff_proj]
  have same : ∀ x q, enabled (iff (enabled x q) (setPort q .dead) x) p = enabled x p := fun x q =>
    enabled_of_same (kept x q).1 (kept x q).2 p
  refine foldl_at (P := fun _ => True) (Q := fun x => portState x p = .dead) (pavsOfDie_nodup d) hp
    (fun _ _ _ _ _ => trivial) (fun x _ => ?_) (fun x q _ hne hx => ?_) trivial
  · rw [portState, same]
    split
    · rename_i he
      rw [iff, if_pos he, look_ports_setPort]
    · rfl
  · rw [portState, same] at *
    split
    · rename_i he
      rw [if_pos he] at hx
      rw [← hx]
      unfold iff
      split
      · exact look_ports_setPort_ne _ _ (Ne.symm hne)
      · rfl
    · rfl

theorem keepsDesign_diePavsDead (d : Nat) (s : State) : KeepsDesign s (diePavsDead d s) := by
  unfold diePavsDead
  dsimp only
  have ports : ∀ x : State, Quiet x ((pavsOfDie d).foldl (fun x p => iff (enabled x p) (setPort p .dead) x) x) := fun x =>
    .foldl (fun y p => .iff _ (quiet_outside y)) _ x
  have latch : ∀ x, Quiet x (setLatch d [] x) := fun x => quiet_outside x
  exact (((keepsDesign_regs s).trans (ports _).toKeepsDesign).trans (latch _).toKeepsDesign).trans
    (Quiet.foldl (fun x pk => quiet_replyStatus _ _ _ x) _ _).toKeepsDesign

/-- An answer queued leaves the power state, the wake latches and the local ports. -/
theorem replyStatus_keeps (p code : Nat) (h : BitVec 64) (s : State) : (replyStatus p code h s).pwr = s.pwr ∧
    (replyStatus p code h s).net.latch = s.net.latch ∧ ∀ q, portState (replyStatus p code h s) q = portState s q := by
  obtain ⟨bufs, waitQ, owed, e⟩ := replyStatus_only p code h s
  rw [e]
  exact ⟨rfl, rfl, portState_of_same rfl rfl rfl⟩

theorem replies_keep (code : Nat) (l : List Packet) (s : State) :
    (l.foldl (fun x pk => replyStatus (pkDstPav pk.head) code pk.head x) s).pwr = s.pwr ∧
    (l.foldl (fun x pk => replyStatus (pkDstPav pk.head) code pk.head x) s).net.latch = s.net.latch ∧
    ∀ q, portState (l.foldl (fun x pk => replyStatus (pkDstPav pk.head) code pk.head x) s) q = portState s q := by
  induction l generalizing s with
  | nil => exact ⟨rfl, rfl, fun _ => rfl⟩
  | cons pk l ih =>
    obtain ⟨hp, hl, hs⟩ := replyStatus_keeps (pkDstPav pk.head) code pk.head s
    obtain ⟨ip, il, is⟩ := ih (replyStatus (pkDstPav pk.head) code pk.head s)
    exact ⟨ip.trans hp, il.trans hl, fun q => (is q).trans (hs q)⟩

/-- The pavilions of a die that fails are DEAD, and its wake latch is empty (R130). -/
theorem diePavsDead_spec {d : Nat} (hd : d < 4) (s : State) : (diePavsDead d s).pwr.dieDead.getLsbD d = true ∧
    look [] (diePavsDead d s).net.latch d = [] ∧ ∀ p ∈ pavsOfDie d, portState (diePavsDead d s) p = .dead := by
  unfold diePavsDead
  extract_lets bit pwr s1 s2
  have ports : Quiet s1 s2 := .foldl (fun y p => .iff _ (quiet_outside y : Quiet y (setPort p .dead y))) _ s1
  have dead : ∀ p ∈ pavsOfDie d, portState (setLatch d [] s2) p = .dead := fun p hp => portState_setDead d p s1 hp
  have marked : s2.pwr.dieDead.getLsbD d = true := by
    have hb : (BitVec.ofNat 4 (2 ^ d)).getLsbD d = true := by
      rw [BitVec.getLsbD_ofNat, Nat.testBit_two_pow_self]
      simpa using hd
    rw [ports.pwr]
    simp only [s1, BitVec.getLsbD_or, bit, hb, Bool.or_true]
  clear_value s2
  obtain ⟨hp, hl, hs⟩ := replies_keep ccWakeTimeout (look [] s.net.latch d) (setLatch d [] s2)
  exact ⟨hp ▸ marked, hl ▸ look_upd_same [] s2.net.latch d [], fun p h => (hs p).trans (dead p h)⟩

theorem latchWaits_some {s : State} {d : Nat} (h : latchWaits s = some d) : d < 4 ∧ (look [] s.net.latch d).isEmpty = false := by
  have hm := List.mem_of_find?_eq_some h
  have hp := List.find?_some h
  simp only [Bool.and_eq_true, Bool.not_eq_true'] at hp
  exact ⟨List.mem_range.mp hm, hp.1⟩

/-- A die that packets wait for goes on, and they wait until they are replayed (R126, R471). -/
theorem dieOn_spec {s : State} {d : Nat} (hd : d < 4) (hl : (look [] s.net.latch d).isEmpty = false) :
    dieIsOn (dieOn d s) d = true ∧ (dieOn d s).net.latch = s.net.latch ∧ KeepsDesign s (dieOn d s) := by
  unfold dieOn
  extract_lets bit s1 pwr net s2
  have k1 : KeepsDesign s s1 := (KeepsDesign.iff _ (keepsDesign_regs s)).trans (keepsDesign_regs _)
  have n1 : s1.net = s.net := by
    simp only [s1, setFld_net, iff]
    split <;> rfl
  have on : dieIsOn s1 d = true := by
    obtain ⟨hdie, hstore⟩ := fld_die_both d 0 (iff (fld s (fDomDie d) == 3) (dieReset d) s) hd (by decide)
    rw [dieIsOn, Bool.and_eq_true, beq_iff_eq, beq_iff_eq]
    exact ⟨hdie, hstore⟩
  clear_value s1
  rw [hl, show iff false (portsUp d) s2 = s2 from rfl]
  exact ⟨on, show s1.net.latch = _ by rw [n1], k1.trans (keepsDesign_regs s1)⟩

/-! A step that fails (R474). -/

theorem keepsDesign_stepFails (k : Nat) (s : State) : KeepsDesign s (stepFails k s) := by
  have dead : ∀ d f, KeepsDesign s (diePavsDead d (setFld f 3 s)) := fun d f =>
    (keepsDesign_setFld f 3 s).trans (keepsDesign_diePavsDead d _)
  unfold stepFails
  dsimp only
  split
  · exact keepsDesign_setFld _ _ s
  · split
    · exact dead _ _
    · split
      · exact dead _ _
      · split
        · exact dead _ _
        · split
          · exact keepsDesign_setKept _ _ s
          · exact keepsDesign_setFld _ _ s

theorem wakeFail_waking {s : State} {src : BitVec 4} {n total : Nat} {p3 : Bool}
    (h : s.pwr.waking = some (src, n, total, p3)) : Answers .wakeFail s fun t => t.pwr.waking = none ∧
      t.pwr.faultPin = true ∧ t.pwr.st = .p1 ∧ flag t fPwrFailed = true ∧ t.cox = s.cox ∧ SameDesign s t := by
  have hx : exec .wakeFail s = execWakeFail s := rfl
  simp only [execWakeFail, h] at hx
  have k1 : KeepsDesign s (logEvent evWakeFail (locUnit (nextStep s n) 0) (nextStep s n) (stepFails (nextStep s n) s)) :=
    (keepsDesign_stepFails (nextStep s n) s).trans (quiet_logEvent _ _ _ _).toKeepsDesign
  generalize logEvent evWakeFail (locUnit (nextStep s n) 0) (nextStep s n) (stepFails (nextStep s n) s) = s1 at hx k1
  refine .of_next hx ⟨by simp [setPkg_pwr], by simp [setPkg_pwr], by simp [setPkg_pwr], ?_, ?_⟩
  · rw [flag, fld_setPkg _ _ _ (by decide) (by decide), fld_pwr, setFlag, fld_setFld _ _ _ (by decide)]
    decide
  · have k : ∀ p, KeepsDesign s (setPkg .p1 src.toNat
        { setFlag fPwrFailed true (setFld fWakeUs (min total 0xFFFFFFFF) s1) with pwr := p }) := fun p =>
      k1.trans ((keepsDesign_regs s1).trans (keepsDesign_setPkg _ _ _))
    exact ⟨(k _).cox, (k _).design⟩

theorem wakeFail_latch {s : State} {d : Nat} (hw : s.pwr.waking = none) (hl : latchWaits s = some d) :
    Answers .wakeFail s fun t => t.pwr.dieDead.getLsbD d = true ∧ look [] t.net.latch d = [] ∧
      (∀ p ∈ pavsOfDie d, portState t p = .dead) ∧ t.cox = s.cox ∧ SameDesign s t := by
  have hx : exec .wakeFail s = .next (dieFails d s) := by
    show execWakeFail s = _
    simp [execWakeFail, hw, hl]
  have k : KeepsDesign s (dieFails d s) := (keepsDesign_regs s).trans (keepsDesign_diePavsDead d _)
  obtain ⟨hd, hn, hp⟩ := diePavsDead_spec (latchWaits_some hl).1 (setFld (fDomDie d) 3 (setFld (fDomStore d) 3 s))
  exact .of_next hx ⟨hd, hn, hp, k.cox, k.design⟩

/-! A wake step (R470). -/

theorem exec_wakeStep {s : State} {src : BitVec 4} {n total : Nat} {p3 : Bool} (us : BitVec 32)
    (h : s.pwr.waking = some (src, n, total, p3)) :
    exec (.wakeStep us) s = .next (wakeStep src.toNat us.toNat total n p3 s) := by
  show execWakeStep us s = _
  simp [execWakeStep, h]

section
variable {s : State} {src : BitVec 4} {n total : Nat} {p3 : Bool} (us : BitVec 32)
  (h : s.pwr.waking = some (src, n, total, p3))
include h

omit h in
theorem wakeStep_of_zero (us : Nat) (hk : nextStep s n = 0) : wakeStep src.toNat us total n p3 s =
    { iodReady p3 s with pwr := stillWaking (iodReady p3 s) src 1 (total + us) p3 } := by
  simp [wakeStep, hk, stillWaking]

theorem wakeStep_iod (hk : nextStep s n = 0) : Answers (.wakeStep us) s fun t => fld t fDomIod = 0 ∧ fld t fDomPcie = 0 ∧
    t.pwr.sclHeld = false ∧ t.pwr.waking = some (src, 1, total + us.toNat, p3) ∧ (p3 = true → t.pwr.boot = .selfTest) ∧
    t.cox = s.cox ∧ SameDesign s t := by
  obtain ⟨hi, hp, hs, hb, k⟩ := iodReady_spec p3 s
  refine .of_next ((exec_wakeStep us h).trans (congrArg _ (wakeStep_of_zero us.toNat hk))) ?_
  exact ⟨hi, hp, hs, rfl, hb, k.cox, k.design⟩

theorem wakeStep_seq (h1 : 1 ≤ nextStep s n) (h12 : nextStep s n ≤ 12) : Answers (.wakeStep us) s fun t =>
    fld t (seqFld (nextStep s n)) = 0 ∧
    t = { s with regs := t.regs, ctrs := t.ctrs, snaps := t.snaps,
                 pwr := stillWaking s src (nextStep s n + 1) (total + us.toNat) p3 } ∧
    (fld s (seqFld (nextStep s n)) ≠ 3 → t.ctrs = s.ctrs ∧ t.snaps = s.snaps ∧ RegsBut [0x20004] s t) ∧
    (9 ≤ nextStep s n → fld s (seqFld (nextStep s n)) = 3 →
      ∀ p ∈ pavsOfDie (nextStep s n - 9), ctr t (pavA p + 0x510) = 0) := by
  obtain ⟨on, only, kept, reset⟩ := seqStep_stepOn s h1 h12
  refine .of_next (exec_wakeStep us h) ?_
  simp only [wakeStep, if_neg (show ¬ nextStep s n = 0 by omega), if_pos (show nextStep s n ≤ 16 by omega),
    BitVec.ofNat_toNat, BitVec.setWidth_eq]
  refine ⟨on, ?_, kept, reset⟩
  rw [only]
  rfl

theorem wakeStep_banks (h13 : 13 ≤ nextStep s n) (h16 : nextStep s n ≤ 16) : Answers (.wakeStep us) s fun t =>
    (∀ p ∈ pavsOfDie (nextStep s n - 13), ∀ b, b < 64 →
      bankState t p b = if bankKept s p b then 0 else bankState s p b) ∧
    t = { s with regs := t.regs, pwr := stillWaking s src (nextStep s n + 1) (total + us.toNat) p3 } := by
  have e : stepOn (nextStep s n - 1) s = setKept (nextStep s n - 13) 0 s := by
    rw [show nextStep s n - 1 = nextStep s n - 13 + 12 by omega, stepOn_banks (by omega)]
  obtain ⟨only, banks⟩ := setKept_spec (nextStep s n - 13) 0 s
  refine .of_next (exec_wakeStep us h) ?_
  simp only [wakeStep, if_neg (show ¬ nextStep s n = 0 by omega), if_pos h16, e, BitVec.ofNat_toNat, BitVec.setWidth_eq]
  refine ⟨banks, ?_⟩
  rw [only]
  rfl

theorem wakeStep_dmem (hk : nextStep s n = 17) : Answers (.wakeStep us) s fun t => fld t fDomDmem = 0 ∧
    RegsBut [0x20004] s t ∧ t = { s with regs := t.regs, pwr := stillWaking s src 18 (total + us.toNat) p3 } := by
  refine .of_next (exec_wakeStep us h) ?_
  simp only [wakeStep, hk, BitVec.ofNat_toNat, BitVec.setWidth_eq]
  exact ⟨fld_setFld _ _ _ (by decide), fun a ha => reg_setFld_ne _ s (by simpa [fDomDmem] using ha), rfl⟩

theorem wakeStep_last (hk : 18 ≤ nextStep s n) : Answers (.wakeStep us) s fun t => t.pwr.waking = none ∧
    t.pwr.st = (if p3 || flag s fPwrResume then .p0 else .p1) ∧
    (p3 = false → t.pwr.resuming = (flag s fPwrResume || s.pwr.resuming)) ∧
    fld t fWakeUs = min (total + us.toNat) 0xFFFFFFFF ∧ t.pwr.lost = false ∧ SameStores s t := by
  refine .of_next (exec_wakeStep us h) ?_
  simp only [wakeStep, if_neg (show ¬ nextStep s n = 0 by omega), if_neg (show ¬ nextStep s n ≤ 16 by omega),
    if_neg (show ¬ nextStep s n = 17 by omega)]
  exact wakeLinks_awake _ _ _ s

end

theorem wakeStep_latch {s : State} {d : Nat} (us : BitVec 32) (hw : s.pwr.waking = none) (hl : latchWaits s = some d) :
    Answers (.wakeStep us) s fun t => dieIsOn t d = true ∧ t.net.latch = s.net.latch ∧ t.cox = s.cox ∧ SameDesign s t := by
  have hx : exec (.wakeStep us) s = .next (dieOn d s) := by
    show execWakeStep us s = _
    simp [execWakeStep, hw, hl]
  obtain ⟨hd, he⟩ := latchWaits_some hl
  obtain ⟨on, latch, k⟩ := dieOn_spec hd he
  exact .of_next hx ⟨on, latch, k.cox, k.design⟩

/-! Entries, wakes from outside, the resumed run, and the pads. -/

theorem powerEntry_begins {s : State} {e : Entry} (he : s.pwr.entry = some e) (hn : s.pwr.entering = false)
    (hc : inCourse s = false) (hw : s.cox.st ≠ .wait) : exec .powerEntry s = .next (startEntry e s) := by
  show execPowerEntry s = _
  simp [execPowerEntry, he, hn, whenever, hc, hw]

theorem powerEntry_ends {s : State} {e : Entry} (he : s.pwr.entry = some e) (hn : s.pwr.entering = true)
    (hl : linksAsleep s = true) : exec .powerEntry s = .next (finishEntry e s) := by
  show execPowerEntry s = _
  simp [execPowerEntry, he, hn, whenever, hl]

/-- A wake source that may wake a package in P2 or P3 wakes it, but for those that wake it from P2 alone. -/
theorem wakesFrom_of_mayWake {s : State} {src : Nat} (h : mayWake s src = true) (hs : src = 1 ∨ src = 2 ∨ s.pwr.st = .p2 ∧ src = 3) :
    wakesFrom s src = true := by
  have st : s.pwr.st = .p2 ∨ s.pwr.st = .p3 := by
    simp only [mayWake, Bool.and_eq_true, Bool.or_eq_true, beq_iff_eq] at h
    exact h.2
  unfold wakesFrom
  rcases hs with rfl | rfl | ⟨e, rfl⟩
  · rcases st with e | e <;> simp [e]
  · rcases st with e | e <;> simp [e]
  · simp [e]

theorem pcieWake_begins {s : State} (h : mayWake s 2 = true) : Answers .pcieWake s fun t => WakeBegun s t 2 :=
  .of_next (congrArg Host.Outcome.next (packageWake_of_mayWake h (wakesFrom_of_mayWake h (.inr (.inl rfl)))))
    (wakeBegun_beginWake 2 s)

theorem pcieWake_up {s : State} (h : upState s = true) : exec .pcieWake s = .next s :=
  congrArg Host.Outcome.next (packageWake_of_up 2 h)

/-- The port that a clock lane wakes goes to LOCK, and the wake of its package is the question that is left (R266). -/
theorem daxairWake_wakes {s : State} {n : DPort} (h : (lnkPort s n.toNat).st = .sleep) :
    exec (.daxairWake n) s =
      .next (packageWake 3 (logEvent evLinkWake (locUnit n.toNat 0) 0 (wakeTo 0 n.toNat s))) :=
  whenever_true _ _ (by simp [h])

theorem lnkPort_woken (m n : Nat) (s : State) :
    lnkPort (logEvent evLinkWake (locUnit n 0) 0 (wakeTo 0 n s)) m =
      if m = n then { lnkPort s n with st := .lock, idle := 0, wakes := 0, ctlQ := [] } else lnkPort s m := by
  have e : lnkPort (logEvent evLinkWake (locUnit n 0) 0 (wakeTo 0 n s)) m = lnkPort (wakeTo 0 n s) m := by
    simp [lnkPort]
  rw [e, wakeTo]
  split
  · rename_i h
    rw [h, lnkPort_setLnk]
  · rename_i h
    exact lnkPort_setLnk_ne _ _ h

theorem daxairWake_up {s : State} {n : DPort} (h : (lnkPort s n.toNat).st = .sleep) (hu : upState s = true) :
    Answers (.daxairWake n) s fun t => (lnkPort t n.toNat).st = .lock ∧ t.pwr = s.pwr ∧
      (∀ m, m ≠ n.toNat → lnkPort t m = lnkPort s m) ∧ SameDesign s t := by
  have q := (quiet_wakeTo 0 n.toNat s).trans (quiet_logEvent evLinkWake (locUnit n.toNat 0) 0 _)
  refine .of_next ((daxairWake_wakes h).trans (congrArg _ (packageWake_of_up 3 ((upState_of_pwr q.pwr).trans hu)))) ?_
  exact ⟨by rw [lnkPort_woken, if_pos rfl], q.pwr, fun m hm => by rw [lnkPort_woken, if_neg hm], q.design⟩

theorem daxairWake_begins {s : State} {n : DPort} (h : (lnkPort s n.toNat).st = .sleep) (hm : mayWake s 3 = true)
    (h2 : s.pwr.st = .p2) : Answers (.daxairWake n) s fun t => (lnkPort t n.toNat).st = .lock ∧ WakeBegun s t 3 := by
  have q := (quiet_wakeTo 0 n.toNat s).trans (quiet_logEvent evLinkWake (locUnit n.toNat 0) 0 _)
  have hc : ctr (logEvent evLinkWake (locUnit n.toNat 0) 0 (wakeTo 0 n.toNat s)) 0x20080 = ctr s 0x20080 :=
    (ctr_logEvent _ _ _ _ (by decide : 0x20080 ≠ 0x24 ∧ 0x20080 ≠ 0x700C8)).trans (ctr_of_ctrs rfl _)
  have hm' := (mayWake_of_keepsPower q.toKeepsPower 3).trans hm
  refine .of_next ((daxairWake_wakes h).trans (congrArg _ (packageWake_of_mayWake hm'
    (wakesFrom_of_mayWake hm' (.inr (.inr ⟨q.pwr ▸ h2, rfl⟩)))))) ⟨?_, (wakeBegun_beginWake 3 _).of_quiet q hc⟩
  have e : lnkPort (beginWake 3 false (logEvent evLinkWake (locUnit n.toNat 0) 0 (wakeTo 0 n.toNat s))) n.toNat =
      lnkPort (logEvent evLinkWake (locUnit n.toNat 0) 0 (wakeTo 0 n.toNat s)) n.toNat := by
    simp [lnkPort, beginWake]
  rw [e, lnkPort_woken, if_pos rfl]

/-- A command wakes the package from P1 (R465). -/
theorem wakeP1_spec (s : State) : KeepsDesign s (wakeP1 s) ∧ (wakeP1 s).pwr = { s.pwr with st := if s.pwr.st = .p1 then .p0 else s.pwr.st } := by
  unfold wakeP1
  split
  · rename_i h
    refine ⟨?_, by simp [setPkg_pwr, setDies_pwr, beq_iff_eq.mp h]⟩
    exact ((keepsDesign_setDies 0 s).trans (quiet_count _ _).toKeepsDesign).trans
      ((keepsDesign_setFld _ _ _).trans (keepsDesign_setPkg _ _ _))
  · rename_i h
    refine ⟨.refl s, ?_⟩
    rw [if_neg (by simpa using h)]

theorem resumeAfterWake_starts {s : State} (hr : s.pwr.resuming = true) (hs : startable s = true) :
    Answers .resumeAfterWake s fun t => t.cox.st = .wait ∧ t.cox.started = true ∧ t.cox.stepping = none ∧
      t.cox.lead = some Config.easyLead ∧ t.pwr.st = .p0 ∧ t.pwr.resuming = false ∧ SameDesign s t := by
  have st : s.pwr.st = .p0 ∨ s.pwr.st = .p1 := by
    simp only [startable, Bool.and_eq_true, Bool.or_eq_true, beq_iff_eq] at hs
    exact hs.2
  have hx : exec .resumeAfterWake s = .next (startLead none s) := whenever_true _ _ (by simp [hr, hs])
  obtain ⟨k, hp⟩ := wakeP1_spec { s with pwr := { s.pwr with resuming := false } }
  refine .of_next hx ⟨rfl, rfl, rfl, rfl, ?_, ?_, (keepsDesign_regs s).design.trans k.design⟩
  · rw [show (startLead none s).pwr = _ from hp]
    rcases st with e | e <;> simp [e]
  · rw [show (startLead none s).pwr = _ from hp]

/-! The pads (R475). -/

/-- The controller takes up nothing where it does not wait. -/
theorem retryStart_of_not_wait {s : State} (h : s.cox.st ≠ .wait) : retryStart s = s := by
  simp [retryStart, h]

theorem fld_padLatched_release (v : Word) (s : State) :
    fld (setFld fPadLatched (fld s fPadLatched &&& (0xFFFF - bits v 0 16)) s) fPadLatched =
      fld s fPadLatched &&& (0xFFFF - bits v 0 16) := by
  rw [fld_setFld _ _ _ (by decide)]
  exact Nat.mod_eq_of_lt (Nat.and_lt_two_pow _ (by show _ < 2 ^ 16; omega))

theorem exec_padRelease {s : State} (v : Word) (h : hostUp s = true) : exec (.padRelease v) s =
    .next (retryStart (setFld fPadLatched (fld s fPadLatched &&& (0xFFFF - bits v 0 16)) s)) :=
  whenever_true _ _ h

theorem padRelease_gives_back {s : State} (v : Word) (h : hostUp s = true) (hw : s.cox.st ≠ .wait) :
    Answers (.padRelease v) s fun t => fld t fPadLatched = fld s fPadLatched &&& (0xFFFF - bits v 0 16) ∧
      RegsBut [0x20010] s t ∧ t = { s with regs := t.regs } :=
  .of_next ((exec_padRelease v h).trans (congrArg _ (retryStart_of_not_wait hw)))
    ⟨fld_padLatched_release v s, fun a ha => reg_setFld_ne _ s (by simpa [fPadLatched] using ha), rfl⟩

/-- Settles O44: each clause is a lemma above on the command that it names. -/
theorem packageStates : Obligations.PackageStates := by
  unfold Obligations.PackageStates
  refine ⟨fun s e he => ⟨fun hn hc hw => ⟨fun h1 => ?_, fun hp => ?_⟩, fun hn hl => ?_⟩,
    fun s => ⟨pcieWake_begins, pcieWake_up⟩,
    fun s n hn => ⟨daxairWake_up hn, fun hm h2 => daxairWake_begins hn hm h2⟩,
    fun s src n total p3 us h => ⟨wakeStep_iod us h, wakeStep_seq us h, wakeStep_banks us h, wakeStep_dmem us h,
      wakeStep_last us h, wakeFail_waking h⟩,
    fun s d us hw hl => ⟨wakeStep_latch us hw hl, wakeFail_latch hw hl⟩,
    fun s => ⟨resumeAfterWake_starts, fun hr => whenever_false _ _ (by simp [hr])⟩,
    fun s v h => ⟨padRelease_gives_back v h, exec_padRelease v h⟩⟩
  · obtain ⟨hst, hen, k, hd⟩ := startEntry_p1 s h1
    exact .of_next (powerEntry_begins he hn hc hw) ⟨hst, hen, k.cox, hd, k.design⟩
  · exact .of_next (powerEntry_begins he hn hc hw) (startEntry_waits_or_ends he hp)
  · have h := entered_finishEntry e s
    exact .of_next (powerEntry_ends he hn hl) ⟨h.st, h.entry, h.entering, h.asleep, h.p2, h.p3⟩

end Sys2Proof.Machine
end

section
/-! PROOFS. Register accesses from outside (R4 to R7, R543 to R549): the address that reaches a register, plain writes, and
reads with their side effects. -/

namespace Sys2Proof.Machine

/-! Logging changes only what `OnlyLogged` names. -/

/-- Only the log, the counters, the registers and the committed packets differ. -/
def LogOnly (s t : State) : Prop := ∃ regs ctrs evlog evTick evIn satDue committed,
  t = { s with regs := regs, ctrs := ctrs, evlog := evlog, evTick := evTick, evIn := evIn, satDue := satDue,
               trc := { s.trc with committed := committed } }

theorem LogOnly.refl (s : State) : LogOnly s s := ⟨s.regs, s.ctrs, s.evlog, s.evTick, s.evIn, s.satDue, s.trc.committed, rfl⟩

theorem LogOnly.trans {s t u : State} (h : LogOnly s t) (k : LogOnly t u) : LogOnly s u := by
  obtain ⟨_, _, _, _, _, _, _, rfl⟩ := h
  obtain ⟨_, _, _, _, _, _, _, rfl⟩ := k
  exact ⟨_, _, _, _, _, _, _, rfl⟩

theorem LogOnly.iff {s : State} {f : State → State} (c : Bool) (h : LogOnly s (f s)) : LogOnly s (iff c f s) := by
  cases c
  · exact .refl s
  · exact h

theorem logOnly_setFld (f : Fld) (v : Nat) (s : State) : LogOnly s (setFld f v s) :=
  ⟨_, s.ctrs, s.evlog, s.evTick, s.evIn, s.satDue, s.trc.committed, rfl⟩

theorem logOnly_bump (a n : Nat) (s : State) : LogOnly s (bump a n s) := by
  unfold bump
  dsimp only
  split <;> exact ⟨s.regs, _, s.evlog, s.evTick, s.evIn, _, s.trc.committed, rfl⟩

theorem logOnly_commit (t f o : BitVec 8) (ws : List (BitVec 64)) (s : State) : LogOnly s (commit t f o ws s) := by
  unfold commit
  split
  · exact ⟨s.regs, s.ctrs, s.evlog, s.evTick, s.evIn, s.satDue, _, rfl⟩
  · exact .refl s

theorem logOnly_commitSecure (f : BitVec 8) (ws : List (BitVec 64)) (s : State) : LogOnly s (commitSecure f ws s) := by
  unfold commitSecure
  split
  · exact logOnly_commit _ _ _ _ s
  · split
    · exact logOnly_bump _ _ s
    · exact .refl s

theorem logOnly_log0 (c l d : Nat) (s : State) : LogOnly s (log0 c l d s) := by
  unfold log0
  extract_lets e n m s1 s2 s3 s4 ws
  have h1 : LogOnly s s1 := .iff _ (logOnly_bump _ _ s)
  have h2 : LogOnly s1 s2 := ⟨s1.regs, s1.ctrs, _, _, _, s1.satDue, s1.trc.committed, rfl⟩
  have h4 : LogOnly s2 s4 := (logOnly_setFld _ _ s2).trans (.iff _ (logOnly_setFld _ _ s3))
  refine ((h1.trans h2).trans h4).trans ?_
  split
  · exact logOnly_commitSecure _ _ s4
  · exact logOnly_commit _ _ _ _ s4

theorem logOnly_settle (k : Nat) (s : State) : LogOnly s (settle k s) := by
  induction k generalizing s with
  | zero => exact .refl s
  | succ k ih =>
    unfold settle
    split
    · exact .refl s
    · rename_i a r _
      have due : LogOnly s { s with satDue := r } := ⟨s.regs, s.ctrs, s.evlog, s.evTick, s.evIn, _, s.trc.committed, rfl⟩
      exact (due.trans (logOnly_log0 _ _ _ _)).trans (ih _)

/-- An event changes the log and what counts and traces it. -/
theorem onlyLogged_logEvent (c l d : Nat) (s : State) : OnlyLogged [] [] s (logEvent c l d s) := by
  refine ⟨?_, fun a ha _ => reg_logEvent c l d s ha, fun a h1 h2 _ => ctr_logEvent c l d s ⟨h1, h2⟩⟩
  obtain ⟨regs, ctrs, evlog, evTick, evIn, satDue, committed, h⟩ := (logOnly_log0 c l d s).trans (logOnly_settle 4 _)
  rw [show logEvent c l d s = _ from h]

/-! Addresses (R4, R542, R543). -/

theorem toNat_ofNat_addr {a : Nat} (h : a < 0x4000000) : (BitVec.ofNat 32 a).toNat = a := by
  rw [BitVec.toNat_ofNat]
  omega

/-- BAR0 names the register at a word's address. -/
theorem keyOf_bar0 (s : State) {a : Nat} (h : a < 0x4000000) (h4 : a % 4 = 0) :
    keyOf s .bar0 (BitVec.ofNat 32 a).toNat = some a := by
  rw [toNat_ofNat_addr h]
  simp only [keyOf, if_pos h]
  congr 1
  omega

theorem pavOf_low {a : Nat} (h : a < 0x400000) : pavOf a = none := if_neg (by omega)

theorem pavOf_pavA {p o : Nat} (hp : p < 128) (ho : o < 0x10000) : pavOf (pavA p + o) = some (p, o) := by
  have h1 : (pavA p + o - 0x400000) / 0x10000 = p := by unfold pavA; omega
  have h2 : (pavA p + o) % 0x10000 = o := by unfold pavA; omega
  rw [pavOf, if_pos (by unfold pavA; omega), h1, h2]

theorem lnkOf_low {a : Nat} (h : a < 0x100000) : lnkOf a = none := if_neg (by omega)

theorem lnkOf_pavA (p o : Nat) : lnkOf (pavA p + o) = none := if_neg (by unfold pavA; omega)

theorem chnOf_low {a : Nat} (h : a < 0x40000000) : chnOf a = none := if_neg (by omega)

theorem pavA_lt {p o : Nat} (hp : p < 128) (ho : o < 0x10000) : pavA p + o < 0xC00000 := by
  unfold pavA
  omega

/-- A block below the links' answers whatever is off (R543). -/
theorem answers_low (s : State) {a : Nat} (h : a < 0x100000) : answers s a = true := by
  simp only [answers, lnkOf_low h, pavOf_low (show a < 0x400000 by omega)]

theorem asPacket_low (s : State) {a : Nat} (h : a < 0x400000) : asPacket s a = none := by
  simp only [asPacket, pavOf_low h]

/-- An access to a live pavilion behind no RECONF router is performed (R131, R544). -/
theorem pavAccess_live {s : State} {p : Nat} (ok bad : State → State) (hl : portState s p = .live)
    (hr : routeReconf s p = false) : pavAccess p ok bad s = ok s := by
  simp [pavAccess, hr, iff, hl]

/-- A pavilion that is DEAD answers with a code, and so does the RECONF router before it (R544). -/
theorem pavAccess_dead {s : State} {p : Nat} (ok bad : State → State) (hd : portState s p = .dead) :
    ∃ code, pavAccess p ok bad s = bad (accessFails p code s) := by
  unfold pavAccess
  split
  · exact ⟨_, rfl⟩
  · exact ⟨ccDeadTarget, by simp [iff, hd]⟩

/-- What reaching a register means. -/
theorem reaches_spec {s : State} {a : Nat} (h : reaches s a = true) : hostUp s = true ∧ a % 4 = 0 ∧ a < 0x1000000 ∧
    (asPacket s a = none ∨ ∃ p, asPacket s a = some p ∧ portState s p = .live ∧ routeReconf s p = false) := by
  simp only [reaches, Bool.and_eq_true, decide_eq_true_eq] at h
  obtain ⟨⟨⟨hu, h4⟩, hl⟩, hp⟩ := h
  refine ⟨hu, h4, hl, ?_⟩
  cases e : asPacket s a with
  | none => exact .inl rfl
  | some p =>
    rw [e] at hp
    simp only [Bool.and_eq_true, beq_iff_eq, Bool.not_eq_true'] at hp
    exact .inr ⟨p, rfl, hp.1, hp.2⟩

theorem readAccess_of_reaches {s : State} {a : Nat} (be : BitVec 4) (h : reaches s a = true) :
    readAccess .bar0 (BitVec.ofNat 32 a) be s = readKey a be s := by
  obtain ⟨-, h4, hl, hp⟩ := reaches_spec h
  simp only [readAccess, keyOf_bar0 s (show a < 0x4000000 by omega) h4, if_neg (show ¬ (0x1000000 ≤ a ∧ a < 0x2000000) by omega)]
  obtain e | ⟨p, e, hlive, hr⟩ := hp
  · simp only [e]
  · simp only [e]
    exact pavAccess_live _ _ hlive hr

theorem writeAccess_of_reaches {s : State} {a : Nat} (v : Word) (h : reaches s a = true) :
    writeAccess .bar0 (BitVec.ofNat 32 a) v 0xF s = writeReg a v s := by
  obtain ⟨-, h4, hl, hp⟩ := reaches_spec h
  simp only [writeAccess, keyOf_bar0 s (show a < 0x4000000 by omega) h4,
    if_neg (show ¬ (0x1000000 ≤ a ∧ a < 0x2000000) by omega), bne_self_eq_false, Bool.false_eq_true, if_false]
  obtain e | ⟨p, e, hlive, hr⟩ := hp
  · simp only [e]
  · simp only [e]
    exact pavAccess_live _ _ hlive hr

/-- The host reaches every word below the pavilions. -/
theorem reaches_low {s : State} {a : Nat} (hu : hostUp s = true) (h4 : a % 4 = 0) (h : a < 0x400000) : reaches s a = true := by
  simp only [reaches, hu, asPacket_low s h, h4, decide_true, Bool.and_true]
  simpa using show a < 0x1000000 by omega

/-! Plain writes (R5, R6). -/

/-- A write by words acts on the register at `a` alone: its RW bits take the word's and its W1C bits written 1 clear. -/
structure PlainWrite (a : Nat) (v : Word) (s t : State) : Prop where
  value : reg t a = written s a v
  others : RegsBut [a] s t
  only : OnlyRegs s t

theorem plainWrite_writePlain {a : Nat} (v : Word) {s : State} (hc : ctrWord a = false) (hw : writable s a = true)
    (hv : validGroup a = []) : PlainWrite a v s (writePlain a v s) := by
  simp only [writePlain, hc, hw, hv, Bool.not_true, Bool.false_eq_true, if_false, bne_self_eq_false]
  split
  · rename_i h
    simp only [Bool.and_eq_true, beq_iff_eq] at h
    have stands : written s a v = reg s a := by
      simp only [written, h.1, h.2, BitVec.ofNat_eq_ofNat, BitVec.not_zero, BitVec.and_allOnes, BitVec.zero_and,
        BitVec.and_zero, BitVec.or_zero]
    exact ⟨stands.symm, fun _ _ => rfl, rfl⟩
  · exact ⟨reg_setReg_same _ _ _, fun b hb => reg_setReg_ne _ s (by simpa using hb), rfl⟩

/-- Whether a write has an operation of its own does not depend on the word written. -/
theorem writeSpecial_isNone (a : Nat) (v w : Word) : (writeSpecial a v).isNone = (writeSpecial a w).isNone := by
  simp only [writeSpecial, apply_ite Option.isNone, Option.isNone_some]
  cases msixOf a with
  | none => rfl
  | some x =>
    obtain ⟨fn, vec, o⟩ := x
    by_cases h : o = 12
    · subst h
      rfl
    · simp [h]

/-- What a register that takes a plain write is not. -/
theorem takesWrite_spec {s : State} {a : Nat} (h : takesWrite s a = true) : reaches s a = true ∧ answers s a = true ∧
    (∀ v, writeSpecial a v = none) ∧ lnkOf a = none ∧ chnOf a = none ∧ ctrWord a = false ∧ writable s a = true ∧
    validGroup a = [] := by
  simp only [takesWrite, Bool.and_eq_true, Bool.not_eq_true', Option.isNone_iff_eq_none, List.isEmpty_iff] at h
  obtain ⟨⟨⟨⟨⟨⟨⟨hr, ha⟩, hs⟩, hl⟩, hc⟩, hk⟩, hw⟩, hv⟩ := h
  refine ⟨hr, ha, fun v => ?_, hl, hc, hk, hw, hv⟩
  rw [← Option.isNone_iff_eq_none, writeSpecial_isNone a v 0, hs]
  rfl

theorem writeReg_of_takesWrite {s : State} {a : Nat} (v : Word) (h : takesWrite s a = true) :
    writeReg a v s = writePlain a v s := by
  obtain ⟨-, ha, hs, hl, hc, -⟩ := takesWrite_spec h
  simp only [writeReg, ha, hs v, hl, hc, Bool.not_true, Bool.false_eq_true, if_false]

/-- MBX.CMD has an operation of its own. -/
theorem ne_mbxCmd_of_takesWrite {s : State} {a : Nat} (h : takesWrite s a = true) : BitVec.ofNat 32 a ≠ (0x10000 : Word) := by
  obtain ⟨hr, -, hs, -⟩ := takesWrite_spec h
  obtain ⟨-, -, hl, -⟩ := reaches_spec hr
  intro e
  have ea : a = 0x10000 := by
    have := congrArg BitVec.toNat e
    rwa [toNat_ofNat_addr (by omega)] at this
  have := hs 0
  rw [ea] at this
  cases this

/-- A register write that starts no command. -/
theorem exec_registerWrite {s : State} {bar : Bar} {addr : Word} {x : WriteIn} (v : Word) (hu : hostUp s = true)
    (h : ¬ (bar = .bar0 ∧ addr = 0x10000 ∧ x.be = 0xF)) :
    exec (.registerWrite bar addr v x) s = .next (writeAccess bar addr v x.be s) := by
  show execRegisterWrite bar addr v x s = _
  rw [execRegisterWrite, if_neg (fun ⟨h1, h2, h3, _⟩ => h ⟨h1, h2, h3⟩), whenever_true _ _ hu]

/-- A write of a register with an operation of its own is that operation (R6). -/
theorem exec_registerWrite_special {s : State} {a : Nat} {v : Word} {f : State → State} (x : CmdIn) (hu : hostUp s = true)
    (h4 : a % 4 = 0) (hl : a < 0x100000) (hne : a ≠ 0x10000) (hf : writeSpecial a v = some f) :
    exec (.registerWrite .bar0 (BitVec.ofNat 32 a) v ⟨0xF, x⟩) s = .next (f s) := by
  rw [exec_registerWrite v hu, writeAccess_of_reaches v (reaches_low hu h4 (by omega))]
  · simp only [writeReg, answers_low s hl, hf, Bool.not_true, Bool.false_eq_true, if_false]
  · rintro ⟨-, e, -⟩
    have := congrArg BitVec.toNat e
    rw [toNat_ofNat_addr (by omega)] at this
    exact hne this

/-! Reads (R4, R6, R532). -/

theorem inRow_peaks (a : Nat) : inRow a 0x90020 4 3 = true ↔ a = 0x90020 ∨ a = 0x90024 ∨ a = 0x90028 := by
  simp only [inRow, Bool.and_eq_true, decide_eq_true_eq, beq_iff_eq]
  omega

/-- A peak goes on from what is in use (R317, R344). -/
theorem rebasePeak_eq (a : Nat) (s : State) :
    rebasePeak a s = if a ∈ peakRegs then setFld ⟨a, 16, 15⟩ (min (inUseAt s a) 0x7FFF) s else s := by
  have row := inRow_peaks a
  have mem : a ∈ peakRegs ↔ a = 0x90014 ∨ inRow a 0x90020 4 3 = true ∨ a = 0xA0010 := by
    rw [row]
    simp only [peakRegs, List.mem_cons, List.not_mem_nil, or_false]
    omega
  unfold rebasePeak inUseAt
  dsimp only
  by_cases h1 : a = 0x90014
  · rw [if_pos h1, if_pos (mem.mpr (.inl h1)), if_neg (by omega), if_pos h1]
  · by_cases h2 : inRow a 0x90020 4 3 = true
    · rw [if_neg h1, if_pos h2, if_pos (mem.mpr (.inr (.inl h2))), if_neg (by have := row.mp h2; omega), if_neg h1]
    · by_cases h3 : a = 0xA0010
      · rw [if_neg h1, if_neg h2, if_pos h3, if_pos (mem.mpr (.inr (.inr h3))), if_pos h3]
      · rw [if_neg h1, if_neg h2, if_neg h3, if_neg (by rw [mem]; tauto)]

/-- What is in use stands in the host's channels and in dispatch. -/
theorem inUseAt_of_same {s t : State} (hh : t.hif = s.hif) (hd : t.dsp = s.dsp) (a : Nat) : inUseAt t a = inUseAt s a := by
  simp only [inUseAt, tagsInUse, tagCount, tagsOf, chan, storeUsed, readyLen, hh, hd]

theorem afterRead_of_same {s t : State} {a : Nat} (hr : reg t a = reg s a) (hh : t.hif = s.hif) (hd : t.dsp = s.dsp) :
    afterRead t a = afterRead s a := by
  simp only [afterRead, hr, inUseAt_of_same hh hd]

theorem onlyRegs_setReg (a : Nat) (v : Word) (s : State) : OnlyRegs s (setReg a v s) := rfl

theorem reg_setFld_same (f : Fld) (v : Nat) (s : State) : reg (setFld f v s) f.a = put (reg s f.a) f.lo f.w v :=
  reg_setReg_same _ _ _

/-- A register with its RC bits clear, the others as they were. -/
theorem rebasePeak_spec (a : Nat) {s t : State} (h : t = setReg a (reg s a &&& ~~~rcMask a) s) :
    OnlyRegs s (rebasePeak a t) ∧ ∀ b, reg (rebasePeak a t) b = if b = a then afterRead s a else reg s b := by
  have only : OnlyRegs s t := h ▸ onlyRegs_setReg _ _ _
  have value : reg t a = reg s a &&& ~~~rcMask a := h ▸ reg_setReg_same _ _ _
  have others : ∀ b, b ≠ a → reg t b = reg s b := fun b hb => h ▸ reg_setReg_ne _ s hb
  have same : inUseAt t a = inUseAt s a := inUseAt_of_same (by rw [only]) (by rw [only]) a
  rw [rebasePeak_eq, same]
  unfold afterRead
  generalize min (inUseAt s a) 0x7FFF = n
  split
  · refine ⟨only.setFld _ _, fun b => ?_⟩
    split
    · next hb => rw [hb, reg_setFld_same ⟨a, 16, 15⟩, value]
    · next hb => rw [reg_setFld_ne n t hb, others b hb]
  · refine ⟨only, fun b => ?_⟩
    split
    · next hb => rw [hb, value]
    · next hb => exact others b hb

/-- What a read of its RC bits makes of a register (R6). -/
theorem readClears_spec (a : Nat) (m : Word) (s : State) : OnlyRegs s (readClears a m s) ∧
    ∀ b, reg (readClears a m s) b = if b = a ∧ rcMask a &&& m ≠ 0 then afterRead s a else reg s b := by
  unfold readClears
  by_cases hm : rcMask a &&& m = 0
  · rw [if_pos (by simp [hm])]
    exact ⟨rfl, fun b => by rw [if_neg (by simp [hm])]⟩
  · rw [if_neg (by simpa using hm)]
    simpa only [ne_eq, hm, not_false_eq_true, and_true] using rebasePeak_spec a (s := s) rfl

/-- A snapshot changes the snapshots alone; that of a counter holds its high word (R532). -/
theorem snapshot_spec (a : Nat) (s : State) : (∃ m, snapshot a s = { s with snaps := m }) ∧
    (isCtr a = true → look 0 (snapshot a s).snaps (a + 4) = BitVec.ofNat 32 (ctr s a / 2 ^ 32)) := by
  unfold snapshot
  refine ⟨?_, fun h => ?_⟩
  · split
    · exact ⟨_, rfl⟩
    · split
      · exact ⟨_, rfl⟩
      · split
        · exact ⟨_, rfl⟩
        · split
          · exact ⟨_, rfl⟩
          · exact ⟨s.snaps, rfl⟩
  · rw [if_pos h]
    exact look_upd_same _ _ _ _

/-- A register after a read looks at no snapshot. -/
theorem afterRead_of_snaps {s t : State} (m : Sparse Word) (h : t = { s with snaps := m }) (a : Nat) :
    afterRead t a = afterRead s a :=
  afterRead_of_same (by rw [h]; rfl) (by rw [h]) (by rw [h])

/-- The side effects of a read: the RC bits clear and the snapshot is taken (R6, R532). -/
theorem readEffects_spec (a : Nat) {be : BitVec 4} {s : State} (hbe : be ≠ 0) (ha : answers s a = true) :
    (∀ b, reg (readEffects a be s) b = if b = a ∧ rcMask a &&& byteMask be ≠ 0 then afterRead s a else reg s b) ∧
    (isCtr a = true → look 0 (readEffects a be s).snaps (a + 4) = BitVec.ofNat 32 (ctr s a / 2 ^ 32)) ∧
    readEffects a be s = { s with regs := (readEffects a be s).regs, snaps := (readEffects a be s).snaps } := by
  unfold readEffects
  rw [if_neg (by simpa [ha] using hbe)]
  obtain ⟨⟨m, hm⟩, hs⟩ := snapshot_spec a s
  generalize snapshot a s = x at *
  obtain ⟨only, regs⟩ := readClears_spec a (byteMask be) x
  generalize readClears a (byteMask be) x = t at *
  have snaps : t.snaps = x.snaps := by rw [only]
  have regsX : ∀ b, reg x b = reg s b := fun b => by rw [hm]; rfl
  refine ⟨fun b => ?_, fun hc => by rw [snaps, hs hc], ?_⟩
  · rw [regs b, regsX b, afterRead_of_snaps m hm]
  · rw [only, hm]

/-- A read of a register returns the bytes enabled, clears its RC bits and takes its snapshot (R4, R6, R532). -/
theorem readKey_spec (a : Nat) {be : BitVec 4} (s : State) (hbe : be ≠ 0) :
    (readKey a be s).out = s.out ++ [.readData (readReg s a &&& byteMask be)] ∧
    (∀ b, reg (readKey a be s) b =
      if b = a ∧ answers s a = true ∧ rcMask a &&& byteMask be ≠ 0 then afterRead s a else reg s b) ∧
    (isCtr a = true → answers s a = true →
      look 0 (readKey a be s).snaps (a + 4) = BitVec.ofNat 32 (ctr s a / 2 ^ 32)) ∧
    readKey a be s = { s with out := (readKey a be s).out, regs := (readKey a be s).regs,
                              snaps := (readKey a be s).snaps } := by
  unfold readKey
  generalize Out.readData (readReg s a &&& byteMask be) = o
  by_cases ha : answers s a = true
  · obtain ⟨regs, snaps, only⟩ := readEffects_spec a hbe ha
    generalize readEffects a be s = t at *
    simp only [ha, true_and, forall_const]
    refine ⟨?_, regs, snaps, ?_⟩
    · rw [only]
      rfl
    · rw [only]
      rfl
  · have none : readEffects a be s = s := if_pos (by simp [ha])
    rw [none]
    refine ⟨rfl, fun b => ?_, fun _ h => absurd h ha, rfl⟩
    rw [if_neg (fun h => ha h.2.1)]
    rfl

end Sys2Proof.Machine
end

section
/-! PROOFS. The obligation on registers (R4 to R7, R49, R532, R535, R543 to R549): the rows of MBX.CMD and of the registers with
an operation of their own, counters, the event log, and the window of bank memory. -/

namespace Sys2Proof.Machine

/-! Writes by words (R5, R6). -/

theorem registerWrite_plain {s : State} {a : Nat} (v : Word) (x : CmdIn) (h : takesWrite s a = true) :
    Answers (.registerWrite .bar0 (BitVec.ofNat 32 a) v ⟨0xF, x⟩) s (PlainWrite a v s) := by
  obtain ⟨hr, -, -, -, -, hc, hw, hv⟩ := takesWrite_spec h
  obtain ⟨hu, -⟩ := reaches_spec hr
  refine .of_next (exec_registerWrite v hu fun e => ne_mbxCmd_of_takesWrite h e.2.1) ?_
  show PlainWrite a v s (writeAccess .bar0 (BitVec.ofNat 32 a) v 0xF s)
  rw [writeAccess_of_reaches v hr, writeReg_of_takesWrite v h]
  exact plainWrite_writePlain v hc hw hv

/-- A write with a byte missing does nothing (R5). -/
theorem registerWrite_bytes {s : State} {addr v : Word} {be : BitVec 4} (x : CmdIn) (hu : hostUp s = true) (hbe : be ≠ 0xF) :
    exec (.registerWrite .bar0 addr v ⟨be, x⟩) s = .next s := by
  rw [exec_registerWrite v hu fun e => hbe e.2.2]
  simp only [writeAccess, bne_iff_ne.mpr hbe, if_true]

/-- BAR4 takes no write (R543). -/
theorem registerWrite_bar4 {s : State} (addr v : Word) (x : CmdIn) (hu : hostUp s = true) :
    exec (.registerWrite .bar4 addr v ⟨0xF, x⟩) s = .next s := by
  rw [exec_registerWrite (bar := .bar4) v hu fun e => Bar.noConfusion e.1]
  rfl

/-! Rows of their own. -/

/-- A write that takes the state after a row is that row. -/
theorem next_after_whenever (c : Bool) (s t : State) : Host.Outcome.next (after (whenever c s t) s) = whenever c s t := by
  cases c
  · rfl
  · rfl

theorem write_grant {s : State} (v : Word) (x : CmdIn) (hu : hostUp s = true) :
    exec (.registerWrite .bar0 0xB0070 v ⟨0xF, x⟩) s = exec (.grant (v.setWidth 16)) s :=
  (exec_registerWrite_special (a := 0xB0070) x hu (by decide) (by decide) (by decide) rfl).trans (next_after_whenever _ _ _)

theorem write_traceEnable {s : State} (v : Word) (x : CmdIn) (hu : hostUp s = true) :
    exec (.registerWrite .bar0 0x70000 v ⟨0xF, x⟩) s = exec (.traceEnable v) s :=
  (exec_registerWrite_special (a := 0x70000) x hu (by decide) (by decide) (by decide) rfl).trans (whenever_true _ _ hu).symm

theorem write_padRelease {s : State} (v : Word) (x : CmdIn) (hu : hostUp s = true) :
    exec (.registerWrite .bar0 0x20014 v ⟨0xF, x⟩) s = exec (.padRelease v) s :=
  (exec_registerWrite_special (a := 0x20014) x hu (by decide) (by decide) (by decide) rfl).trans (whenever_true _ _ hu).symm

theorem write_portBind {s : State} (v : Word) (x : CmdIn) (hu : hostUp s = true) :
    exec (.registerWrite .bar0 0x9000C v ⟨0xF, x⟩) s = exec (.portBind v) s :=
  (exec_registerWrite_special (a := 0x9000C) x hu (by decide) (by decide) (by decide) rfl).trans (whenever_true _ _ hu).symm

theorem write_chOwn {s : State} (v : Word) (x : CmdIn) (hu : hostUp s = true) :
    exec (.registerWrite .bar0 0xA0004 v ⟨0xF, x⟩) s = exec (.chOwn v) s :=
  (exec_registerWrite_special (a := 0xA0004) x hu (by decide) (by decide) (by decide) rfl).trans (whenever_true _ _ hu).symm

theorem write_halt {s : State} (x : CmdIn) (hu : hostUp s = true) :
    exec (.registerWrite .bar0 0xB0000 2 ⟨0xF, x⟩) s = exec .halt s :=
  (exec_registerWrite_special (a := 0xB0000) x hu (by decide) (by decide) (by decide) rfl).trans (next_after_whenever _ _ _)

theorem write_run {s : State} (x : CmdIn) (hu : hostUp s = true) :
    exec (.registerWrite .bar0 0xB0000 1 ⟨0xF, x⟩) s = exec .run s :=
  (exec_registerWrite_special (a := 0xB0000) x hu (by decide) (by decide) (by decide) rfl).trans (next_after_whenever _ _ _)

/-- A write of MBX.CMD starts its command (R305). -/
theorem write_mbxCmd {s : State} (v : Word) (x : CmdIn) (hu : hostUp s = true) :
    exec (.registerWrite .bar0 0x10000 v ⟨0xF, x⟩) s = startCommand v x s :=
  if_pos ⟨rfl, rfl, rfl, hu⟩

/-- The row of a code of R304. -/
theorem startCommand_row {v : Word} (x : CmdIn) (s : State) : ∀ r ∈ [(0x10, Instr.setMode (cmdArgs v s)),
    (0x11, .moveMaster (cmdArgs v s)), (0x12, .release (cmdArgs v s)), (0x14, .installToken (cmdArgs v s) x.token),
    (0x20, .loadFull (cmdArgs v s)), (0x21, .loadPartial (cmdArgs v s)), (0x22, .rollback (cmdArgs v s)),
    (0x23, .march (cmdArgs v s) x.faults), (0x24, .bist (cmdArgs v s) x.bist), (0x25, .fuseRepair (cmdArgs v s)),
    (0x26, .scrubFull (cmdArgs v s))], bits v 0 8 = r.1 → startCommand v x s = exec r.2 s := by
  unfold startCommand
  generalize bits v 0 8 = code
  simp only [List.mem_cons, List.not_mem_nil, or_false]
  rintro r (rfl | rfl | rfl | rfl | rfl | rfl | rfl | rfl | rfl | rfl | rfl) rfl <;> rfl

/-- The row of an operation of POWER_DOMAIN (R464). -/
theorem startCommand_power {v : Word} (x : CmdIn) (s : State) (hv : bits v 0 8 = 0x13) :
    ∀ r ∈ [(1, Instr.dieDown (cmdArgs v s)), (2, .dieUp (cmdArgs v s) x.ready), (3, .portDown (cmdArgs v s)),
      (4, .portUp (cmdArgs v s))], bits (cmdArgs v s).a0 0 3 = r.1 → startCommand v x s = exec r.2 s := by
  have row : startCommand v x s = cmdPower (cmdArgs v s) x s := by
    unfold startCommand
    rw [hv]
    rfl
  rw [row]
  unfold cmdPower
  generalize bits (cmdArgs v s).a0 0 3 = op
  simp only [List.mem_cons, List.not_mem_nil, or_false]
  rintro r (rfl | rfl | rfl | rfl) rfl <;> rfl

/-! Counters and the event log (R532, R535). -/

theorem bits_counter {n : Nat} (x : BitVec n) : bits x 0 48 = bits x 32 16 * 2 ^ 32 + bits x 0 32 := by
  simp only [bits_eq]
  omega

theorem counter_lowCleared (x : BitVec 49) : bits (put x 0 32 0) 0 48 = bits x 0 48 / 2 ^ 32 * 2 ^ 32 := by
  have low : bits (put x 0 32 0) 0 32 = 0 := bits_put x 0 32 0 (by decide)
  have high : bits (put x 0 32 0) 32 16 = bits x 32 16 := bits_put_other x 0 32 0 32 16 (by decide)
  have lt : bits x 0 32 < 2 ^ 32 := by rw [bits_eq]; exact Nat.mod_lt _ (by decide)
  rw [bits_counter, low, high, bits_counter x]
  omega

theorem counter_highCleared (x : BitVec 49) : bits (put x 32 17 0) 0 48 = bits x 0 48 % 2 ^ 32 := by
  have low : bits (put x 32 17 0) 0 32 = bits x 0 32 := bits_put_other x 32 17 0 0 32 (by decide)
  have high : bits (put x 32 17 0) 32 17 = 0 := bits_put x 32 17 0 (by decide)
  have lt : bits x 0 32 < 2 ^ 32 := by rw [bits_eq]; exact Nat.mod_lt _ (by decide)
  have zero : bits (put x 32 17 0) 32 16 = 0 := by
    rw [bits_eq] at high ⊢
    omega
  rw [bits_counter, low, zero, bits_counter x]
  omega

/-- What clears a word of a counter. -/
def ctrClear (a : Nat) : State → State := writeCtr a (if isCtr a then 0 else 0x80000000)

/-- A counter's word clears, and its other word and every other counter stay (R532). -/
theorem ctrClear_spec (a : Nat) (s : State) : (isCtr a = true → ctr (ctrClear a s) a = ctr s a / 2 ^ 32 * 2 ^ 32) ∧
    (isCtr a = false → ctr (ctrClear a s) (a - 4) = ctr s (a - 4) % 2 ^ 32) ∧
    (∀ b, b ≠ (if isCtr a then a else a - 4) → ctr (ctrClear a s) b = ctr s b) ∧
    ctrClear a s = { s with ctrs := (ctrClear a s).ctrs, snaps := (ctrClear a s).snaps } := by
  unfold ctrClear writeCtr
  cases isCtr a
  · refine ⟨fun h => (by cases h), fun _ => ?_, fun b hb => ?_, rfl⟩
    · exact (congrArg (bits · 0 48) (look_upd_same _ _ _ _)).trans (counter_highCleared _)
    · exact congrArg (bits · 0 48) (look_upd_ne _ _ _ hb)
  · refine ⟨fun _ => ?_, fun h => (by cases h), fun b hb => ?_, rfl⟩
    · exact (congrArg (bits · 0 48) (look_upd_same _ _ _ _)).trans (counter_lowCleared _)
    · exact congrArg (bits · 0 48) (look_upd_ne _ _ _ hb)

theorem exec_counterClear {s : State} {a : Nat} (hr : reaches s a = true) (ha : answers s a = true) (hc : ctrWord a = true) :
    exec (.counterClear (BitVec.ofNat 32 a)) s = .next (ctrClear a s) := by
  obtain ⟨hu, -, hl, hp⟩ := reaches_spec hr
  show execCounterClear _ s = _
  simp only [execCounterClear, toNat_ofNat_addr (show a < 0x4000000 by omega)]
  rw [whenever_true _ _ (by simp [hu, ha, hc])]
  obtain e | ⟨p, e, hlive, hrec⟩ := hp
  · rw [e]
    rfl
  · rw [e]
    exact congrArg _ (pavAccess_live _ _ hlive hrec)

theorem evlogClear_clears {s : State} (hu : hostUp s = true) : Answers .evlogClear s fun t => t.evlog = [] ∧ reg t 0x20 = 0 ∧
    RegsBut [0x20] s t ∧ t = { s with evlog := [], evIn := 0, regs := t.regs } :=
  .of_next (whenever_true _ _ hu) ⟨rfl, reg_setReg_same _ _ _, fun b hb => reg_setReg_ne _ _ (by simpa using hb), rfl⟩

/-! SCHED_INJECT (R49) and the pavilions (R127, R544). -/

theorem inRow_above {a b step n : Nat} (h : b + step * n ≤ a) : inRow a b step n = false := by
  simp only [inRow, Bool.and_eq_false_iff, decide_eq_false_iff_not]
  omega

theorem portState_live_enabled {s : State} {p : Nat} (h : portState s p = .live) : enabled s p = true := by
  by_contra he
  simp [portState, he] at h

theorem beq_above {a n : Nat} (h : n < a) : (a == n) = false := beq_eq_false_iff_ne.mpr (by omega)

/-- What can be written in some state only lies below the pavilions or in the channels. -/
theorem writable_pav {a : Nat} (h : 0x400000 ≤ a) (hl : a < 0x40000000) (s : State) : writable s a = true := by
  simp only [writable, chnOf_low hl]
  rw [inRow_above (show 0x10010 + 4 * 8 ≤ a by omega), if_neg Bool.false_ne_true, if_neg (by omega), if_neg (by omega),
    if_neg (by omega), if_neg (by omega)]

/-- SCHED_INJECT and the word below it are no counters. -/
theorem isCtr_schedInject {p : Nat} (hp : p < 128) : isCtr (pavA p + 0x214) = false ∧ isCtr (pavA p + 0x210) = false := by
  have above : 0x400000 ≤ pavA p := by unfold pavA; omega
  have low : ∀ o, o < 0x10000 → pavOf (pavA p + o) = some (p, o) := fun o => pavOf_pavA hp
  constructor
  · simp (disch := omega) only [isCtr, inRow_above, beq_above, lnkOf_pavA, low]
    decide
  · simp (disch := omega) only [isCtr, inRow_above, beq_above, lnkOf_pavA, low]
    decide

/-- A write of SCHED_INJECT is plain: it is no counter and clears no record. -/
theorem plainWrite_writeInject {p : Nat} (hp : p < 128) (v : Word) (s : State) :
    PlainWrite (pavA p + 0x214) v s (writeInject p v s) := by
  have above : 0x400000 ≤ pavA p + 0x214 := by unfold pavA; omega
  have lt := pavA_lt hp (show 0x214 < 0x10000 by decide)
  obtain ⟨self, below⟩ := isCtr_schedInject hp
  refine plainWrite_writePlain v ?_ (writable_pav above (by omega) s) ?_
  · rw [ctrWord, self, show pavA p + 0x214 - 4 = pavA p + 0x210 by omega, below]
    rfl
  · rw [validGroup, if_neg (by omega), if_neg (by omega), pavOf_pavA hp (by decide)]
    rfl

theorem schedInject_writes {s : State} (p : Pav) (v : Word) (hu : hostUp s = true) (hl : portState s p.toNat = .live)
    (hr : routeReconf s p.toNat = false) :
    Answers (.schedInject p v) s (PlainWrite (pavA p.toNat + 0x214) v s) := by
  refine .of_next ?_ (plainWrite_writeInject p.isLt v s)
  show execSchedInject p v s = _
  rw [execSchedInject, whenever_true _ _ (by simp [hu, portState_live_enabled hl]), pavAccess_live _ _ hl hr]

/-- Emitting after an event. -/
theorem onlyLogged_emit {s t : State} (o : Out) (h : OnlyLogged [] [] s t) :
    (emit o t).out = s.out ++ [o] ∧ OnlyLogged [] [] { s with out := (emit o t).out } (emit o t) := by
  obtain ⟨only, regs, ctrs⟩ := h
  refine ⟨?_, ?_, regs, ctrs⟩
  · rw [only]
    rfl
  · rw [only]
    rfl

/-- A dead pavilion answers all ones, and the access is logged (R127, R544). -/
theorem readClear_dead {s : State} (p : Pav) (be : BitVec 4) (hu : hostUp s = true) (he : enabled s p.toNat = true)
    (hd : portState s p.toNat = .dead) :
    Answers (.readClear .bar0 (BitVec.ofNat 32 (pavA p.toNat)) be) s fun t =>
      t.out = s.out ++ [.readData (byteMask be)] ∧ OnlyLogged [] [] { s with out := t.out } t := by
  have lt : pavA p.toNat < 0xC00000 := pavA_lt p.isLt (show 0 < 0x10000 by decide)
  have packet : asPacket s (pavA p.toNat) = some p.toNat := by
    have pav : pavOf (pavA p.toNat) = some (p.toNat, 0) := pavOf_pavA (o := 0) p.isLt (by decide)
    simp [asPacket, pav, he]
  obtain ⟨code, hc⟩ := pavAccess_dead (readKey (pavA p.toNat) be) (emit (.readData (byteMask be))) hd
  refine .of_next (t := emit (.readData (byteMask be)) (accessFails p.toNat code s)) ?_ (onlyLogged_emit _ (onlyLogged_logEvent _ _ _ s))
  refine (whenever_true _ _ hu).trans (congrArg _ ?_)
  simp only [readAccess, keyOf_bar0 s (show pavA p.toNat < 0x4000000 by omega) (by unfold pavA; omega),
    if_neg (show ¬ (0x1000000 ≤ pavA p.toNat ∧ pavA p.toNat < 0x2000000) by omega), packet]
  exact hc

/-! Reads (R4, R6, R532). -/

theorem readAccess_answers {s : State} {a : Nat} {be : BitVec 4} (hr : reaches s a = true) (hbe : be ≠ 0) :
    ∀ c ∈ [Instr.readClear .bar0 (BitVec.ofNat 32 a) be, .snapshotRead .bar0 (BitVec.ofNat 32 a) be],
      Answers c s fun t => t.out = s.out ++ [.readData (readReg s a &&& byteMask be)] ∧
        (∀ b, reg t b = if b = a ∧ answers s a = true ∧ rcMask a &&& byteMask be ≠ 0 then afterRead s a else reg s b) ∧
        (isCtr a = true → answers s a = true → look 0 t.snaps (a + 4) = BitVec.ofNat 32 (ctr s a / 2 ^ 32)) ∧
        t = { s with out := t.out, regs := t.regs, snaps := t.snaps } := by
  have read : whenever (hostUp s) s (readAccess .bar0 (BitVec.ofNat 32 a) be s) = .next (readKey a be s) := by
    rw [readAccess_of_reaches be hr]
    exact whenever_true _ _ (reaches_spec hr).1
  intro c hc
  simp only [List.mem_cons, List.not_mem_nil, or_false] at hc
  obtain rfl | rfl := hc
  · exact .of_next read (readKey_spec a s hbe)
  · exact .of_next read (readKey_spec a s hbe)

/-! The window of bank memory (R546, R547). -/

theorem windowWrite_closed {s : State} {off : Nat} (v : Word) (h : windowOpen s off = false) :
    windowWrite off v s = { s with winLow := none } := by
  simp [windowWrite, h]

theorem windowWrite_even {s : State} {off : BitVec 24} (v : Word) (h : windowOpen s off.toNat = true)
    (he : off.toNat / 4 % 2 = 0) : windowWrite off.toNat v s = { s with winLow := some (windowKey s off, v) } := by
  simp [windowWrite, windowKey, h, he]

theorem windowWrite_odd {s : State} {off : BitVec 24} {lo : Word} (v : Word) (h : windowOpen s off.toNat = true)
    (ho : off.toNat / 4 % 2 = 1) (hl : s.winLow = some (windowKey s off, lo)) :
    windowWrite off.toNat v s = writeFree (windowKey s off) (v ++ lo) { s with winLow := none } := by
  unfold windowKey at hl ⊢
  simp [windowWrite, h, ho, hl]

theorem windowRead_closed {s : State} {off : Nat} (h : windowOpen s off = false) : windowRead off s = (0, s) := by
  simp [windowRead, h]

theorem windowRead_clean {s : State} {off : BitVec 24} (h : windowOpen s off.toNat = true)
    (hc : (check72 (bankCw s (windowKey s off))).cls = .clean) : windowRead off.toNat s =
      (half (BitVec.ofNat 64 (check72 (bankCw s (windowKey s off))).data) (off.toNat / 4), s) := by
  unfold windowKey at hc ⊢
  simp [windowRead, bankRead, h, hc]

/-- A write that no schedule issues writes one codeword, and keeps what a stroke in progress reads (R173, R192). -/
theorem writeFree_spec (k : Nat) (d : BitVec 64) (s : State) :
    (∀ j, bankCw (writeFree k d s) j = if j = k then encode72 d else bankCw s j) ∧
    writeFree k d s = { s with bank := (writeFree k d s).bank, fab := { s.fab with
      backs := (writeFree k d s).fab.backs, bankPast := (writeFree k d s).fab.bankPast } } := by
  unfold writeFree
  refine ⟨fun j => ?_, ?_⟩
  · rw [bankCw_writeBank]
    cases running s
    · rfl
    · rfl
  · cases running s
    · rfl
    · rfl

theorem exec_bankWindowWrite {s : State} (off : BitVec 24) (v : Word) (hu : hostUp s = true) :
    exec (.bankWindowWrite off v) s = .next (windowWrite off.toNat v s) := whenever_true _ _ hu

theorem exec_bankWindowRead {s t : State} {off : BitVec 24} {w : Word} (hu : hostUp s = true)
    (h : windowRead off.toNat s = (w, t)) : exec (.bankWindowRead off) s = .next (emit (.readData w) t) := by
  show execBankWindowRead off s = _
  rw [execBankWindowRead, h]
  exact whenever_true _ _ hu

theorem windowAt_spec {s : State} {off : BitVec 24} (h : windowAt s off = true) :
    hostUp s = true ∧ windowOpen s off.toNat = true := by
  simpa [windowAt] using h

/-- The odd word of a pair writes the codeword of both (R546). -/
theorem bankWindowWrite_pair {s : State} {off : BitVec 24} {lo : Word} (v : Word) (h : windowAt s off = true)
    (ho : off.toNat / 4 % 2 = 1) (hl : s.winLow = some (windowKey s off, lo)) :
    Answers (.bankWindowWrite off v) s fun t =>
      (∀ j, bankCw t j = if j = windowKey s off then encode72 (v ++ lo) else bankCw s j) ∧
      t = { s with bank := t.bank, winLow := none, fab := { s.fab with
        backs := t.fab.backs, bankPast := t.fab.bankPast } } := by
  obtain ⟨hu, hw⟩ := windowAt_spec h
  refine .of_next (exec_bankWindowWrite off v hu) ?_
  rw [windowWrite_odd v hw ho hl]
  exact writeFree_spec _ _ _

/-! BANK_PAGE (R547). -/

theorem bankPage_reg {a : Nat} (v r : Word) (ha : a = 0x400) :
    bits ((r &&& ~~~rwMask a &&& ~~~(w1cMask a &&& v)) ||| (v &&& rwMask a)) 0 2 = bits v 0 2 := by
  have hrw : rwMask a = 3 := by rw [ha]; rfl
  have hw1c : w1cMask a = 0 := by rw [ha]; rfl
  rw [hrw, hw1c, bits, bits]
  congr 1
  ext i hi
  have : i = 0 ∨ i = 1 := by omega
  obtain rfl | rfl := this
  · simp
  · simp

theorem bankPage_writes {s : State} (v : Word) (hu : hostUp s = true) : Answers (.bankPage v) s fun t =>
    fld t fBankPage = bits v 0 2 ∧ RegsBut [0x400] s t ∧ t = { s with regs := t.regs, winLow := none } := by
  obtain ⟨value, others, only⟩ := plainWrite_writePlain (a := 0x400) v (s := s) rfl rfl rfl
  refine .of_next (whenever_true _ (writeBankPage v s) hu) ⟨?_, others, ?_⟩
  · show bits (reg (writePlain 0x400 v s) 0x400) 0 2 = _
    rw [value]
    exact bankPage_reg v _ rfl
  · unfold writeBankPage
    rw [only]

/-- Settles O49: each clause is a lemma above on the command that it names. -/
theorem registers : Obligations.Registers := by
  unfold Obligations.Registers
  refine ⟨fun s a v be x h => ⟨?_, fun hbe => ?_, ?_⟩,
    fun s v x hu => ⟨write_grant v x hu, write_traceEnable v x hu, write_padRelease v x hu, write_portBind v x hu,
      write_chOwn v x hu, write_halt x hu, write_run x hu,
      fun r hr hv => (write_mbxCmd v x hu).trans (startCommand_row x s r hr hv)⟩,
    fun s v x hu hv r hr ho => (write_mbxCmd v x hu).trans (startCommand_power x s hv r hr ho),
    fun s a be hr hbe => readAccess_answers hr hbe,
    fun s a hr ha hc => .of_next (exec_counterClear hr ha hc) (ctrClear_spec a s),
    fun s hu => evlogClear_clears hu,
    fun s p v hu hl hr => ?_,
    fun s p be hu he hd => readClear_dead p be hu he hd,
    fun s off v h => ⟨fun he => ?_, fun ho lo hl => bankWindowWrite_pair v h ho hl, fun hc => ?_⟩,
    fun s off v hu hc => ⟨exec_bankWindowRead hu (windowRead_closed hc), ?_⟩,
    fun s v hu => bankPage_writes v hu⟩
  · obtain ⟨t, ht, value, others, only⟩ := registerWrite_plain v x h
    exact ⟨t, ht, value, others, only⟩
  · exact registerWrite_bytes x (reaches_spec (takesWrite_spec h).1).1 hbe
  · exact registerWrite_bar4 _ v x (reaches_spec (takesWrite_spec h).1).1
  · obtain ⟨t, ht, value, others, only⟩ := schedInject_writes p v hu hl hr
    exact ⟨t, ht, value, others, only⟩
  · obtain ⟨hu, hw⟩ := windowAt_spec h
    exact (exec_bankWindowWrite off v hu).trans (congrArg _ (windowWrite_even v hw he))
  · obtain ⟨hu, hw⟩ := windowAt_spec h
    exact exec_bankWindowRead hu (windowRead_clean hw hc)
  · exact (exec_bankWindowWrite off v hu).trans (congrArg _ (windowWrite_closed v hc))

end Sys2Proof.Machine
end

section
/-! PROOFS. The state after reset (R16, R462). -/

namespace Sys2Proof.Machine

/-- A counter of which the store lists nothing stands at 0. -/
theorem ctr_of_nil {s : State} (h : s.ctrs = []) (a : Nat) : ctr s a = 0 := by
  simp [ctr, h, look, bits]

/-- Settles O59: each clause is a field of `State.reset`, and a store that lists nothing reads as its absent key. -/
theorem resetState : Obligations.ResetState := by
  unfold Obligations.ResetState
  refine ⟨reset_memory_wf, by decide, rfl, rfl, rfl, rfl, rfl, rfl, rfl, rfl, rfl, rfl, rfl, rfl, rfl, ?_⟩
  exact ⟨fun _ => rfl, fun _ => rfl, fun _ => rfl, fun _ => rfl, fun _ => rfl, fun _ => rfl, ctr_of_nil rfl⟩

end Sys2Proof.Machine
end

section
/-! PROOFS. Power on, power lost, and the rails (R16, R439, R463, R477, R493, R530). -/

namespace Sys2Proof.Machine

/-- The position latch is a register of AON (R463). -/
theorem position_loseState (s : State) : position (loseState s) = position s := by
  unfold position loseState
  rw [fld_setFld_bits _ _ (.inr (by decide))]
  exact fld_of_reg (reg_of_filter (keep := aonReg) rfl (by decide))

theorem powerOn_answers {s : State} (pos : BitVec 4) (nonce : BitVec 64) (h : s.pwr.boot = .off) :
    Answers (.powerOn pos nonce) s fun t => position t = pos.toNat ∧ wideReg t 0x40044 = nonce ∧
      t.pwr = { State.reset.pwr with boot := .supply } ∧ t.cox = State.reset.cox ∧ t.bank = [] ∧ t.deep = [] ∧
      t.ldr.image = none ∧ t.fuses = s.fuses ∧ t.ldr.dir0 = s.ldr.dir0 ∧ t.ldr.dir1 = s.ldr.dir1 ∧
      t.pins.land = s.pins.land := by
  refine .of_next (whenever_true s (powerOn pos nonce s) (by simp [h])) ⟨?_, look_upd_same _ _ _ _, rfl, rfl, rfl, rfl,
    rfl, rfl, rfl, rfl, rfl⟩
  exact (fld_setFld fPosition pos.toNat _ (by decide)).trans (Nat.mod_eq_of_lt pos.isLt)

theorem exec_powerLoss {s : State} (h : s.pwr.boot ≠ .off) : exec .powerLoss s = .next (powerless s) :=
  whenever_true s (powerless s) (by simpa [powered] using h)

/-- A unit that exists. -/
theorem forUnit_true {c : Bool} (r : Res) (h : c = true) : forUnit c r = r := by simp [forUnit, h]

/-- A unit that does not exist is a fault. -/
theorem forUnit_false {c : Bool} (r : Res) (h : c = false) : forUnit c r = .fault .noSuchUnit := by simp [forUnit, h]

theorem supplyRiseTimeout_answers {s : State} {rail : BitVec 3} (hr : rail.toNat < 6) (h4 : rail ≠ 4)
    (hb : s.pwr.boot = .supply) (hs : s.pwr.st = .p0) : Answers (.supplyRiseTimeout rail) s
      fun t => OnlyLogged [] [] { s with pwr := { s.pwr with faultPin := true } } t :=
  .of_next ((forUnit_true _ (by simpa using hr)).trans (whenever_true _ _ (by simpa [hb, hs] using h4)))
    (onlyLogged_logEvent evSupplyFault (locUnit rail.toNat 0) rail.toNat _)

/-- The package in P2 of which a rail of the retained state has fallen. -/
def railLost (s : State) : State :=
  { loseState s with pwr := { (loseState s).pwr with lost := true, boot := .supply } }

theorem exec_retentionRailLoss {s : State} {rail : BitVec 3} (hr : rail.toNat < 6) (h4 : rail ≠ 4) (hs : s.pwr.st = .p2) :
    exec (.retentionRailLoss rail) s = .next (railLost s) :=
  (forUnit_true _ (by simpa using hr)).trans (whenever_true _ _ (by simpa [hs] using h4))

theorem exec_unknownRail {rail : BitVec 3} (s : State) (h : 6 ≤ rail.toNat) :
    exec (.supplyRiseTimeout rail) s = .fault .noSuchUnit ∧ exec (.retentionRailLoss rail) s = .fault .noSuchUnit :=
  ⟨forUnit_false _ (by simpa using h), forUnit_false _ (by simpa using h)⟩

/-- Settles O42: each clause is a lemma above on the command that it names. -/
theorem suppliesRiseAndFall : Obligations.SuppliesRiseAndFall := by
  unfold Obligations.SuppliesRiseAndFall
  refine ⟨fun s pos nonce h => powerOn_answers pos nonce h, fun s h => ?_,
    fun s rail hr h4 hb hs => supplyRiseTimeout_answers hr h4 hb hs, fun s rail hr h4 hs => ?_,
    fun s rail h => exec_unknownRail s h, fun s present => rfl⟩
  · exact .of_next (exec_powerLoss h) ⟨rfl, rfl, rfl, rfl, rfl, rfl, rfl, rfl, rfl, rfl, rfl⟩
  · exact .of_next (exec_retentionRailLoss hr h4 hs)
      ⟨rfl, rfl, hs, rfl, rfl, rfl, rfl, rfl, rfl, rfl, position_loseState s, rfl, rfl⟩

end Sys2Proof.Machine
end

section
/-! PROOFS. Self-test (R521, R522): what a slice leaves alone, and the result that it brings. -/

namespace Sys2Proof.Machine

/-- The controller, the fuses, the pins, the design, the loader and the registers that `P` names are as they were. -/
structure KeepsRegs (P : Nat → Prop) (s t : State) : Prop extends KeepsDesign s t where
  ldr : t.ldr = s.ldr
  regs : ∀ a, P a → reg t a = reg s a

section
variable {P : Nat → Prop}

theorem KeepsRegs.refl (s : State) : KeepsRegs P s s := ⟨.refl s, rfl, fun _ _ => rfl⟩

theorem KeepsRegs.trans {s t u : State} (h : KeepsRegs P s t) (k : KeepsRegs P t u) : KeepsRegs P s u :=
  ⟨h.toKeepsDesign.trans k.toKeepsDesign, k.ldr.trans h.ldr, fun a ha => (k.regs a ha).trans (h.regs a ha)⟩

theorem KeepsRegs.iff {s : State} {f : State → State} (c : Bool) (h : KeepsRegs P s (f s)) :
    KeepsRegs P s (iff c f s) := by
  cases c
  · exact .refl s
  · exact h

theorem KeepsRegs.foldl {α : Type} {f : State → α → State} {l : List α} (h : ∀ x a, a ∈ l → KeepsRegs P x (f x a))
    (s : State) : KeepsRegs P s (l.foldl f s) :=
  l.foldlRecOn f (.refl s) fun x hx a ha => hx.trans (h x a ha)

theorem KeepsRegs.fld {s t : State} (h : KeepsRegs P s t) (f : Fld) (hf : P f.a) : fld t f = fld s f :=
  fld_of_reg (h.regs _ hf)

/-- A change of the power state, of health and of what no relation speaks of. -/
theorem keepsRegs_outside (s : State) {wide pwr hlt free} :
    KeepsRegs P s { s with wide := wide, pwr := pwr, hlt := hlt, free := free } :=
  ⟨⟨rfl, rfl, rfl, rfl, rfl, rfl, rfl, rfl, rfl, rfl, rfl, rfl, rfl, rfl⟩, rfl, fun _ _ => rfl⟩

theorem keepsRegs_setReg {a : Nat} (v : Word) (s : State) (h : ¬ P a) : KeepsRegs P s (setReg a v s) :=
  ⟨keepsDesign_regs s, rfl, fun _ hb => reg_setReg_ne v s fun e => h (e ▸ hb)⟩

theorem keepsRegs_setFld {f : Fld} (v : Nat) (s : State) (h : ¬ P f.a) : KeepsRegs P s (setFld f v s) :=
  keepsRegs_setReg _ s h

theorem keepsRegs_setFlag {f : Fld} (b : Bool) (s : State) (h : ¬ P f.a) : KeepsRegs P s (setFlag f b s) :=
  keepsRegs_setFld _ s h

theorem keepsRegs_logEvent (c l d : Nat) (s : State) (h : ¬ P 0x20) : KeepsRegs P s (logEvent c l d s) :=
  ⟨(quiet_logEvent c l d s).toKeepsDesign, by simp, fun _ ha => reg_logEvent c l d s fun e => h (e ▸ ha)⟩

end

/-! What a slice brings. -/

/-- The registers of self-test: GLB.STATUS and HLT.POST. -/
abbrev PostReg (a : Nat) : Prop := a = 0x10 ∨ 0x30000 ≤ a ∧ a < 0x30100

theorem keepsPost_alert (i : Nat) (s : State) : KeepsRegs PostReg s (alert i s) := keepsRegs_setReg _ s (by decide)

theorem keepsPost_logEvent (c l d : Nat) (s : State) : KeepsRegs PostReg s (logEvent c l d s) :=
  keepsRegs_logEvent c l d s (by decide)

theorem keepsPost_setFld {f : Fld} (v : Nat) (s : State) (h : 0x30100 ≤ f.a) : KeepsRegs PostReg s (setFld f v s) :=
  keepsRegs_setFld v s (by omega)

theorem keepsPost_setFlag {f : Fld} (b : Bool) (s : State) (h : 0x30100 ≤ f.a) : KeepsRegs PostReg s (setFlag f b s) :=
  keepsPost_setFld _ s h

theorem keepsPost_tempSlice (bad : List Nat) (s : State) : KeepsRegs PostReg s (tempSlice bad s) :=
  (KeepsRegs.foldl (fun x n _ => keepsPost_setFlag _ x (Nat.le_add_right 0x30100 (4 * n))) s).trans
    (.foldl (fun x _ _ => (keepsPost_alert 4 x).trans (keepsPost_logEvent _ _ _ _)) _)

theorem keepsPost_voltSlice (bad : List Nat) (s : State) : KeepsRegs PostReg s (voltSlice bad s) :=
  .foldl (fun x r _ => ((keepsPost_setFld (f := ⟨0x30300 + 4 * r, 14, 2⟩) 3 x (by simp only; omega)).trans
    (keepsPost_alert 2 _)).trans (keepsPost_logEvent _ _ _ _)) s

theorem keepsPost_processSlice (s : State) : KeepsRegs PostReg s (processSlice s) := by
  refine .foldl (fun x p _ => ?_) s
  split
  · exact (keepsPost_setFld (f := ⟨0x30400 + 4 * p, 0, 16⟩) _ x (by simp only; omega)).trans (keepsRegs_outside _)
  · exact .refl x

theorem keepsPost_slicePasses (k : Nat) (s : State) : KeepsRegs PostReg s (slicePasses k s) := by
  unfold slicePasses
  split
  · exact keepsPost_tempSlice [] s
  · split
    · exact keepsPost_setFlag _ s (by simp only; omega)
    · exact .refl s

/-- A slice that fails flags GLB.STATUS, and brings what R522 names. -/
theorem keepsPost_sliceFails (k : Nat) (bad : List Nat) (fs : List FaultRec) (s : State) :
    KeepsRegs PostReg (setFlag fPostFail true s) (sliceFails k bad fs s) := by
  have logged : ∀ x, KeepsRegs PostReg x (postFails k x) := fun x => keepsPost_logEvent _ _ _ x
  unfold sliceFails
  refine (keepsPost_alert 5 _).trans ?_
  dsimp only
  split_ifs
  · exact (keepsRegs_outside _).trans (logged _)
  · exact keepsPost_tempSlice bad _
  · exact keepsPost_voltSlice bad _
  · exact .refl _
  · exact (keepsPost_setFlag _ _ (by simp only [lnkA]; omega)).trans (logged _)
  · exact (keepsPost_setFlag _ _ (by simp only; omega)).trans (logged _)
  · exact logged _
  · exact (keepsRegs_outside _).trans (logged _)

/-- A clock tree that fails self-test (R522). -/
theorem sliceFails_clocks {k : Nat} (bad : List Nat) (fs : List FaultRec) (s : State) (h : k = 0) :
    (sliceFails k bad fs s).pwr.faultPin = true ∧ (sliceFails k bad fs s).hlt.clocksBad = true := by
  simp [sliceFails, postFails, h]

/-- A fault that a slice of memory or logic finds becomes a soft record (R522). -/
theorem sliceFails_soft {k : Nat} {f : FaultRec} {fs : List FaultRec} (bad : List Nat) (s : State) (h4 : 4 ≤ k)
    (h14 : k < 0x14) (hf : f ∈ fs) (hk : sliceFault k f = true) : f ∈ (sliceFails k bad fs s).hlt.soft := by
  have e : ∀ x, (postFails k x).hlt = x.hlt := fun x => by simp [postFails]
  unfold sliceFails
  rw [if_neg (by omega), if_neg (by omega), if_neg (by omega), if_neg (by omega), if_neg (by omega), if_neg (by omega),
    if_neg (by omega), e]
  simp only [addSoft, List.mem_append, List.mem_filter, Bool.not_eq_true', List.contains_eq_mem, decide_eq_false_iff_not]
  tauto

/-! The result of a slice. -/

/-- What every slice leaves: its result, the time it took, and where the start-up goes on. -/
structure SliceEnds (n res us : Nat) (s t : State) : Prop where
  result : fld t (fPost n) = res
  time : fld t (fPostUs n) = us
  boot : t.pwr.boot = (if n = 0x22 then BootStep.rom else .selfTest)
  dwell : t.hlt.dwell = (n == 0x20 || n == 0x21)
  done : n = 0x22 → flag t fPostDone = true
  design : SameDesign s t
  cox : t.cox = s.cox

/-- The end of a slice keeps every register but GLB.STATUS, and what the slice has flagged there. -/
theorem sliceEnds_keeps (n : Nat) (s : State) : KeepsRegs (· ≠ 0x10) s (sliceEnds n s) ∧
    flag (sliceEnds n s) fPostFail = flag s fPostFail ∧ (sliceEnds n s).pwr.faultPin = s.pwr.faultPin ∧
    (sliceEnds n s).hlt.clocksBad = s.hlt.clocksBad ∧ (sliceEnds n s).hlt.soft = s.hlt.soft := by
  unfold sliceEnds
  dsimp only
  split
  · exact ⟨(keepsRegs_outside s).trans (keepsRegs_setFlag (f := fPostDone) true _ (by decide)),
      congrArg (· != 0) (fld_setFld_bits _ _ (.inl (by decide))), rfl, rfl, rfl⟩
  · exact ⟨keepsRegs_outside s, rfl, rfl, rfl, rfl⟩

/-- The end of a slice, whatever it brought after its result `y` was noted. -/
theorem sliceEnds_spec {n res us : Nat} {s x y : State} (hn : n < 0x23) (hr : fld y (fPost n) = res)
    (hu : fld y (fPostUs n) = us) (hy : KeepsDesign s y) (k : KeepsRegs PostReg y x) :
    SliceEnds n res us s (sliceEnds n x) := by
  obtain ⟨e, -⟩ := sliceEnds_keeps n x
  have stands : ∀ f : Fld, f.a = 0x30000 + 4 * n → fld (sliceEnds n x) f = fld y f := fun f hf =>
    (e.fld f (by omega)).trans (k.fld f (by omega))
  refine ⟨(stands _ rfl).trans hr, (stands _ rfl).trans hu, ?_, ?_, ?_,
    (hy.design.trans k.design).trans e.design, e.cox.trans (k.cox.trans hy.cox)⟩
  · unfold sliceEnds
    split <;> simp
  · unfold sliceEnds
    split <;> simp
  · rintro rfl
    exact congrArg (· != 0) (fld_setFld fPostDone 1 _ (by decide))

/-- The result of slice `n` and its time are noted. -/
def noteSlice (n res us : Nat) (s : State) : State := setFld (fPost n) res (setFld (fPostUs n) us s)

theorem fld_noteSlice {n res us : Nat} (s : State) (hr : res < 16) (hu : us < 2 ^ 15) :
    fld (noteSlice n res us s) (fPost n) = res ∧ fld (noteSlice n res us s) (fPostUs n) = us :=
  ⟨(fld_setFld (fPost n) res _ (Nat.le_refl 32)).trans (Nat.mod_eq_of_lt hr),
    (fld_setFld_bits (f := fPost n) (g := fPostUs n) res _ (.inl (by simp [fPost, fPostUs]))).trans
      ((fld_setFld (fPostUs n) us s (by simp [fPostUs])).trans (Nat.mod_eq_of_lt hu))⟩

theorem keepsDesign_noteSlice (n res us : Nat) (s : State) : KeepsDesign s (noteSlice n res us s) := keepsDesign_regs s

/-! POST_SLICE and INCOMPLETE (R521, R522). -/

theorem exec_postSlice {s : State} {k : BitVec 6} (pass : Bool) (us : BitVec 15) (bad : List (BitVec 7))
    (fs : List FaultRec) (hk : k.toNat < 0x23) (h : sliceRuns s k.toNat = true) :
    exec (.postSlice k pass us bad fs) s = .next (postSlice k.toNat pass us.toNat (bad.map BitVec.toNat) fs s) :=
  (forUnit_true _ (by simpa using hk)).trans (whenever_true _ _ h)

theorem exec_incomplete {s : State} {k : BitVec 6} (hk : k.toNat < 0x23) (h : sliceRuns s k.toNat = true) :
    exec (.incomplete k) s = .next (incomplete k.toNat s) :=
  (forUnit_true _ (by simpa using hk)).trans (whenever_true _ _ h)

section
variable {n us : Nat} (bad : List Nat) (fs : List FaultRec) (s : State)

theorem postSlice_true : postSlice n true us bad fs s = sliceEnds n (slicePasses n
    (if n = 3 then processSlice (noteSlice n 1 us s) else noteSlice n 1 us s)) := rfl

theorem postSlice_false : postSlice n false us bad fs s = sliceEnds n (sliceFails n bad fs (noteSlice n 3 us s)) := rfl

/-- A slice that passes. -/
theorem postSlice_passes (hn : n < 0x23) (hu : us < 2 ^ 15) : SliceEnds n 1 us s (postSlice n true us bad fs s) := by
  obtain ⟨hr, ht⟩ := fld_noteSlice (n := n) (res := 1) s (by decide) hu
  rw [postSlice_true]
  refine sliceEnds_spec hn hr ht (keepsDesign_noteSlice n 1 us s) (KeepsRegs.trans ?_ (keepsPost_slicePasses n _))
  split
  · exact keepsPost_processSlice _
  · exact .refl _

/-- A slice that fails. -/
theorem postSlice_fails (hn : n < 0x23) (hu : us < 2 ^ 15) :
    SliceEnds n 3 us s (postSlice n false us bad fs s) ∧ flag (postSlice n false us bad fs s) fPostFail = true := by
  obtain ⟨hr, ht⟩ := fld_noteSlice (n := n) (res := 3) s (by decide) hu
  have apart : ∀ f : Fld, f.a = 0x30000 + 4 * n → ∀ x, fld (setFlag fPostFail true x) f = fld x f := fun f hf x =>
    fld_setFld_reg _ x (by simp only [fPostFail]; omega)
  have k := keepsPost_sliceFails n bad fs (noteSlice n 3 us s)
  have design : KeepsDesign s (setFlag fPostFail true (noteSlice n 3 us s)) :=
    (keepsDesign_noteSlice n 3 us s).trans (keepsDesign_setFld _ _ _)
  obtain ⟨-, same, -⟩ := sliceEnds_keeps n (sliceFails n bad fs (noteSlice n 3 us s))
  rw [postSlice_false]
  refine ⟨sliceEnds_spec hn ((apart _ rfl _).trans hr) ((apart _ rfl _).trans ht) design k, ?_⟩
  rw [same, flag, k.fld fPostFail (.inl rfl), setFlag, fld_setFld _ _ _ (by decide)]
  rfl

/-- A clock tree that fails bars every load, and asserts FAULT# (R522). -/
theorem postSlice_fails_clocks (h : n = 0) :
    (postSlice n false us bad fs s).pwr.faultPin = true ∧ (postSlice n false us bad fs s).hlt.clocksBad = true := by
  obtain ⟨pin, clocks⟩ := sliceFails_clocks bad fs (noteSlice n 3 us s) h
  obtain ⟨-, -, samePin, sameClocks, -⟩ := sliceEnds_keeps n (sliceFails n bad fs (noteSlice n 3 us s))
  rw [postSlice_false]
  exact ⟨samePin.trans pin, sameClocks.trans clocks⟩

theorem postSlice_fails_soft {f : FaultRec} (h4 : 4 ≤ n) (h14 : n < 0x14) (hf : f ∈ fs) (hn : sliceFault n f = true) :
    f ∈ (postSlice n false us bad fs s).hlt.soft := by
  obtain ⟨-, -, -, -, same⟩ := sliceEnds_keeps n (sliceFails n bad fs (noteSlice n 3 us s))
  rw [postSlice_false, same]
  exact sliceFails_soft bad _ h4 h14 hf hn

end

/-- A slice stopped after 20 ms counts as passed (R521). -/
theorem incomplete_ends {n : Nat} (s : State) (hn : n < 0x23) : SliceEnds n 4 20000 s (incomplete n s) := by
  obtain ⟨hr, ht⟩ := fld_noteSlice (n := n) (res := 4) (us := 20000) s (by decide) (by decide)
  exact sliceEnds_spec hn hr ht (keepsDesign_noteSlice n 4 20000 s)
    ((keepsPost_logEvent _ _ _ _).trans (keepsPost_slicePasses n _))

end Sys2Proof.Machine
end

section
/-! PROOFS. The boot ROM (R354, R360, R362): the key slots, the choice of a directory copy, and the start of
its firmware. -/

namespace Sys2Proof.Machine

/-! The key slots (R354). -/

/-- What the vote on a key slot blows into the fuses. -/
def voteKey (f : Fuses) (e : KeyRead × Nat) : Fuses :=
  { f with keyUse := putBit f.keyUse e.2 (keyUsable e.1), keyVote := putBit f.keyVote e.2 (keyVoted e.1),
           keyRev := putBit f.keyRev e.2 (keyRevoked e.1),
           keyHash := upd 0 f.keyHash e.2 ((vote3 e.1.hash0 e.1.hash1 e.1.hash2).getD 0) }

/-- Slot `k` holds what the vote of its copies `v` finds. -/
def SlotHolds (f : Fuses) (k : Nat) (v : KeyRead) : Prop :=
  f.keyUse.getLsbD k = keyUsable v ∧ f.keyRev.getLsbD k = keyRevoked v ∧
    ∀ h, vote3 v.hash0 v.hash1 v.hash2 = some h → look 0 f.keyHash k = h

theorem getLsbD_putBit (x : BitVec 8) {k j : Nat} (b : Bool) (hj : j < 8) :
    (putBit x k b).getLsbD j = if j = k then b else x.getLsbD j := by
  unfold putBit
  rw [getLsbD_put]
  by_cases h : j = k
  · subst h
    cases b <;> simp [hj]
  · rw [if_neg (by omega), if_neg h]

theorem slotHolds_voteKey (f : Fuses) {k : Nat} (v : KeyRead) (hk : k < 8) : SlotHolds (voteKey f (v, k)) k v := by
  refine ⟨?_, ?_, fun h hv => ?_⟩
  · exact (getLsbD_putBit _ _ hk).trans (if_pos rfl)
  · exact (getLsbD_putBit _ _ hk).trans (if_pos rfl)
  · exact (look_upd_same _ _ _ _).trans (by simp [hv])

theorem SlotHolds.voteKey {f : Fuses} {k j : Nat} {v : KeyRead} (h : SlotHolds f k v) (w : KeyRead) (hk : k < 8)
    (hj : j ≠ k) : SlotHolds (voteKey f (w, j)) k v := by
  obtain ⟨hu, hr, hh⟩ := h
  refine ⟨?_, ?_, fun x hv => ?_⟩
  · exact (getLsbD_putBit _ _ hk).trans ((if_neg hj.symm).trans hu)
  · exact (getLsbD_putBit _ _ hk).trans ((if_neg hj.symm).trans hr)
  · exact (look_upd_ne _ _ _ hj.symm).trans (hh x hv)

/-- The fuses with the eight slots resolved. -/
def votedFuses (keys : List KeyRead) (f : Fuses) : Fuses :=
  ((List.range 8).map fun k => (keys.getD k noKey, k)).foldl voteKey f

theorem slotHolds_votedFuses {keys : List KeyRead} {k : Nat} {v : KeyRead} (f : Fuses) (hv : keys[k]? = some v)
    (hk : k < 8) : SlotHolds (votedFuses keys f) k v := by
  have e : keys.getD k noKey = v := by simp [List.getD, hv]
  unfold votedFuses
  rw [List.foldl_map]
  refine foldl_at (P := fun _ => True) (Q := fun f => SlotHolds f k v) List.nodup_range (List.mem_range.mpr hk)
    (fun _ _ _ _ _ => trivial) (fun f _ => ?_) (fun f j _ hj h => h.voteKey _ hk hj) trivial
  rw [e]
  exact slotHolds_voteKey f v hk

/-! What the boot ROM's steps leave alone. -/

/-- The register that shows which copy of the directory is in use. -/
abbrev DirReg (a : Nat) : Prop := a = 0x50030

theorem keepsDir_logEvent (c l d : Nat) (s : State) : KeepsRegs DirReg s (logEvent c l d s) :=
  keepsRegs_logEvent c l d s (by decide)

theorem keepsRegs_secureStep {P : Nat → Prop} (stage code : Nat) (s : State) :
    KeepsRegs P s (secureStep stage code s) := by
  unfold secureStep
  exact ⟨⟨by simp, by simp, by simp, by simp [SameDesign]⟩, by simp, fun a _ => reg_commitSecure _ _ s a⟩

theorem keepsDir_resolveKey (s : State) (e : KeyRead × Nat) :
    KeepsRegs DirReg { s with fuses := voteKey s.fuses e } (resolveKey s e) := by
  unfold resolveKey
  refine KeepsRegs.trans ?_ (keepsRegs_secureStep _ _ _)
  dsimp only
  split
  · exact keepsDir_logEvent _ _ _ _
  · exact .iff _ (keepsDir_logEvent _ _ _ _)

/-- A change of the fuses before what keeps the rest. -/
theorem KeepsRegs.withFuses {P : Nat → Prop} {s t : State} (h : KeepsRegs P s t) (f : Fuses) :
    KeepsRegs P { s with fuses := f } { t with fuses := f } :=
  ⟨⟨h.cox, rfl, h.pins, h.design⟩, h.ldr, h.regs⟩

/-- The votes change the fuses, and keep the rest. -/
theorem keepsDir_resolveKeys (keys : List KeyRead) (s : State) :
    KeepsRegs DirReg { s with fuses := votedFuses keys s.fuses } (resolveKeys keys s) := by
  unfold resolveKeys votedFuses
  generalize (List.range 8).map (fun k => (keys.getD k noKey, k)) = l
  induction l generalizing s with
  | nil => exact .refl s
  | cons e l ih =>
    have h := keepsDir_resolveKey s e
    have k := ih (resolveKey s e)
    rw [h.fuses] at k
    exact (h.withFuses _).trans k

theorem keepsDir_startLeaf (n : Nat) (s : State) : KeepsRegs DirReg s (startLeaf n s) :=
  keepsRegs_setReg _ s (by decide)

theorem keepsDir_leavesLow (s : State) : KeepsRegs DirReg s (leavesLow s) := .iff _ (keepsDir_logEvent _ _ _ s)

theorem keepsDir_noteFirmware (s0 : State) (d : DirCopy) (fw : Option (Stream × Bool)) (s : State) :
    KeepsRegs DirReg s (noteFirmware s0 d fw s) := by
  have fields : ∀ (v : Verdict) (x : State), KeepsRegs DirReg x (noteVerdict v x) := fun v x =>
    ((keepsRegs_setFld v.addr x (by decide)).trans (keepsRegs_setFld v.detail _ (by decide))).trans
      ((keepsRegs_setFld v.check _ (by decide)).trans (keepsRegs_setFld v.code _ (by decide)))
  exact (keepsRegs_outside s).trans (fields _ _)

/-! The phases of the boot ROM. -/

/-- A flag reads what was stored in it. -/
theorem flag_setFlag {f : Fld} (b : Bool) (s : State) (hl : f.lo + f.w ≤ 32) (hw : 1 ≤ f.w) :
    flag (setFlag f b s) f = b := by
  have lt : b.toNat < 2 ^ f.w := lt_of_lt_of_le (Bool.toNat_lt b) (Nat.pow_le_pow_right (n := 2) (by decide) hw)
  rw [flag, setFlag, fld_setFld f _ s hl, Nat.mod_eq_of_lt lt]
  cases b <;> rfl

/-- A flag stands as another field of its register is stored. -/
theorem flag_setFld_bits {f g : Fld} (v : Nat) (s : State) (h : g.lo + g.w ≤ f.lo ∨ f.lo + f.w ≤ g.lo) :
    flag (setFld f v s) g = flag s g := congrArg (· != 0) (fld_setFld_bits v s h)

theorem flag_setFlag_bits {f g : Fld} (b : Bool) (s : State) (h : g.lo + g.w ≤ f.lo ∨ f.lo + f.w ≤ g.lo) :
    flag (setFlag f b s) g = flag s g := flag_setFld_bits _ s h

/-- CFG.DIR with what the boot ROM has found of the copies. -/
def showDir (valid0 valid1 clash : Bool) (s : State) : State :=
  setFlag fDir0 valid0 (setFlag fDir1 valid1 (setFlag fDirConflict clash (setFlag fDirRecovery false s)))

theorem showDir_spec (valid0 valid1 clash : Bool) (s : State) : KeepsRegs (fun _ => False) s (showDir valid0 valid1 clash s) ∧
    flag (showDir valid0 valid1 clash s) fDirConflict = clash ∧
    flag (showDir valid0 valid1 clash s) fDirRecovery = false := by
  have flagged : ∀ (f : Fld) (b : Bool) (x : State), KeepsRegs (fun _ => False) x (setFlag f b x) := fun f b x =>
    keepsRegs_setFlag b x id
  unfold showDir
  refine ⟨(((flagged _ _ s).trans (flagged _ _ _)).trans (flagged _ _ _)).trans (flagged _ _ _), ?_, ?_⟩
  · rw [flag_setFlag_bits _ _ (by decide), flag_setFlag_bits _ _ (by decide), flag_setFlag _ _ (by decide) (by decide)]
  · rw [flag_setFlag_bits _ _ (by decide), flag_setFlag_bits _ _ (by decide), flag_setFlag_bits _ _ (by decide),
      flag_setFlag _ _ (by decide) (by decide)]

/-- What the boot ROM has done when it has chosen: the copies and keys are read, the flags and the events show what it has
found. -/
def romRead (clash : Bool) (d0 d1 : DirCopy) (keys : List KeyRead) (next : BitVec 16) (s : State) : State :=
  let s1 : State := { s with ldr := { s.ldr with dir0 := d0, dir1 := d1, lmsRec := next } }
  let s2 := showDir (dirValid d0) (dirValid d1) clash s1
  let s3 := iff (dirValid d1 && !dirValid d0) (logEvent evDirCopyBad (locUnit 0 0) 0) s2
  let s4 := iff (dirValid d0 && !dirValid d1) (logEvent evDirCopyBad (locUnit 1 0) 0) s3
  let s5 := iff clash (logEvent evDirConflict locNone 0) s4
  leavesLow (startLeaf next.toNat (resolveKeys keys (secureStep 1 ccDone s5)))

/-- The firmware of the copy chosen, `c`, has been read twice. -/
def romLoaded (c : Nat) (clash : Bool) (sk : State) (d : DirCopy) (fw : Option (Stream × Bool)) (s : State) : State :=
  secureStep 2 (firmwareVerdict sk d fw).code (noteFirmware sk d fw
    (setFld fDirUse (if clash then 0 else c) (setWide 0x50034 (if clash then 0 else d.sequence) s)))

/-- The Keeper starts with the firmware of the copy chosen; without, the package is in ROM recovery. -/
def startFirmware (fw : Option (Stream × Bool)) (s : State) : State :=
  match fw with
  | some (x, _) => { s with ldr := { s.ldr with fwVer := x.man.version, fwDig := x.man.digest },
                            pwr := { s.pwr with boot := .keeper } }
  | none => romRecovery s

/-- What stands once the boot ROM has read the directory. -/
structure RomRead (clash : Bool) (d0 d1 : DirCopy) (keys : List KeyRead) (s t : State) : Prop where
  cox : t.cox = s.cox
  design : SameDesign s t
  dir0 : t.ldr.dir0 = d0
  dir1 : t.ldr.dir1 = d1
  conflict : flag t fDirConflict = clash
  recovery : flag t fDirRecovery = false
  slots : ∀ k v, keys[k]? = some v → k < 8 → SlotHolds t.fuses k v

theorem RomRead.keeps {clash : Bool} {d0 d1 : DirCopy} {keys : List KeyRead} {s t u : State}
    (h : RomRead clash d0 d1 keys s t) (k : KeepsRegs DirReg t u) : RomRead clash d0 d1 keys s u :=
  ⟨k.cox.trans h.cox, h.design.trans k.design, k.ldr ▸ h.dir0, k.ldr ▸ h.dir1,
    (congrArg (· != 0) (k.fld _ rfl)).trans h.conflict, (congrArg (· != 0) (k.fld _ rfl)).trans h.recovery,
    k.fuses ▸ h.slots⟩

/-- The flags are shown of copies that have been read. -/
theorem romRead_showDir {d0 d1 : DirCopy} {s t : State} (clash : Bool) (k : KeepsDesign s t) (h0 : t.ldr.dir0 = d0)
    (h1 : t.ldr.dir1 = d1) : RomRead clash d0 d1 [] s (showDir (dirValid d0) (dirValid d1) clash t) := by
  obtain ⟨shown, conflict, recovery⟩ := showDir_spec (dirValid d0) (dirValid d1) clash t
  exact ⟨shown.cox.trans k.cox, k.design.trans shown.design, shown.ldr ▸ h0, shown.ldr ▸ h1, conflict, recovery,
    fun _ _ hv => by cases hv⟩

/-- The slots are resolved, and all else stands. -/
theorem RomRead.withFuses {clash : Bool} {d0 d1 : DirCopy} {keys : List KeyRead} {f : Fuses} {s t u : State}
    (h : RomRead clash d0 d1 [] s t) (k : KeepsRegs DirReg { t with fuses := f } u)
    (hs : ∀ n v, keys[n]? = some v → n < 8 → SlotHolds f n v) : RomRead clash d0 d1 keys s u := by
  have shown : ∀ g : Fld, DirReg g.a → flag u g = flag t g := fun g hg => congrArg (· != 0) (k.fld g hg)
  exact ⟨k.cox.trans h.cox, h.design.trans k.design, k.ldr ▸ h.dir0, k.ldr ▸ h.dir1, (shown _ rfl).trans h.conflict,
    (shown _ rfl).trans h.recovery, k.fuses ▸ hs⟩

theorem romRead_spec (clash : Bool) (d0 d1 : DirCopy) (keys : List KeyRead) (next : BitVec 16) (s : State) :
    RomRead clash d0 d1 keys s (romRead clash d0 d1 keys next s) := by
  have event : ∀ (c : Bool) (code loc : Nat) (x : State), KeepsRegs DirReg x (iff c (logEvent code loc 0) x) :=
    fun c code loc x => .iff c (keepsDir_logEvent code loc 0 x)
  unfold romRead
  refine RomRead.keeps ?_ ((keepsDir_startLeaf _ _).trans (keepsDir_leavesLow _))
  refine RomRead.withFuses ?_ (keepsDir_resolveKeys keys _) fun _ _ hv hk => slotHolds_votedFuses _ hv hk
  refine RomRead.keeps ?_ (keepsRegs_secureStep 1 ccDone _)
  refine RomRead.keeps ?_ (event _ _ _ _)
  refine RomRead.keeps ?_ (event _ _ _ _)
  refine RomRead.keeps ?_ (event _ _ _ _)
  exact romRead_showDir clash (quiet_outside s).toKeepsDesign rfl rfl

theorem romLoaded_spec {c : Nat} {clash : Bool} {d0 d1 : DirCopy} {keys : List KeyRead} {s t : State} (sk : State)
    (d : DirCopy) (fw : Option (Stream × Bool)) (h : RomRead clash d0 d1 keys s t) (hc : c < 2) :
    RomRead clash d0 d1 keys s (romLoaded c clash sk d fw t) ∧
      fld (romLoaded c clash sk d fw t) fDirUse = if clash then 0 else c := by
  have used : RomRead clash d0 d1 keys s
      (setFld fDirUse (if clash then 0 else c) (setWide 0x50034 (if clash then 0 else d.sequence) t)) :=
    ⟨h.cox, h.design, h.dir0, h.dir1, (flag_setFld_bits _ _ (by decide)).trans h.conflict,
      (flag_setFld_bits _ _ (by decide)).trans h.recovery, h.slots⟩
  have k := fun x => (keepsDir_noteFirmware sk d fw x).trans (keepsRegs_secureStep 2 (firmwareVerdict sk d fw).code _)
  refine ⟨used.keeps (k _), ((k _).fld fDirUse rfl).trans ((fld_setFld _ _ _ (by decide)).trans ?_)⟩
  exact Nat.mod_eq_of_lt (by split <;> [decide; exact hc])

/-- ROM recovery (R360, R362). -/
theorem romRecovery_spec (s : State) : (romRecovery s).pwr.boot = .recovery ∧ (romRecovery s).pwr.faultPin = true ∧
    flag (romRecovery s) fDirRecovery = true ∧ (romRecovery s).cox = s.cox ∧ SameDesign s (romRecovery s) := by
  unfold romRecovery
  generalize hx : ({ s with pwr := { s.pwr with boot := .recovery, faultPin := true, asleep := false } } : State) = x
  have k := keepsDir_logEvent evDirBad locNone 0 (setFlag fDirRecovery true x)
  have same : KeepsDesign s (setFlag fDirRecovery true x) := by
    rw [← hx]
    exact keepsDesign_regs s
  refine ⟨by simp [← hx], by simp [← hx], ?_, k.cox.trans same.cox, same.design.trans k.design⟩
  rw [flag, k.fld fDirRecovery rfl]
  exact flag_setFlag true x (by decide) (by decide)

section
variable {d0 d1 : DirCopy} {keys : List KeyRead} {fw0 fw1 : Option (Stream × Bool)} {s : State} (next : BitVec 16)

/-- No copy is valid, or none of two in conflict starts. -/
theorem bootRom_none {clash : Bool} (h : chooseDir d0 d1 (firmwareOk (resolveKeys keys s) d0 fw0)
      (firmwareOk (resolveKeys keys s) d1 fw1) = (none, clash)) :
    bootRom d0 d1 keys fw0 fw1 next s = romRecovery (romRead clash d0 d1 keys next s) := by
  unfold bootRom
  simp only [h]
  rfl

theorem bootRom_some {c : Nat} {clash : Bool} (h : chooseDir d0 d1 (firmwareOk (resolveKeys keys s) d0 fw0)
      (firmwareOk (resolveKeys keys s) d1 fw1) = (some c, clash)) :
    bootRom d0 d1 keys fw0 fw1 next s =
      startFirmware (if firmwareOk (resolveKeys keys s) (if c = 0 then d0 else d1) (if c = 0 then fw0 else fw1)
          then (if c = 0 then fw0 else fw1) else none)
        (romLoaded c clash (resolveKeys keys s) (if c = 0 then d0 else d1) (if c = 0 then fw0 else fw1)
          (romRead clash d0 d1 keys next s)) := by
  unfold bootRom
  simp only [h]
  by_cases hc : c = 0
  · simp only [hc, if_true]
    rfl
  · simp only [hc, if_false]
    rfl

end

/-! The choice of R360. -/

section
variable {d0 d1 : DirCopy} {ok0 ok1 : Bool}

/-- There are two copies to choose from. -/
theorem chooseDir_lt {c : Nat} {clash : Bool} (h : chooseDir d0 d1 ok0 ok1 = (some c, clash)) : c < 2 := by
  have which : ∀ {x : Nat} {b : Bool}, (some x, b) = (some c, clash) → x < 2 → c < 2 := by
    rintro x b h hx
    cases h
    exact hx
  unfold chooseDir at h
  split at h
  · cases h
  · exact which h (by decide)
  · exact which h (by decide)
  · split_ifs at h
    · exact which h (by decide)
    · exact which h (by decide)
    · exact which h (by decide)
    · exact which h (by decide)
    · exact which h (by decide)
    · cases h

theorem chooseDir_left (h0 : dirValid d0 = true) (h1 : dirValid d1 = false) : chooseDir d0 d1 ok0 ok1 = (some 0, false) := by
  simp [chooseDir, h0, h1]

theorem chooseDir_right (h0 : dirValid d0 = false) (h1 : dirValid d1 = true) : chooseDir d0 d1 ok0 ok1 = (some 1, false) := by
  simp [chooseDir, h0, h1]

theorem chooseDir_both (h : (dirValid d0 && dirValid d1) = true) : chooseDir d0 d1 ok0 ok1 =
    if d0 = d1 then (some 0, false)
    else if d0.sequence ≠ d1.sequence then (some (if d0.sequence < d1.sequence then 1 else 0), false)
    else if ok0 && (!ok1 || decide (fwVersion d1 ≤ fwVersion d0)) then (some 0, true)
    else if ok1 then (some 1, true) else (none, true) := by
  obtain ⟨h0, h1⟩ := Bool.and_eq_true_iff.mp h
  simp only [chooseDir, h0, h1]

theorem chooseDir_later (h : (dirValid d0 && dirValid d1) = true) (hq : d0.sequence < d1.sequence) :
    chooseDir d0 d1 ok0 ok1 = (some 1, false) := by
  rw [chooseDir_both h, if_neg (by rintro rfl; exact BitVec.lt_irrefl _ hq), if_pos (BitVec.ne_of_lt hq), if_pos hq]

theorem chooseDir_earlier (h : (dirValid d0 && dirValid d1) = true) (hq : d1.sequence < d0.sequence) :
    chooseDir d0 d1 ok0 ok1 = (some 0, false) := by
  rw [chooseDir_both h, if_neg (by rintro rfl; exact BitVec.lt_irrefl _ hq), if_pos (BitVec.ne_of_lt hq).symm,
    if_neg (BitVec.not_lt.mpr (BitVec.le_of_lt hq))]

theorem chooseDir_same (h : (dirValid d0 && dirValid d1) = true) (hd : d0 = d1) :
    chooseDir d0 d1 ok0 ok1 = (some 0, false) := by
  rw [chooseDir_both h, if_pos hd]

/-- Copies in conflict: the first, unless the second has firmware that starts and is newer. -/
theorem chooseDir_clash (h : (dirValid d0 && dirValid d1) = true) (hd : d0 ≠ d1) (hq : d0.sequence = d1.sequence) :
    chooseDir d0 d1 ok0 ok1 = if ok0 && (!ok1 || decide (fwVersion d1 ≤ fwVersion d0)) then (some 0, true)
      else if ok1 then (some 1, true) else (none, true) := by
  rw [chooseDir_both h, if_neg hd, if_neg (not_not.mpr hq)]

theorem chooseDir_clash_left (h : (dirValid d0 && dirValid d1) = true) (hd : d0 ≠ d1) (hq : d0.sequence = d1.sequence)
    (h0 : ok0 = true) (h1 : ok1 = false ∨ fwVersion d1 ≤ fwVersion d0) : chooseDir d0 d1 ok0 ok1 = (some 0, true) := by
  rw [chooseDir_clash h hd hq, if_pos (by simpa [h0] using h1)]

theorem chooseDir_clash_right (h : (dirValid d0 && dirValid d1) = true) (hd : d0 ≠ d1) (hq : d0.sequence = d1.sequence)
    (h1 : ok1 = true) (h0 : ok0 = false ∨ fwVersion d0 < fwVersion d1) : chooseDir d0 d1 ok0 ok1 = (some 1, true) := by
  rw [chooseDir_clash h hd hq, if_neg (by simpa [h1, imp_iff_not_or] using h0), if_pos h1]

end

/-! The answers of BOOT_ROM_START (R360, R362). -/

/-- Firmware can be started only where it could be read. -/
theorem firmwareOk_some {s : State} {d : DirCopy} {fw : Option (Stream × Bool)} (h : firmwareOk s d fw = true) :
    ∃ x again, fw = some (x, again) := by
  cases fw with
  | none => cases h
  | some y => exact ⟨y.1, y.2, rfl⟩

/-- The Keeper starts with the firmware of the copy in use. -/
structure RomStarts (use : Nat) (clash : Bool) (d0 d1 : DirCopy) (keys : List KeyRead) (fw : Option (Stream × Bool))
    (s t : State) : Prop extends RomRead clash d0 d1 keys s t where
  boot : t.pwr.boot = .keeper
  use : fld t fDirUse = use
  version : some (t.ldr.fwVer, t.ldr.fwDig) = fw.map fun x => (x.1.man.version, x.1.man.digest)

/-- The package is in ROM recovery (R360, R362). -/
structure InRecovery (s t : State) : Prop where
  boot : t.pwr.boot = .recovery
  pin : t.pwr.faultPin = true
  flagged : flag t fDirRecovery = true
  cox : t.cox = s.cox
  design : SameDesign s t

theorem RomRead.recovery_of {clash : Bool} {d0 d1 : DirCopy} {keys : List KeyRead} {s t : State}
    (h : RomRead clash d0 d1 keys s t) : InRecovery s (romRecovery t) := by
  obtain ⟨boot, pin, flagged, cox, design⟩ := romRecovery_spec t
  exact ⟨boot, pin, flagged, cox.trans h.cox, h.design.trans design⟩

theorem RomRead.starts {use : Nat} {clash : Bool} {d0 d1 : DirCopy} {keys : List KeyRead} {s t : State}
    (h : RomRead clash d0 d1 keys s t) (hu : fld t fDirUse = use) (x : Stream) (again : Bool) :
    RomStarts use clash d0 d1 keys (some (x, again)) s (startFirmware (some (x, again)) t) :=
  ⟨⟨h.cox, h.design, h.dir0, h.dir1, h.conflict, h.recovery, h.slots⟩, rfl, hu, rfl⟩

/-- The copy chosen has firmware that can be started. -/
theorem bootRom_starts {c : Nat} {clash : Bool} {d0 d1 : DirCopy} {keys : List KeyRead} {fw0 fw1 : Option (Stream × Bool)}
    {s : State} (next : BitVec 16) (hc : c < 2)
    (h : chooseDir d0 d1 (firmwareOk (resolveKeys keys s) d0 fw0) (firmwareOk (resolveKeys keys s) d1 fw1) = (some c, clash))
    (ok : firmwareOk (resolveKeys keys s) (if c = 0 then d0 else d1) (if c = 0 then fw0 else fw1) = true) :
    RomStarts (if clash then 0 else c) clash d0 d1 keys (if c = 0 then fw0 else fw1) s
      (bootRom d0 d1 keys fw0 fw1 next s) := by
  rw [bootRom_some next h, ok, if_pos rfl]
  generalize (if c = 0 then fw0 else fw1) = fw at ok ⊢
  obtain ⟨read, use⟩ := romLoaded_spec (resolveKeys keys s) (if c = 0 then d0 else d1) fw
    (romRead_spec clash d0 d1 keys next s) hc
  obtain ⟨x, again, rfl⟩ := firmwareOk_some ok
  exact read.starts use x again

/-- The copy chosen has none. -/
theorem bootRom_fails {c : Nat} {clash : Bool} {d0 d1 : DirCopy} {keys : List KeyRead} {fw0 fw1 : Option (Stream × Bool)}
    {s : State} (next : BitVec 16) (hc : c < 2)
    (h : chooseDir d0 d1 (firmwareOk (resolveKeys keys s) d0 fw0) (firmwareOk (resolveKeys keys s) d1 fw1) = (some c, clash))
    (bad : firmwareOk (resolveKeys keys s) (if c = 0 then d0 else d1) (if c = 0 then fw0 else fw1) = false) :
    InRecovery s (bootRom d0 d1 keys fw0 fw1 next s) := by
  rw [bootRom_some next h, bad, if_neg Bool.false_ne_true]
  exact (romLoaded_spec _ _ _ (romRead_spec clash d0 d1 keys next s) hc).1.recovery_of

/-- No copy that is valid, or no firmware that can be started, is ROM recovery. -/
theorem bootRom_recovers {d0 d1 : DirCopy} {keys : List KeyRead} {fw0 fw1 : Option (Stream × Bool)} {s : State}
    (next : BitVec 16) (h : (dirValid d0 || dirValid d1) = false ∨
      (firmwareOk (resolveKeys keys s) d0 fw0 || firmwareOk (resolveKeys keys s) d1 fw1) = false) :
    InRecovery s (bootRom d0 d1 keys fw0 fw1 next s) := by
  match e : chooseDir d0 d1 (firmwareOk (resolveKeys keys s) d0 fw0) (firmwareOk (resolveKeys keys s) d1 fw1) with
  | (none, clash) =>
    rw [bootRom_none next e]
    exact (romRead_spec clash d0 d1 keys next s).recovery_of
  | (some c, clash) =>
    obtain hv | hf := h
    · obtain ⟨h0, h1⟩ := Bool.or_eq_false_iff.mp hv
      simp [chooseDir, h0, h1] at e
    · obtain ⟨h0, h1⟩ := Bool.or_eq_false_iff.mp hf
      refine bootRom_fails next (chooseDir_lt e) e ?_
      split
      · exact h0
      · exact h1

end Sys2Proof.Machine
end

section
/-! PROOFS. The Keeper's start (R16, R360, R363): repairs, the directory made whole, and the load that it begins by itself. -/

namespace Sys2Proof.Machine

/-- What the statements about the Keeper's start speak of: the start-up step, the memories, the loader, MBX, self-test's
findings, and the register that shows which copy of the directory is in use. -/
structure BootView where
  boot : BootStep
  asleep : Bool
  bank : Sparse (BitVec 72)
  deep : Sparse (BitVec 288)
  slots : Sparse (BitVec 2)
  ldr : Ldr
  busy : Bool
  applied : Bool
  clocks : Bool
  dir : Word

def bootView (s : State) : BootView :=
  { boot := s.pwr.boot, asleep := s.pwr.asleep, bank := s.bank, deep := s.deep, slots := s.slots, ldr := s.ldr,
    busy := s.hif.busy, applied := s.hlt.applied, clocks := s.hlt.clocksBad, dir := reg s 0x50030 }

theorem bootView_eq {s t : State} (hp : t.pwr = s.pwr) (hb : t.bank = s.bank) (hd : t.deep = s.deep) (hs : t.slots = s.slots)
    (hl : t.ldr = s.ldr) (hm : t.hif.busy = s.hif.busy) (hh : t.hlt = s.hlt) (hr : reg t 0x50030 = reg s 0x50030) :
    bootView t = bootView s := by
  simp only [bootView, hp, hb, hd, hs, hl, hm, hh, hr]

theorem bootView_iff {f : State → State} (c : Bool) (h : ∀ x, bootView (f x) = bootView x) (s : State) :
    bootView (iff c f s) = bootView s := by
  cases c
  · rfl
  · exact h s

theorem bootView_foldl {α : Type} {f : State → α → State} {l : List α} (h : ∀ x a, a ∈ l → bootView (f x a) = bootView x)
    (s : State) : bootView (l.foldl f s) = bootView s :=
  l.foldlRecOn (motive := fun x => bootView x = bootView s) f rfl fun x hx a ha => (h x a ha).trans hx

/-! Plain updates. -/

theorem bootView_setReg {a : Nat} (v : Word) (s : State) (h : 0x50030 ≠ a) : bootView (setReg a v s) = bootView s :=
  bootView_eq rfl rfl rfl rfl rfl rfl rfl (reg_setReg_ne v s h)

theorem bootView_setFld {f : Fld} (v : Nat) (s : State) (h : 0x50030 ≠ f.a) : bootView (setFld f v s) = bootView s :=
  bootView_setReg _ s h

theorem bootView_alert (i : Nat) (s : State) : bootView (alert i s) = bootView s := bootView_setReg _ s (by decide)

theorem bootView_logEvent (c l d : Nat) (s : State) : bootView (logEvent c l d s) = bootView s :=
  bootView_eq (by simp) (by simp) (by simp) (by simp) (by simp) (by simp) (by simp) (reg_logEvent c l d s (by decide))

theorem bootView_commit (t f o : BitVec 8) (ws : List (BitVec 64)) (s : State) : bootView (commit t f o ws s) = bootView s :=
  bootView_eq (by simp) (by simp) (by simp) (by simp) (by simp) (by simp) (by simp) (reg_commit t f o ws s _)

theorem bootView_count (a : Nat) (s : State) : bootView (count a s) = bootView s :=
  bootView_eq (by simp) (by simp) (by simp) (by simp) (by simp) (by simp) (by simp) (reg_count a s (by decide))

/-! Repair (R523, R524). -/

theorem bootView_dropRoutesTo (p : Nat) (s : State) : bootView (dropRoutesTo p s) = bootView s :=
  bootView_foldl (fun x q _ => by split <;> rfl) s

theorem bootView_retire (p : Nat) (s : State) : bootView (retire p s) = bootView s := by
  unfold retire
  split
  · exact (bootView_logEvent _ _ _ _).trans ((bootView_dropRoutesTo p _).trans rfl)
  · rfl

/-- The registers of the pavilions stand above CFG's. -/
theorem ne_spareCrewA (p : Nat) : 0x50030 ≠ spareCrewA p := by unfold spareCrewA pavA; omega

theorem ne_spareBpA (p c : Nat) : 0x50030 ≠ spareBpA p c := by unfold spareBpA pavA; omega

theorem bootView_useSpareCrew (p c : Nat) (s : State) : bootView (useSpareCrew p c s).2 = bootView s := by
  unfold useSpareCrew
  dsimp only
  split
  · exact bootView_retire p s
  · exact (bootView_setReg _ _ (ne_spareBpA p c)).trans (bootView_setReg _ s (ne_spareCrewA p))

theorem bootView_replaceBp (p c b : Nat) (s : State) : bootView (replaceBp p c b s).2 = bootView s := by
  unfold replaceBp
  dsimp only
  split
  · rfl
  · split
    · exact bootView_setReg _ s (ne_spareBpA p c)
    · exact bootView_useSpareCrew p c s

theorem bootView_replaceSpare (p b : Nat) (s : State) : bootView (replaceSpare p b s).2 = bootView s := by
  unfold replaceSpare
  dsimp only
  split
  · exact (bootView_iff _ (fun x => bootView_setReg _ x (ne_spareBpA p _)) _).trans rfl
  · split
    · exact bootView_retire p s
    · exact bootView_setReg _ s (ne_spareCrewA p)

theorem bootView_repairOne (f : FaultRec) (s : State) : bootView (repairOne f s).2 = bootView s := by
  unfold repairOne
  extract_lets k p used
  split
  · rfl
  · split
    · rfl
    · split
      · exact bootView_retire p s
      · split
        · exact bootView_foldl (fun x q _ => bootView_retire q x) s
        · split
          · exact bootView_replaceSpare _ _ s
          · exact bootView_replaceBp _ _ _ s

theorem bootView_repairAll (fs : List FaultRec) (s : State) : bootView (repairAll fs s).2 = bootView s :=
  fs.foldlRecOn (motive := fun x : (Nat × Nat × Nat) × State => bootView x.2 = bootView s) _ rfl fun x hx f _ =>
    (bootView_repairOne f x.2).trans hx

theorem bootView_noteRepaired (s : State) : bootView (noteRepaired s) = bootView s := by
  refine bootView_foldl (fun x k hk => ?_) s
  have lt := List.mem_range.mp hk
  dsimp only
  split
  · split
    · exact bootView_setFld 2 x (f := ⟨0x30000 + 4 * k, 28, 4⟩) (by simp only; omega)
    · rfl
  · rfl

theorem bootView_checkReplace (s : State) : bootView (checkReplace s) = bootView s := by
  unfold checkReplace
  split
  · exact (bootView_logEvent _ _ _ _).trans ((bootView_alert 6 _).trans rfl)
  · rfl

/-- Step 4 of R16: the repairs are applied. -/
theorem bootView_applyRepairs (s : State) : bootView (applyRepairs s) = { bootView s with applied := true } := by
  have done : ∀ x : State, bootView { x with hlt := { x.hlt with applied := true, waiting := [] } } =
      { bootView x with applied := true } := fun _ => rfl
  unfold applyRepairs
  split
  · rename_i h
    rw [← show s.hlt.applied = true from h]
    rfl
  · dsimp only
    rw [bootView_checkReplace, bootView_logEvent, bootView_noteRepaired, done, bootView_repairAll, bootView_repairAll]

/-! The routes, and the report of a thermal shutdown (R124, R531). -/

theorem bootView_setDroutes (ds : Sparse (BitVec 32)) (s : State) : bootView (setDroutes ds s) = bootView s :=
  bootView_foldl (fun x e _ => by split <;> rfl) s

theorem bootView_reportThermal (s : State) : bootView (reportThermal s) = bootView s := by
  unfold reportThermal
  split
  · exact (bootView_logEvent _ _ _ _).trans rfl
  · rfl

/-- The Keeper is up, with the repairs applied, before it turns to the directory. -/
def keeperReady (routes : Sparse (BitVec 32)) (s : State) : State :=
  reportThermal (setDroutes routes (raiseNonce (applyRepairs { s with pwr := { s.pwr with boot := .up, asleep := false } })))

theorem bootView_keeperReady (routes : Sparse (BitVec 32)) (s : State) : bootView (keeperReady routes s) =
    { bootView s with boot := .up, asleep := false, applied := true } := by
  have nonce : ∀ x, bootView (raiseNonce x) = bootView x := fun _ => rfl
  unfold keeperReady
  rw [bootView_reportThermal, bootView_setDroutes, nonce, bootView_applyRepairs]
  rfl

/-! The directory (R360). -/

theorem dirInUse_of_view {s t : State} (hl : (bootView t).ldr = (bootView s).ldr) (hr : (bootView t).dir = (bootView s).dir) :
    dirInUse t = dirInUse s := by
  have flags : ∀ f : Fld, f.a = 0x50030 → flag t f = flag s f := fun f hf => by
    rw [flag, fld_of_reg (s := s) (hf ▸ hr), flag]
  unfold dirInUse
  rw [flags _ rfl, flags _ rfl, show t.ldr = s.ldr from hl]

theorem dirEntry_of_dirInUse {s t : State} (h : dirInUse t = dirInUse s) (role region : Nat) :
    dirEntry t role region = dirEntry s role region := by
  unfold dirEntry
  rw [h]

/-- A copy in use is valid, and no conflict is flagged. -/
theorem dirInUse_some {s : State} {d : DirCopy} (h : dirInUse s = some d) : flag s fDirConflict = false ∧ dirValid d = true := by
  unfold dirInUse at h
  split at h
  · cases h
  · rename_i hc
    generalize (if flag s fDirUse = true then s.ldr.dir1 else s.ldr.dir0) = x at h
    dsimp only at h
    split at h
    · rename_i hv
      cases h
      exact ⟨by simpa using hc, hv⟩
    · cases h

/-- What making the copies match changes: both become the copy in use. -/
structure DirRepaired (s t : State) : Prop where
  view : bootView t = { bootView s with ldr := t.ldr, dir := reg t 0x50030 }
  image : t.ldr.image = s.ldr.image
  job : t.ldr.job = s.ldr.job
  st : t.ldr.st = s.ldr.st
  inUse : dirInUse t = dirInUse s
  copies : ∀ d, dirInUse s = some d → s.ldr.dir0 ≠ s.ldr.dir1 → t.ldr.dir0 = d ∧ t.ldr.dir1 = d

/-- Both copies hold `d`, and both are shown as valid. -/
def matchCopies (d : DirCopy) (s : State) : State :=
  setFlag fDir0 true (setFlag fDir1 true { s with ldr := { s.ldr with dir0 := d, dir1 := d } })

theorem dirInUse_matchCopies {d : DirCopy} {s : State} (h : dirInUse s = some d) : dirInUse (matchCopies d s) = some d := by
  obtain ⟨hc, hv⟩ := dirInUse_some h
  have conflict : flag (matchCopies d s) fDirConflict = false := by
    unfold matchCopies
    rw [flag_setFlag_bits _ _ (by decide), flag_setFlag_bits _ _ (by decide)]
    exact hc
  have copies : (matchCopies d s).ldr.dir0 = d ∧ (matchCopies d s).ldr.dir1 = d := ⟨rfl, rfl⟩
  simp [dirInUse, conflict, copies, hv]

theorem dirRepaired_self {s : State} (h : ∀ d, dirInUse s = some d → s.ldr.dir0 = s.ldr.dir1) : DirRepaired s s :=
  ⟨rfl, rfl, rfl, rfl, rfl, fun d hd hne => absurd (h d hd) hne⟩

theorem dirRepaired_matchCopies {d : DirCopy} {s : State} (h : dirInUse s = some d) : DirRepaired s (matchCopies d s) := by
  refine ⟨rfl, rfl, rfl, rfl, (dirInUse_matchCopies h).trans h.symm, fun x hx _ => ?_⟩
  obtain rfl : d = x := Option.some.inj (h.symm.trans hx)
  exact ⟨rfl, rfl⟩

theorem DirRepaired.of_view {s t u : State} (h : DirRepaired s t) (e : bootView u = bootView t) : DirRepaired s u := by
  have hl : u.ldr = t.ldr := congrArg BootView.ldr e
  have hr : reg u 0x50030 = reg t 0x50030 := congrArg BootView.dir e
  have view : bootView u = { bootView s with ldr := u.ldr, dir := reg u 0x50030 } := by
    rw [e, hl, hr]
    exact h.view
  exact ⟨view, hl ▸ h.image, hl ▸ h.job, hl ▸ h.st, (dirInUse_of_view hl hr).trans h.inUse, hl ▸ h.copies⟩

theorem dirRepaired_repairDir (s : State) : DirRepaired s (repairDir s) := by
  unfold repairDir
  split
  · rename_i h
    exact dirRepaired_self fun d hd => by rw [h] at hd; cases hd
  · rename_i d h
    extract_lets c
    split
    · exact dirRepaired_self fun _ _ => ‹_›
    · exact (dirRepaired_matchCopies h).of_view (bootView_logEvent _ _ _ _)

/-! MBX and the loader (R305, R363, R376). -/

theorem bootView_mbxBegin (cmd : Nat) (long irq : Bool) (seq : BitVec 8) (s : State) :
    bootView (mbxBegin cmd long irq seq s) = { bootView s with busy := true } := by
  have busy : ∀ x : State, bootView { x with hif := { x.hif with busy := true, long := long, irq := irq } } =
      { bootView x with busy := true } := fun _ => rfl
  unfold mbxBegin commandPacket
  dsimp only
  rw [bootView_commit, busy, bootView_setFld _ _ (by decide), bootView_setFld _ _ (by decide)]

theorem bootView_complete (c : Nat) (e : Completion) (s : State) : bootView (complete c e s) = bootView s := by
  have chans : ∀ x y, bootView (setChan c y x) = bootView x := fun _ _ => rfl
  unfold complete
  dsimp only
  split
  · rfl
  · split
    · exact (bootView_count _ _).trans (chans _ _)
    · exact chans _ _

theorem bootView_endMsg (m : Msg) (status detail crs dev : Nat) (s : State) :
    bootView (endMsg m status detail crs dev s) = bootView s := by
  have removed : ∀ x, bootView (removeMsg m.order x) = bootView x := fun _ => rfl
  have dropped : ∀ x, bootView (dropRest m.chan.toNat m.tag (restOfMsg m) x) = bootView x := fun _ => rfl
  unfold endMsg
  dsimp only
  split
  · exact removed s
  · rw [bootView_foldl (fun x _ _ => by exact bootView_complete _ _ x), bootView_complete, dropped, removed]

theorem bootView_cancelMsg (status detail : Nat) (s : State) (m : Msg) :
    bootView (cancelMsg status detail s m) = bootView s := by
  have claimed : ∀ k x, bootView (setUnclaimed k (unclaimed x k + 1) x) = bootView x := fun _ _ => rfl
  have credited : ∀ k x, bootView (setCredits k (min 15 (niCredits x k + 1)) x) = bootView x := fun _ _ => rfl
  exact (bootView_endMsg _ _ _ _ _ _).trans
    ((bootView_iff _ (credited (msgKey m)) _).trans (bootView_iff _ (claimed (msgKey m)) s))

theorem bootView_stopDataPlane (s : State) : bootView (stopDataPlane s) = bootView s := by
  have held : ∀ (w : HeldWrite) (x : State), bootView (endHeld w ccNotRunning 1 0 x) = bootView x := fun w x =>
    (bootView_complete _ _ _).trans rfl
  exact (bootView_foldl (fun x w _ => held w x) _).trans (bootView_foldl (fun x m _ => bootView_cancelMsg _ _ x m) s)

theorem bootView_toLoader (st : LdState) (s : State) :
    bootView (toLoader st s) = { bootView s with ldr := { s.ldr with st := st } } := by
  have shown : ∀ x, bootView (showStep st.code x) = bootView x := fun x => by
    have fields : ∀ a b, bootView (setFld fMbxStep a (setFld fMbxPct b { x with free := x.free + 1 })) = bootView x :=
      fun a b => (bootView_setFld _ _ (by decide)).trans ((bootView_setFld _ _ (by decide)).trans rfl)
    unfold showStep
    dsimp only
    split
    · exact fields _ _
    · exact (bootView_commit _ _ _ _ _).trans (fields _ _)
  exact shown _

/-- A load begins in MANIFEST (R376). -/
theorem bootView_loadStart (j : Job) (s : State) : bootView (loadStart j s) =
    { bootView s with ldr := { s.ldr with st := .manifest, job := some j, passB := false, stream := none } } := by
  have ready : ∀ x y, bootView x = bootView y → bootView (toLoader .manifest x) =
      { bootView y with ldr := { y.ldr with st := .manifest } } := fun x y h => by
    rw [bootView_toLoader, h, show x.ldr = y.ldr from congrArg BootView.ldr h]
  exact ready _ _ (bootView_iff _ bootView_stopDataPlane _)

theorem bootView_refuseLoad (code detail : Nat) (s : State) : bootView (refuseLoad code detail s) = bootView s := by
  have due : ∀ r x, bootView (mbxDue r x) = bootView x := fun _ _ => rfl
  unfold refuseLoad noteVerdict
  rw [due, bootView_setFld _ _ (by decide), bootView_setFld _ _ (by decide), bootView_setFld _ _ (by decide),
    bootView_setFld _ _ (by decide)]

theorem bootView_openLinks (s : State) : bootView (openLinks s) = bootView s := by
  have left : ∀ x n, bootView (leaveOff x n) = bootView x := fun x n => by
    have cause : ∀ y, bootView (setFld (fLnkCause n) lcCommand y) = bootView y := fun y =>
      bootView_setFld _ y (by simp only [fLnkCause, lnkA]; omega)
    unfold leaveOff
    split
    · exact (bootView_iff _ cause _).trans rfl
    · rfl
  exact (bootView_foldl (fun x n _ => left x n) _).trans rfl

/-! The load that the Keeper begins (R363). -/

theorem dirInUse_mbxBegin (s : State) : dirInUse (mbxBegin 0x20 true false 0 s) = dirInUse s :=
  dirInUse_of_view (by rw [bootView_mbxBegin]) (by rw [bootView_mbxBegin])

/-- A load that the Keeper begins keeps MBX busy. -/
theorem bootView_loadBegun (j : Job) (s : State) : bootView (loadStart j (mbxBegin 0x20 true false 0 s)) =
    { bootView s with ldr := { s.ldr with st := .manifest, job := some j, passB := false, stream := none }, busy := true } := by
  have begun := bootView_mbxBegin 0x20 true false 0 s
  have ldr : (mbxBegin 0x20 true false 0 s).ldr = s.ldr := congrArg BootView.ldr begun
  rw [bootView_loadStart, begun, ldr]

theorem loadBars_none {s : State} (e : DirEntry) (hc : s.hlt.clocksBad = false) (hd : flag s fDirConflict = false) :
    loadBars false (some e) s = none := by
  simp [loadBars, hc, hd]

theorem autoload_starts {s : State} {d : DirCopy} {e : DirEntry} (hd : dirInUse s = some d) (ha : d.autoload = true)
    (he : dirEntry s roleCurrent 0 = some e) (hc : s.hlt.clocksBad = false) :
    autoload s = loadStart (bootJob 0 roleCurrent d.autoRelease) (mbxBegin 0x20 true false 0 s) := by
  have clocks : (mbxBegin 0x20 true false 0 s).hlt.clocksBad = false :=
    (congrArg BootView.clocks (bootView_mbxBegin _ _ _ _ s)).trans hc
  have conflict := (dirInUse_some ((dirInUse_mbxBegin s).trans hd)).1
  simp only [autoload, hd, he, ha, loadBars_none e clocks conflict, Bool.not_true, Bool.false_eq_true, if_false]

theorem autoload_skips {s : State} (h : (dirInUse s).any (·.autoload) = false) : autoload s = s := by
  unfold autoload
  split
  · rename_i d e hd he
    rw [hd] at h
    simp [show d.autoload = false from h]
  · rfl

theorem autoload_none {s : State} (h : (dirEntry s roleCurrent 0).isNone = true) : autoload s = s := by
  simp [autoload, Option.isNone_iff_eq_none.mp h]

/-- A load begins, or is refused, or there is none: nothing else that the start-up speaks of changes. -/
structure LoadAtMost (s t : State) : Prop where
  view : bootView t = { bootView s with ldr := t.ldr, busy := t.hif.busy }
  image : t.ldr.image = s.ldr.image
  dir0 : t.ldr.dir0 = s.ldr.dir0
  dir1 : t.ldr.dir1 = s.ldr.dir1

theorem LoadAtMost.of_view {s t : State} {l : Ldr} {b : Bool} (h : bootView t = { bootView s with ldr := l, busy := b })
    (hi : l.image = s.ldr.image) (h0 : l.dir0 = s.ldr.dir0) (h1 : l.dir1 = s.ldr.dir1) : LoadAtMost s t := by
  have hl : t.ldr = l := congrArg BootView.ldr h
  have hb : t.hif.busy = b := congrArg BootView.busy h
  exact ⟨by rw [hl, hb, h], hl ▸ hi, hl ▸ h0, hl ▸ h1⟩

theorem loadAtMost_autoload (s : State) : LoadAtMost s (autoload s) := by
  unfold autoload
  split
  · split
    · exact .of_view rfl rfl rfl rfl
    · dsimp only
      split
      · exact .of_view ((bootView_refuseLoad _ _ _).trans (bootView_mbxBegin _ _ _ _ s)) rfl rfl rfl
      · exact .of_view (bootView_loadBegun _ s) rfl rfl rfl
  · exact .of_view rfl rfl rfl rfl

/-! KEEPER_START (R363). -/

/-- Where the directory names no shell, the Keeper's start is its repairs, the directory made whole, and the load that it
begins by itself; the ports may train unless that load goes on. -/
theorem bootView_keeperStart {s : State} (shell : Option Stream) (code : Nat) (routes : Sparse (BitVec 32))
    (h : (dirEntry s roleShell 0).isNone = true) :
    bootView (keeperStart shell code routes s) = bootView (autoload (repairDir (keeperReady routes s))) := by
  have inUse : dirInUse (repairDir (keeperReady routes s)) = dirInUse s :=
    (dirRepaired_repairDir _).inUse.trans (dirInUse_of_view (by rw [bootView_keeperReady]) (by rw [bootView_keeperReady]))
  have noShell : startShell shell code (repairDir (keeperReady routes s)) = repairDir (keeperReady routes s) :=
    if_pos ((congrArg Option.isNone (dirEntry_of_dirInUse inUse _ _)).trans h)
  have e : keeperStart shell code routes s = if (dirEntry (repairDir (keeperReady routes s)) roleCurrent 0).isNone
      then repairDir (keeperReady routes s)
      else iff (autoload (startShell shell code (repairDir (keeperReady routes s)))).ldr.job.isNone openLinks
        (autoload (startShell shell code (repairDir (keeperReady routes s)))) := rfl
  rw [e, noShell]
  split
  · rw [autoload_none ‹_›]
  · exact bootView_iff _ bootView_openLinks _

/-- What the Keeper's start makes of the package. -/
theorem keeperStart_spec {s : State} (shell : Option Stream) (code : Nat) (routes : Sparse (BitVec 32))
    (h : (dirEntry s roleShell 0).isNone = true) :
    let t := keeperStart shell code routes s
    t.pwr.boot = .up ∧ t.pwr.asleep = false ∧ t.hlt.applied = true ∧
      t.bank = s.bank ∧ t.deep = s.deep ∧ t.slots = s.slots ∧ t.ldr.image = s.ldr.image ∧
      (∀ d, dirInUse s = some d → s.ldr.dir0 ≠ s.ldr.dir1 → t.ldr.dir0 = d ∧ t.ldr.dir1 = d) ∧
      (∀ d e, dirInUse s = some d → d.autoload = true → dirEntry s roleCurrent 0 = some e → s.hlt.clocksBad = false →
        t.ldr.job = some (bootJob 0 roleCurrent d.autoRelease) ∧ t.ldr.st = .manifest ∧ t.hif.busy = true) ∧
      ((dirInUse s).any (·.autoload) = false → t.ldr.job = s.ldr.job ∧ t.ldr.st = s.ldr.st ∧ t.hif.busy = s.hif.busy) := by
  intro t
  obtain ⟨x, hx⟩ : ∃ x, x = keeperReady routes s := ⟨_, rfl⟩
  obtain ⟨u, hu⟩ : ∃ u, u = repairDir x := ⟨_, rfl⟩
  have ends : bootView t = bootView (autoload u) := by
    rw [hu, hx]
    exact bootView_keeperStart shell code routes h
  have ready : bootView x = { bootView s with boot := .up, asleep := false, applied := true } := hx ▸ bootView_keeperReady routes s
  have readyLdr : x.ldr = s.ldr := congrArg BootView.ldr ready
  have readyDir : dirInUse x = dirInUse s := dirInUse_of_view (by rw [ready]) (by rw [ready])
  obtain ⟨repaired, sameImage, sameJob, sameSt, repairedDir, copies⟩ : DirRepaired x u := hu ▸ dirRepaired_repairDir x
  obtain ⟨load, image, dir0, dir1⟩ := loadAtMost_autoload u
  have inUse := repairedDir.trans readyDir
  have all : bootView t = { bootView s with
      boot := .up, asleep := false, applied := true, ldr := (autoload u).ldr, busy := (autoload u).hif.busy,
      dir := reg u 0x50030 } := by rw [ends, load, repaired, ready]
  have ldr : t.ldr = (autoload u).ldr := congrArg BootView.ldr all
  have busy : t.hif.busy = (autoload u).hif.busy := congrArg BootView.busy all
  rw [ldr, busy]
  rw [readyLdr] at sameImage sameJob sameSt copies
  refine ⟨congrArg BootView.boot all, congrArg BootView.asleep all, congrArg BootView.applied all,
    congrArg BootView.bank all, congrArg BootView.deep all, congrArg BootView.slots all,
    image.trans sameImage, fun d hd hne => ?_, fun d e hd ha he hc => ?_, fun hn => ?_⟩
  · obtain ⟨h0, h1⟩ := copies d (readyDir.trans hd) hne
    exact ⟨dir0.trans h0, dir1.trans h1⟩
  · have clocks : u.hlt.clocksBad = s.hlt.clocksBad :=
      (congrArg BootView.clocks repaired).trans (congrArg BootView.clocks ready)
    have begun := bootView_loadBegun (bootJob 0 roleCurrent d.autoRelease) u
    rw [autoload_starts (inUse.trans hd) ha ((dirEntry_of_dirInUse inUse _ _).trans he) (clocks.trans hc)]
    exact ⟨congrArg (·.ldr.job) begun, congrArg (·.ldr.st) begun, congrArg BootView.busy begun⟩
  · rw [autoload_skips (inUse ▸ hn)]
    exact ⟨sameJob, sameSt, (congrArg BootView.busy repaired).trans (congrArg BootView.busy ready)⟩

end Sys2Proof.Machine
end

section
/-! PROOFS. StartsUp (R16, R182, R354, R360, R362, R363, R521, R522). -/

namespace Sys2Proof.Machine

theorem exec_unknownSlice {k : BitVec 6} (us : BitVec 15) (s : State) (h : 0x23 ≤ k.toNat) :
    exec (.postSlice k true us [] []) s = .fault .noSuchUnit ∧ exec (.incomplete k) s = .fault .noSuchUnit :=
  ⟨forUnit_false _ (by simpa using h), forUnit_false _ (by simpa using h)⟩

/-- Deep memory is zero once DMEM is initialised (R182). -/
theorem exec_dmemInitDone {s : State}
    (h : (flag s fPostDone && s.ldr.stage == 0 && !flag s fDmemInit && fld s fDomDmem == 0) = true) :
    exec .dmemInitDone s = .next (retryStart (setFlag fDmemInit true { s with deep := [] })) := whenever_true _ _ h

theorem dmemInitDone_zeroes {s : State}
    (h : (flag s fPostDone && s.ldr.stage == 0 && !flag s fDmemInit && fld s fDomDmem == 0) = true) (hw : s.cox.st ≠ .wait) :
    Answers .dmemInitDone s fun t => flag t fDmemInit = true ∧ t = { s with deep := [], regs := t.regs } :=
  .of_next ((exec_dmemInitDone h).trans (congrArg _ (retryStart_of_not_wait hw)))
    ⟨flag_setFlag true _ (by decide) (by decide), rfl⟩

/-- The copies of the directory stand in flash unless BOOT_ROM_START says what stands there instead. -/
theorem exec_bootRomStart {s : State} (o0 o1 : Option DirCopy) (keys : List KeyRead) (fw0 fw1 : Option (Stream × Bool))
    (leaf : Option (BitVec 16)) (h : s.pwr.boot = .rom) : exec (.bootRomStart o0 o1 keys fw0 fw1 leaf) s =
      .next (bootRom (o0.getD s.ldr.dir0) (o1.getD s.ldr.dir1) keys fw0 fw1 (leaf.getD s.ldr.lmsRec) s) :=
  whenever_true _ _ (by simp [h])

/-- Settles O43: each clause is a lemma above on the command that it names. -/
theorem startsUp : Obligations.StartsUp := by
  unfold Obligations.StartsUp
  refine ⟨fun s k pass us bad fs hk hs => ⟨?_, ?_⟩, fun s k us h => exec_unknownSlice us s h, fun s h => whenever_true _ _ h,
    fun s h => ⟨dmemInitDone_zeroes h, exec_dmemInitDone h⟩, fun s o0 o1 keys fw0 fw1 leaf hb => ?_,
    fun s shell code routes hb h => .of_next (whenever_true _ _ (by simp [hb])) (keeperStart_spec shell code.toNat routes h)⟩
  · refine .of_next (exec_postSlice pass us bad fs hk hs) ?_
    cases pass
    · obtain ⟨e, failed⟩ := postSlice_fails (bad.map BitVec.toNat) fs s hk us.isLt
      exact ⟨e.result, e.time, fun _ => failed, fun _ h0 => postSlice_fails_clocks _ _ s h0,
        fun _ h4 h14 f hf hn => postSlice_fails_soft _ _ s h4 h14 hf hn, ⟨e.boot, e.dwell, e.done, e.design, e.cox⟩⟩
    · have e := postSlice_passes (bad.map BitVec.toNat) fs s hk us.isLt
      exact ⟨e.result, e.time, nofun, nofun, nofun, ⟨e.boot, e.dwell, e.done, e.design, e.cox⟩⟩
  · have e := incomplete_ends s hk
    exact .of_next (exec_incomplete hk hs) ⟨e.result, e.time, e.boot, e.dwell, e.done, e.design, e.cox⟩
  · intro d0 d1 f0 f1 both starts
    have hx := exec_bootRomStart o0 o1 keys fw0 fw1 leaf hb
    have start : ∀ (c : Nat) (clash : Bool), c < 2 → chooseDir d0 d1 f0 f1 = (some c, clash) →
        firmwareOk (resolveKeys keys s) (if c = 0 then d0 else d1) (if c = 0 then fw0 else fw1) = true →
        starts (if clash then 0 else c) clash (if c = 0 then fw0 else fw1) := fun c clash hc h ok => by
      have e := bootRom_starts (leaf.getD s.ldr.lmsRec) hc h ok
      exact .of_next hx ⟨e.boot, e.use, e.conflict, e.recovery, e.dir0, e.dir1, e.version, e.cox, e.design, e.slots⟩
    refine ⟨fun hv hd ok => start 0 false (by decide) (chooseDir_same hv hd) ok,
      fun hv hq ok => start 1 false (by decide) (chooseDir_later hv hq) ok,
      fun hv hq ok => start 0 false (by decide) (chooseDir_earlier hv hq) ok,
      fun h0 h1 ok => start 0 false (by decide) (chooseDir_left h0 h1) ok,
      fun h0 h1 ok => start 1 false (by decide) (chooseDir_right h0 h1) ok,
      fun hv hd hq ok hn => start 0 true (by decide) (chooseDir_clash_left hv hd hq ok hn) ok,
      fun hv hd hq ok hn => start 1 true (by decide) (chooseDir_clash_right hv hd hq ok hn) ok, fun h => ?_⟩
    have e := bootRom_recovers (leaf.getD s.ldr.lmsRec) h
    exact .of_next hx ⟨e.boot, e.pin, e.flagged, e.cox, e.design⟩

end Sys2Proof.Machine
end

section
/-! PROOFS. The check-bit code of R41: parity and Hamming bits are linear in the word, so that the syndrome of a flipped
codeword is the sum of the columns of its flipped bits. -/

namespace Sys2Proof.Machine

/-! Parity. -/

theorem parityN_succ (n x : Nat) : parityN (n + 1) x = parityN n x ^^^ ((x >>> n) % 2) := by
  simp [parityN, List.range_succ]

theorem parityN_none (x : Nat) : parityN 0 x = 0 := rfl

theorem parityN_xor (n x y : Nat) : parityN n (x ^^^ y) = parityN n x ^^^ parityN n y := by
  induction n with
  | zero => simp only [parityN_none, Nat.xor_self]
  | succ n ih =>
    have bit : ((x ^^^ y) >>> n) % 2 = ((x >>> n) % 2) ^^^ ((y >>> n) % 2) := by
      rw [Nat.shiftRight_xor_distrib]
      exact Nat.xor_mod_two_pow (n := 1)
    rw [parityN_succ, parityN_succ, parityN_succ, ih, bit]
    ac_rfl

theorem parityN_zero_word (n : Nat) : parityN n 0 = 0 := by
  induction n with
  | zero => rfl
  | succ n ih => rw [parityN_succ, ih, Nat.zero_shiftRight, Nat.zero_mod, Nat.xor_self]

theorem parityN_lt (n x : Nat) : parityN n x < 2 := by
  induction n with
  | zero => exact Nat.two_pos
  | succ n ih =>
    rw [parityN_succ]
    exact Nat.xor_lt_two_pow (n := 1) ih (Nat.mod_lt _ (by decide))

/-- Parity over two fields laid side by side. -/
theorem parityN_append {m a : Nat} (n b : Nat) (ha : a < 2 ^ m) :
    parityN (m + n) (a + b * 2 ^ m) = parityN m a ^^^ parityN n b := by
  have low : ∀ k ≤ m, parityN k (a + b * 2 ^ m) = parityN k a := fun k => by
    induction k with
    | zero => exact fun _ => rfl
    | succ k ih =>
      intro hk
      have bit : (a + b * 2 ^ m).testBit k = a.testBit k := by
        rw [Nat.add_comm, Nat.mul_comm, Nat.testBit_two_pow_mul_add _ ha, if_pos (by omega)]
      have := congrArg Bool.toNat bit
      rw [Nat.toNat_testBit, Nat.toNat_testBit] at this
      rw [parityN_succ, parityN_succ, ih (by omega), Nat.shiftRight_eq_div_pow, Nat.shiftRight_eq_div_pow, this]
  induction n with
  | zero => rw [Nat.add_zero, parityN_none, Nat.xor_zero, low m le_rfl]
  | succ n ih =>
    have bit : (a + b * 2 ^ m) >>> (m + n) = b >>> n := by
      rw [Nat.shiftRight_add, Nat.shiftRight_eq_div_pow _ m, Nat.add_mul_div_right _ _ (by positivity),
        Nat.div_eq_of_lt ha, Nat.zero_add]
    rw [← Nat.add_assoc, parityN_succ, ih, bit, parityN_succ, Nat.xor_assoc]

theorem parityN_one {q : Nat} (h : q < 2) : parityN 1 q = q := by
  rw [parityN_succ]
  simp [parityN, Nat.mod_eq_of_lt h]

theorem parityN_two_pow {n i : Nat} (h : i < n) : parityN n (2 ^ i) = 1 := by
  have split : parityN (i + (n - i)) (0 + 2 ^ 0 * 2 ^ i) = 1 := by
    have one : ∀ k, parityN (k + 1) 1 = 1 := fun k => by
      induction k with
      | zero => rfl
      | succ k ih => rw [parityN_succ, ih, Nat.shiftRight_eq_div_pow, Nat.div_eq_of_lt (Nat.one_lt_two_pow (by omega)),
        Nat.zero_mod, Nat.xor_zero]
    obtain ⟨k, hk⟩ : ∃ k, n - i = k + 1 := ⟨n - i - 1, by omega⟩
    rw [parityN_append _ _ (by positivity), parityN_zero_word, hk, Nat.zero_xor, pow_zero, one]
  simpa [Nat.add_sub_cancel' h.le] using split

/-! Hamming bits. -/

/-- The sum of the columns `hs` whose bits are set in `d`. -/
def hamSum : List Nat → Nat → Nat
  | [], _ => 0
  | h :: hs, d => (if d % 2 = 1 then h else 0) ^^^ hamSum hs (d / 2)

theorem hamming_eq_hamSum (k d : Nat) : hamming k d = hamSum (hPos.take k) d := by
  have fold : ∀ (hs : List Nat) (a d : Nat), (hs.foldl (fun (acc : Nat × Nat) h =>
      ((if acc.2 % 2 = 1 then acc.1 ^^^ h else acc.1), acc.2 / 2)) (a, d)).1 = a ^^^ hamSum hs d := by
    intro hs
    induction hs with
    | nil => exact fun a d => (Nat.xor_zero a).symm
    | cons h hs ih =>
      intro a d
      rw [List.foldl_cons, ih, hamSum]
      split
      · rw [Nat.xor_assoc]
      · rw [Nat.zero_xor]
  rw [hamming, fold, Nat.zero_xor]

theorem hamSum_xor (hs : List Nat) (x y : Nat) : hamSum hs (x ^^^ y) = hamSum hs x ^^^ hamSum hs y := by
  induction hs generalizing x y with
  | nil => exact (Nat.xor_self 0).symm
  | cons h hs ih =>
    have half : (x ^^^ y) / 2 = x / 2 ^^^ y / 2 := Nat.xor_div_two_pow (n := 1)
    have low : (if (x ^^^ y) % 2 = 1 then h else 0) = (if x % 2 = 1 then h else 0) ^^^ (if y % 2 = 1 then h else 0) := by
      rw [show (x ^^^ y) % 2 = x % 2 ^^^ y % 2 from Nat.xor_mod_two_pow (n := 1)]
      rcases Nat.mod_two_eq_zero_or_one x with hx | hx <;> rcases Nat.mod_two_eq_zero_or_one y with hy | hy <;>
        simp [hx, hy]
    rw [hamSum, hamSum, hamSum, half, ih, low]
    ac_rfl

theorem hamSum_zero_word (hs : List Nat) : hamSum hs 0 = 0 := by
  induction hs with
  | nil => rfl
  | cons h hs ih => simpa [hamSum] using ih

/-- A word with one bit set sums one column. -/
theorem hamSum_two_pow {hs : List Nat} {i : Nat} (h : i < hs.length) : hamSum hs (2 ^ i) = hs[i] := by
  induction hs generalizing i with
  | nil => cases h
  | cons c hs ih =>
    cases i with
    | zero => simp [hamSum, hamSum_zero_word]
    | succ i => simpa [hamSum, Nat.pow_succ] using ih (Nat.lt_of_succ_lt_succ h)

theorem hamSum_lt {n : Nat} {hs : List Nat} (h : ∀ x ∈ hs, x < 2 ^ n) (d : Nat) : hamSum hs d < 2 ^ n := by
  induction hs generalizing d with
  | nil => exact Nat.two_pow_pos n
  | cons c hs ih =>
    refine Nat.xor_lt_two_pow ?_ (ih (fun x hx => h x (List.mem_cons_of_mem _ hx)) _)
    split
    · exact h c List.mem_cons_self
    · exact Nat.two_pow_pos n

theorem hamming_lt (d : Nat) : hamming 64 d < 2 ^ 7 := by
  rw [hamming_eq_hamSum]
  exact hamSum_lt (by decide) d

theorem hamming_zero_word (k : Nat) : hamming k 0 = 0 := by rw [hamming_eq_hamSum, hamSum_zero_word]

/-! Codewords of 64 data bits: data, Hamming bits from 64, and the parity bit at 71. -/

/-- The overall parity bit of the codeword of `d`. -/
def parityBit (d : Nat) : Nat := parityN 64 d ^^^ parityN 7 (hamming 64 d)

theorem parityBit_lt (d : Nat) : parityBit d < 2 := Nat.xor_lt_two_pow (n := 1) (parityN_lt _ _) (parityN_lt _ _)

/-- The zero word needs no case of its own. -/
theorem encodeEcc_eq {d : Nat} (h : d < 2 ^ 64) :
    encodeEcc 64 7 d = d + (hamming 64 d + parityBit d * 2 ^ 7) * 2 ^ 64 := by
  unfold encodeEcc
  dsimp only
  rw [Nat.mod_eq_of_lt h]
  split
  · rename_i h0
    subst h0
    simp [parityBit, hamming_zero_word, parityN_zero_word]
  · rw [parityBit]
    ring

theorem encodeEcc_lt {d : Nat} (h : d < 2 ^ 64) : encodeEcc 64 7 d < 2 ^ 72 := by
  have := hamming_lt d
  have := parityBit_lt d
  rw [encodeEcc_eq h]
  omega

theorem encodeEcc_mod {d : Nat} (h : d < 2 ^ 64) : encodeEcc 64 7 d % 2 ^ 64 = d := by
  rw [encodeEcc_eq h, Nat.add_mul_mod_self_right, Nat.mod_eq_of_lt h]

/-- The seven syndrome bits of a word (R41). -/
def syndromeOf (w : Nat) : Nat := (w / 2 ^ 64 % 2 ^ 7) ^^^ hamming 64 (w % 2 ^ 64)

theorem syndromeOf_xor (x y : Nat) : syndromeOf (x ^^^ y) = syndromeOf x ^^^ syndromeOf y := by
  simp only [syndromeOf, Nat.xor_div_two_pow, Nat.xor_mod_two_pow, hamming_eq_hamSum, hamSum_xor]
  ac_rfl

theorem syndromeOf_encodeEcc {d : Nat} (h : d < 2 ^ 64) : syndromeOf (encodeEcc 64 7 d) = 0 := by
  have stored : encodeEcc 64 7 d / 2 ^ 64 % 2 ^ 7 = hamming 64 d := by
    have := hamming_lt d
    rw [encodeEcc_eq h]
    omega
  rw [syndromeOf, stored, encodeEcc_mod h, Nat.xor_self]

theorem parity_encodeEcc {d : Nat} (h : d < 2 ^ 64) : parityN 72 (encodeEcc 64 7 d) = 0 := by
  rw [encodeEcc_eq h, show 72 = 64 + (7 + 1) from rfl, parityN_append _ _ h, parityN_append _ _ (hamming_lt d),
    parityN_one (parityBit_lt d), parityBit, ← Nat.xor_assoc, Nat.xor_self]

/-- The syndromes of the 72 single bits: the columns of the data bits, of the Hamming bits and of the parity bit. -/
def columns : List Nat := hPos ++ (List.range 7).map (2 ^ ·) ++ [0]

theorem columns_length : columns.length = 72 := by decide

theorem columns_nodup : columns.Nodup := by decide

theorem columns_data {i : Nat} (h : i < 64) :
    columns[i]'(by rw [columns_length]; omega) = hPos[i]'(by decide +revert) := by
  have : i < hPos.length := h.trans_eq (by decide)
  simp [columns, this, List.getElem_append_left]

theorem syndromeOf_two_pow {i : Nat} (h : i < 72) : syndromeOf (2 ^ i) = columns[i]'(h.trans_eq columns_length.symm) := by
  by_cases hd : i < 64
  · have data : 2 ^ i < 2 ^ 64 := Nat.pow_lt_pow_right (by decide) hd
    rw [syndromeOf, Nat.div_eq_of_lt data, Nat.mod_eq_of_lt data, Nat.zero_mod, Nat.zero_xor, hamming_eq_hamSum,
      columns_data hd]
    exact hamSum_two_pow (hs := hPos) (h := hd.trans_eq (by decide))
  · have check : ∀ j < 8, syndromeOf (2 ^ (64 + j)) = columns.getD (64 + j) 0 := by decide
    have := check (i - 64) (by omega)
    rwa [Nat.add_sub_cancel' (by omega), List.getD_eq_getElem] at this

/-! What a check finds. -/

/-- The check in terms of the syndrome and the parity of the word. -/
theorem checkEcc_eq (w : Nat) : checkEcc 64 7 w =
    if syndromeOf w = 0 ∧ parityN 72 w = 0 then ⟨.clean, w % 2 ^ 64, w, parityN 72 w * 2 ^ 7 + syndromeOf w⟩
    else if parityN 72 w = 1 then
      if syndromeOf w = 0 ∨ (List.range 7).any (fun i => decide (syndromeOf w = 2 ^ i)) then
        ⟨.fixed, w % 2 ^ 64, encodeEcc 64 7 (w % 2 ^ 64), parityN 72 w * 2 ^ 7 + syndromeOf w⟩
      else match hPos.idxOf? (syndromeOf w) with
        | some j => ⟨.fixed, w % 2 ^ 64 ^^^ 2 ^ j, encodeEcc 64 7 (w % 2 ^ 64 ^^^ 2 ^ j),
            parityN 72 w * 2 ^ 7 + syndromeOf w⟩
        | none => ⟨.bad, w % 2 ^ 64, w, parityN 72 w * 2 ^ 7 + syndromeOf w⟩
    else ⟨.bad, w % 2 ^ 64, w, parityN 72 w * 2 ^ 7 + syndromeOf w⟩ := rfl

theorem checkEcc_clean {w : Nat} (hs : syndromeOf w = 0) (hp : parityN 72 w = 0) :
    checkEcc 64 7 w = ⟨.clean, w % 2 ^ 64, w, 0⟩ := by
  rw [checkEcc_eq, if_pos ⟨hs, hp⟩, hs, hp, Nat.zero_mul]

theorem checkEcc_even {w : Nat} (hs : syndromeOf w ≠ 0) (hp : parityN 72 w = 0) : (checkEcc 64 7 w).cls = .bad := by
  rw [checkEcc_eq, if_neg fun e => hs e.1, if_neg (by omega)]

/-- An odd word whose syndrome is that of a check bit has sound data. -/
theorem checkEcc_odd_check {w : Nat} (hs : syndromeOf w = 0 ∨ ∃ i < 7, syndromeOf w = 2 ^ i) (hp : parityN 72 w = 1) :
    (checkEcc 64 7 w).cls = .fixed ∧ (checkEcc 64 7 w).data = w % 2 ^ 64 ∧
      (checkEcc 64 7 w).word = encodeEcc 64 7 (w % 2 ^ 64) := by
  rw [checkEcc_eq, if_neg (by omega), if_pos hp, if_pos (by simpa using hs)]
  exact ⟨rfl, rfl, rfl⟩

/-- An odd word whose syndrome is that of data bit `i` has that bit wrong. -/
theorem checkEcc_odd_data {w i : Nat} (hi : i < hPos.length) (hs : syndromeOf w = hPos[i]) (hp : parityN 72 w = 1) :
    (checkEcc 64 7 w).cls = .fixed ∧ (checkEcc 64 7 w).data = w % 2 ^ 64 ^^^ 2 ^ i ∧
      (checkEcc 64 7 w).word = encodeEcc 64 7 (w % 2 ^ 64 ^^^ 2 ^ i) := by
  have noCheck : ∀ x ∈ hPos, ¬ (x = 0 ∨ (List.range 7).any (fun i => decide (x = 2 ^ i))) := by decide
  have found : hPos.idxOf? (syndromeOf w) = some i := by
    have nd : hPos.Nodup := List.nodup_range.filter _
    refine List.idxOf?_eq_some_iff.mpr ⟨hi, hs.symm, fun j hj e => ?_⟩
    have := nd.getElem_inj_iff.mp (e.trans hs)
    omega
  rw [checkEcc_eq, if_neg (by omega), if_pos hp, if_neg (hs ▸ noCheck _ (List.getElem_mem hi)), found]
  exact ⟨rfl, rfl, rfl⟩

/-! Flipped codewords. -/

section
variable {d : Nat} (hd : d < 2 ^ 64)
include hd

theorem checkEcc_encodeEcc : checkEcc 64 7 (encodeEcc 64 7 d) = ⟨.clean, d, encodeEcc 64 7 d, 0⟩ := by
  rw [checkEcc_clean (syndromeOf_encodeEcc hd) (parity_encodeEcc hd), encodeEcc_mod hd]

theorem checkEcc_flip_one {i : Nat} (hi : i < 72) :
    (checkEcc 64 7 (encodeEcc 64 7 d ^^^ 2 ^ i)).cls = .fixed ∧ (checkEcc 64 7 (encodeEcc 64 7 d ^^^ 2 ^ i)).data = d ∧
      (checkEcc 64 7 (encodeEcc 64 7 d ^^^ 2 ^ i)).word = encodeEcc 64 7 d := by
  have odd : parityN 72 (encodeEcc 64 7 d ^^^ 2 ^ i) = 1 := by
    rw [parityN_xor, parity_encodeEcc hd, parityN_two_pow hi, Nat.zero_xor]
  have synd : syndromeOf (encodeEcc 64 7 d ^^^ 2 ^ i) = columns[i]'(hi.trans_eq columns_length.symm) := by
    rw [syndromeOf_xor, syndromeOf_encodeEcc hd, syndromeOf_two_pow hi, Nat.zero_xor]
  have data : (encodeEcc 64 7 d ^^^ 2 ^ i) % 2 ^ 64 = d ^^^ 2 ^ i % 2 ^ 64 := by
    rw [Nat.xor_mod_two_pow, encodeEcc_mod hd]
  by_cases h64 : i < 64
  · rw [Nat.mod_eq_of_lt (Nat.pow_lt_pow_right (by decide) h64)] at data
    have fixed := checkEcc_odd_data (h64.trans_eq (by decide)) (synd.trans (columns_data h64)) odd
    rwa [data, Nat.xor_assoc, Nat.xor_self, Nat.xor_zero] at fixed
  · have checks : ∀ j < 8, columns.getD (64 + j) 0 = 0 ∨ ∃ k < 7, columns.getD (64 + j) 0 = 2 ^ k := by decide
    have check := checks (i - 64) (by omega)
    rw [Nat.add_sub_cancel' (by omega), List.getD_eq_getElem _ _ (hi.trans_eq columns_length.symm), ← synd] at check
    have fixed := checkEcc_odd_check check odd
    rwa [data, Nat.mod_eq_zero_of_dvd (Nat.pow_dvd_pow 2 (by omega)), Nat.xor_zero] at fixed

theorem checkEcc_flip_two {i j : Nat} (hij : i < j) (hj : j < 72) :
    (checkEcc 64 7 (encodeEcc 64 7 d ^^^ 2 ^ i ^^^ 2 ^ j)).cls = .bad := by
  have hi : i < 72 := hij.trans hj
  refine checkEcc_even ?_ ?_
  · rw [syndromeOf_xor, syndromeOf_xor, syndromeOf_encodeEcc hd, syndromeOf_two_pow hi, syndromeOf_two_pow hj,
      Nat.zero_xor, Ne, Nat.xor_eq_zero_iff, columns_nodup.getElem_inj_iff]
    exact hij.ne
  · rw [parityN_xor, parityN_xor, parity_encodeEcc hd, parityN_two_pow hi, parityN_two_pow hj, Nat.zero_xor, Nat.xor_self]

end

theorem check72_eq (w : BitVec 72) : check72 w = checkEcc 64 7 w.toNat := by
  unfold check72
  split
  · rename_i h
    rw [h]
    exact (checkEcc_clean (w := 0) (by decide) (by decide)).symm
  · rfl

theorem toNat_encode72 (d : BitVec 64) : (encode72 d).toNat = encodeEcc 64 7 d.toNat :=
  Nat.mod_eq_of_lt (encodeEcc_lt d.isLt)

theorem toNat_flip {i : Nat} (w : BitVec 72) (h : i < 72) : (w ^^^ BitVec.ofNat 72 (2 ^ i)).toNat = w.toNat ^^^ 2 ^ i := by
  rw [BitVec.toNat_xor, BitVec.toNat_ofNat, Nat.mod_eq_of_lt (Nat.pow_lt_pow_right (by decide) h)]

end Sys2Proof.Machine

namespace Sys2Proof

open Machine

/-- Settles O6: the columns of the code are 72 different ones, and parity tells one flip from two. -/
theorem checkBits : Obligations.CheckBits := by
  unfold Obligations.CheckBits
  refine ⟨fun d i hi => ?_, fun d i j hij hj => ?_⟩
  · obtain ⟨cls, data, word⟩ := checkEcc_flip_one d.isLt hi
    simp only [check72_eq, toNat_flip _ hi, toNat_encode72, checkEcc_encodeEcc d.isLt]
    exact ⟨trivial, trivial, cls, data, congrArg (BitVec.ofNat 72) word⟩
  · rw [check72_eq, toNat_flip _ hj, toNat_flip _ (hij.trans hj), toNat_encode72]
    exact checkEcc_flip_two d.isLt hij hj

end Sys2Proof
end

section
/-! PROOFS. One BP executes a word (R21 to R43): what a sound word and an uncorrectable one do, and what the write of slot
*s* stores. -/

namespace Sys2Proof.Machine

/-! Values. -/

theorem readVal_readVal (s : State) (v : BitVec 2) : readVal s (readVal s v) = readVal s v := by
  unfold readVal
  split
  · rw [BitVec.and_assoc, BitVec.and_self]
  · rfl

/-- A slot holds what the mode reads of it. -/
theorem readVal_slot (s : State) (p c b j : Nat) : readVal s (slot s p c b j) = slot s p c b j := readVal_readVal s _

/-- An operand is as the mode reads it. -/
theorem readVal_operand (s : State) (p c b st sel : Nat) : readVal s (operand s p c b st sel) = operand s p c b st sel := by
  unfold operand
  split
  · exact readVal_slot s _ _ _ _
  · exact readVal_readVal s _

theorem setWidth_ofBool_and_one (f : Bool) : (BitVec.ofBool f).setWidth 2 &&& 1 = (BitVec.ofBool f).setWidth 2 := by
  cases f <;> rfl

/-- A table's value is as the mode reads it. -/
theorem readVal_evalTable {n : Nat} (s : State) (tt : BitVec n) (ins : List (BitVec 2)) :
    readVal s (evalTable (valsOf s) tt ins) = evalTable (valsOf s) tt ins := by
  unfold readVal
  cases valsOf s
  · exact setWidth_ofBool_and_one _
  · rfl
  · rfl

/-- A held value is as the mode reads it, if what it is chosen from is. -/
theorem readVal_holdValue {s : State} {f old : BitVec 2} (en : BitVec 2) (hf : readVal s f = f)
    (ho : readVal s old = old) : readVal s (holdValue (valsOf s) f en old) = holdValue (valsOf s) f en old := by
  cases hk : valsOf s with
  | one =>
    unfold holdValue
    dsimp only
    split
    · exact hf
    · exact ho
  | pair => simp [readVal, hk]
  | four => simp [readVal, hk]

/-- In the one-value modes a table reads the bit that its operands select (R30). -/
theorem evalTable_one {n : Nat} (tt : BitVec n) (ins : List (BitVec 2)) :
    evalTable .one tt ins = if tt.getLsbD (index 0 ins) then 1 else 0 := by
  unfold evalTable
  dsimp only
  cases tt.getLsbD (index 0 ins) <;> rfl

theorem toNat_getLsbD_zero (v : BitVec 2) : (v.getLsbD 0).toNat = v.toNat % 2 := by
  rw [BitVec.getLsbD, Nat.toNat_testBit, pow_zero, Nat.div_one]

/-! A command of a BP. -/

/-- The state in which the effect of a BP's word is performed: the BP is marked as executed. -/
abbrev marked (s : State) (p : Pav) (c : Crew) (b : Bp) : State := markRetired (bpIndex p.toNat c.toNat b.toNat) s

section
variable {s : State} {p : Pav} {c : Crew} {b : Bp}

/-- A sound word of its class performs its effect and nothing else. -/
theorem execBp_sound {op : Nat} (eff : Nat → State → State) (h : bpSound s p c b op = true) :
    execBp op p c b eff s = .next (eff (bpWord s p c b) (marked s p c b)) := by
  simp only [bpSound, Bool.and_eq_true, beq_iff_eq, Bool.not_eq_true'] at h
  obtain ⟨⟨⟨ready, plain⟩, clean⟩, hop⟩ := h
  have is : wordIs s p.toNat c.toNat b.toNat op = true := by
    simp only [wordIs, clean]
    simp [show opOf (readSched s p.toNat c.toNat b.toNat s.cox.stroke).data = op from hop]
  have step : bpStep p.toNat c.toNat b.toNat eff s = eff (bpWord s p c b) (marked s p c b) := by
    unfold bpStep
    simp only [clean, plain]
    rfl
  rw [execBp, whenever_true _ _ (by rw [ready, is]; rfl), step]

/-- An uncorrectable word performs what R43 says. -/
theorem execBp_broken (op : Nat) (eff : Nat → State → State) (h : bpBroken s p c b = true) :
    execBp op p c b eff s = .next (badWord p.toNat c.toNat b.toNat (readSched s p.toNat c.toNat b.toNat s.cox.stroke) false
      (marked s p c b)) := by
  simp only [bpBroken, Bool.and_eq_true, beq_iff_eq, Bool.not_eq_true'] at h
  obtain ⟨⟨ready, plain⟩, bad⟩ := h
  have is : wordIs s p.toNat c.toNat b.toNat op = true := by simp [wordIs, bad]
  have step : bpStep p.toNat c.toNat b.toNat eff s = badWord p.toNat c.toNat b.toNat
      (readSched s p.toNat c.toNat b.toNat s.cox.stroke) false (marked s p c b) := by
    unfold bpStep
    simp only [bad, plain]
    rfl
  rw [execBp, whenever_true _ _ (by rw [ready, is]; rfl), step]

/-! The write of slot *s*. -/

/-- Slot *s* of the BP holds `v`, and nothing else has changed but the BP's mark. -/
def SlotOnly (s t : State) (p : Pav) (c : Crew) (b : Bp) (v : BitVec 2) : Prop :=
  WritesSlot s t p c b v ∧
    t = { s with slots := t.slots, fab := { s.fab with retired := retiredNow s p c b, past := t.fab.past } }

theorem writesSlot_of {t : State} {v : BitVec 2} (hm : t.cox.mode = s.cox.mode) (hs : t.slots = ins s.slots (nowSlot s p c b) v)
    (hv : readVal s v = v) : WritesSlot s t p c b v := by
  have vals : valsOf t = valsOf s := by rw [valsOf, valsOf, hm]
  refine ⟨?_, fun k hk => by rw [hs, find_ins, if_neg hk]⟩
  rw [slot, cell, hs, show slotKey p.toNat c.toNat b.toNat s.cox.stroke = nowSlot s p c b from rfl, find_ins, if_pos rfl,
    readVal, vals]
  exact hv

/-- Before release stage 2 no slot is written (R378). -/
theorem writeSlot_unreleased {x : State} {q c b : Nat} (v : BitVec 2) (h : stageOf x q = 0) : writeSlot q c b v x = x := by
  simp [writeSlot, h]

/-- From release stage 2 on the write happens. -/
theorem writeSlot_released (v : BitVec 2) (hr : released s p 2 = true) :
    writeSlot p.toNat c.toNat b.toNat v (marked s p c b) = { s with
      slots := ins s.slots (nowSlot s p c b) v,
      fab := { s.fab with
        retired := retiredNow s p c b,
        past := ins s.fab.past (nowSlot s p c b) (cell s p.toNat c.toNat b.toNat s.cox.stroke) } } := by
  have stage : decide (2 ≤ stageOf (marked s p c b) p.toNat) = true := hr
  unfold writeSlot
  dsimp only
  rw [stage]
  rfl

theorem slotOnly_writeSlot {v : BitVec 2} (hr : released s p 2 = true) (hv : readVal s v = v) :
    SlotOnly s (writeSlot p.toNat c.toNat b.toNat v (marked s p c b)) p c b v := by
  rw [writeSlot_released v hr]
  exact ⟨writesSlot_of rfl rfl hv, rfl⟩

/-- A slot that already holds the value is written by leaving it. -/
theorem slotOnly_kept {v : BitVec 2} (hv : v = slot s p.toNat c.toNat b.toNat s.cox.stroke) :
    SlotOnly s (marked s p c b) p c b v := ⟨⟨hv.symm, fun _ _ => rfl⟩, rfl⟩

end

end Sys2Proof.Machine
end

section
/-! PROOFS. EVAL and EVAL_HOLD (R30, R31): the bit of the truth table that the operands select. -/

namespace Sys2Proof.Machine

section
variable (s : State) (p c b w : Nat)

/-- The bit of an operand of the word in the one-value modes. -/
abbrev operandBit (sel : Nat) : Nat := (operand s p c b s.cox.stroke sel).toNat % 2

theorem index_operands : index 0 (operands s p c b w) = 8 * operandBit s p c b (opdOf w) +
    (4 * operandBit s p c b (opcOf w) + 2 * operandBit s p c b (opbOf w) + operandBit s p c b (opaOf w)) := by
  simp only [operands, index, toNat_getLsbD_zero, operandBit]
  omega

theorem index_operands_three : index 0 ((operands s p c b w).take 3) =
    4 * operandBit s p c b (opcOf w) + 2 * operandBit s p c b (opbOf w) + operandBit s p c b (opaOf w) := by
  simp only [operands, List.take, index, toNat_getLsbD_zero, operandBit]
  omega

/-- EVAL's value in the one-value modes (R30). -/
theorem evalTable_operands : evalTable .one (BitVec.ofNat 16 (ttOf w)) (operands s p c b w) =
    if (ttOf w).testBit (8 * operandBit s p c b (opdOf w) + (4 * operandBit s p c b (opcOf w) +
      2 * operandBit s p c b (opbOf w) + operandBit s p c b (opaOf w))) then 1 else 0 := by
  have fits : 8 * operandBit s p c b (opdOf w) + (4 * operandBit s p c b (opcOf w) +
      2 * operandBit s p c b (opbOf w) + operandBit s p c b (opaOf w)) < 16 := by
    unfold operandBit
    omega
  rw [evalTable_one, index_operands, BitVec.getLsbD_ofNat, decide_eq_true fits, Bool.true_and]

/-- EVAL_HOLD's value in the one-value modes (R31). -/
theorem holdValue_operands (old : BitVec 2) : holdValue .one
    (evalTable .one (BitVec.ofNat 8 (ttOf w)) ((operands s p c b w).take 3)) (operand s p c b s.cox.stroke (opdOf w)) old =
    if operandBit s p c b (opdOf w) = 1 then (if (ttOf w).testBit (4 * operandBit s p c b (opcOf w) +
      2 * operandBit s p c b (opbOf w) + operandBit s p c b (opaOf w)) then 1 else 0) else old := by
  have fits : 4 * operandBit s p c b (opcOf w) + 2 * operandBit s p c b (opbOf w) + operandBit s p c b (opaOf w) < 8 := by
    unfold operandBit
    omega
  have enable : ((operand s p c b s.cox.stroke (opdOf w)).getLsbD 0 = true) = (operandBit s p c b (opdOf w) = 1) := by
    rw [← Bool.toNat_eq_one, toNat_getLsbD_zero]
  simp only [holdValue, evalTable_one, index_operands_three, BitVec.getLsbD_ofNat, decide_eq_true fits, Bool.true_and, enable]

end

section
variable {s : State} {p : Pav} {c : Crew} {b : Bp}

theorem eval_writes (hr : released s p 2 = true) (h : bpSound s p c b 1 = true) : Answers (.eval p c b) s fun t =>
    SlotOnly s t p c b (evalTable (valsOf s) (BitVec.ofNat 16 (ttOf (bpWord s p c b)))
      (operands s p.toNat c.toNat b.toNat (bpWord s p c b))) :=
  .of_next (execBp_sound _ h) (slotOnly_writeSlot hr (readVal_evalTable s _ _))

theorem evalHold_writes (hr : released s p 2 = true) (h : bpSound s p c b 2 = true) : Answers (.evalHold p c b) s fun t =>
    SlotOnly s t p c b (holdValue (valsOf s) (evalTable (valsOf s) (BitVec.ofNat 8 (ttOf (bpWord s p c b)))
        ((operands s p.toNat c.toNat b.toNat (bpWord s p c b)).take 3))
      (operand s p.toNat c.toNat b.toNat s.cox.stroke (opdOf (bpWord s p c b)))
      (slot s p.toNat c.toNat b.toNat s.cox.stroke)) := by
  refine .of_next (execBp_sound (holdEffect p.toNat c.toNat b.toNat) h) ?_
  have value := readVal_holdValue (operand s p.toNat c.toNat b.toNat s.cox.stroke (opdOf (bpWord s p c b)))
    (readVal_evalTable s (BitVec.ofNat 8 (ttOf (bpWord s p c b)))
      ((operands s p.toNat c.toNat b.toNat (bpWord s p c b)).take 3))
    (readVal_slot s p.toNat c.toNat b.toNat s.cox.stroke)
  change SlotOnly s (iff (_ != _) (writeSlot _ _ _ _) (marked s p c b)) p c b _
  unfold iff
  split
  · exact slotOnly_writeSlot hr value
  · rename_i same
    rw [bne_iff_ne, ne_eq, not_not] at same
    exact slotOnly_kept same

end

/-- Settles O1: both write the value of their table, which in the one-value modes is the bit that the operands select. -/
theorem bpEvalWritesSlot : Obligations.BpEvalWritesSlot := by
  unfold Obligations.BpEvalWritesSlot
  intro s p c b hr
  refine ⟨fun h => ?_, fun h => ?_⟩
  · obtain ⟨t, ht, writes, frame⟩ := eval_writes hr h
    exact ⟨t, ht, fun one => by rw [← evalTable_operands, ← one]; exact writes, writes, frame⟩
  · obtain ⟨t, ht, writes, frame⟩ := evalHold_writes hr h
    exact ⟨t, ht, fun one => by rw [← holdValue_operands, ← one]; exact writes, writes, frame⟩

end Sys2Proof.Machine
end

section
/-! PROOFS. Operations that write A and stage a side effect in the stroke (R32, R60, R114, R171, R444), or cause one at a pin
(R40). -/

namespace Sys2Proof.Machine

section
variable {s : State} {p : Pav} {c : Crew} {b : Bp}

/-- From release stage 2 on every effect that waits for its stage happens (R378). -/
theorem iff_released {n : Nat} (f : State → State) (x : State) (hr : released s p 2 = true) (hn : n ≤ 2) :
    iff (decide (n ≤ stageOf (marked s p c b) p.toNat)) f x = f x := by
  rw [show decide (n ≤ stageOf (marked s p c b) p.toNat) = true from
    decide_eq_true (hn.trans (of_decide_eq_true (p := 2 ≤ stageOf s p.toNat) hr))]
  rfl

/-- Operand A has been written to slot *s* in a state that has the slots and the mode of that write. -/
theorem writesSlot_opA {t : State} (w : Nat) (hm : t.cox.mode = s.cox.mode)
    (hs : t.slots = ins s.slots (nowSlot s p c b) (opA s p.toNat c.toNat b.toNat w)) :
    WritesSlot s t p c b (opA s p.toNat c.toNat b.toNat w) := writesSlot_of hm hs (readVal_operand s _ _ _ _ _)

theorem send_stages (hr : released s p 2 = true) (h : bpSound s p c b 4 = true) : Answers (.send p c b) s fun t =>
    WritesSlot s t p c b (opA s p.toNat c.toNat b.toNat (bpWord s p c b)) ∧
    t = { s with slots := t.slots, fab := { s.fab with
      retired := retiredNow s p c b, past := t.fab.past,
      sends := s.fab.sends ++ [{ pav := p, entry := BitVec.ofNat 10 (ttOf (bpWord s p c b)),
                                 lane := BitVec.ofNat 3 (ttOf (bpWord s p c b) / 1024),
                                 val := opA s p.toNat c.toNat b.toNat (bpWord s p c b), g := gOf s }] } } := by
  refine .of_next (execBp_sound (sendEffect p.toNat c.toNat b.toNat) h) ?_
  unfold sendEffect
  rw [iff_released _ _ hr (by decide), writeSlot_released _ hr, addSend, BitVec.ofNat_toNat, BitVec.setWidth_eq]
  exact ⟨writesSlot_opA _ rfl rfl, rfl⟩

theorem drive_stages (hr : released s p 2 = true) (h : bpSound s p c b 5 = true) : Answers (.drive p c b) s fun t =>
    WritesSlot s t p c b (opA s p.toNat c.toNat b.toNat (bpWord s p c b)) ∧
    t = { s with slots := t.slots, fab := { s.fab with
      retired := retiredNow s p c b, past := t.fab.past,
      drives := s.fab.drives ++ [{ crew := p.toNat * 64 + c.toNat, wire := BitVec.ofNat 2 (ttOf (bpWord s p c b)), bp := b,
                                   val := opA s p.toNat c.toNat b.toNat (bpWord s p c b),
                                   en := opB s p.toNat c.toNat b.toNat (bpWord s p c b) }] } } := by
  refine .of_next (execBp_sound (driveEffect p.toNat c.toNat b.toNat) h) ?_
  unfold driveEffect
  rw [iff_released _ _ hr (by decide), writeSlot_released _ hr, BitVec.ofNat_toNat, BitVec.setWidth_eq]
  exact ⟨writesSlot_opA _ rfl rfl, rfl⟩

/-- MEMRD and MEMWR have one effect, with the latency of MEMRD or none (R171). -/
theorem memEffect_stages (w : Nat) (lat : BitVec 16) (hr : released s p 2 = true) :
    let t := memEffect lat p.toNat c.toNat b.toNat w (marked s p c b)
    WritesSlot s t p c b (opA s p.toNat c.toNat b.toNat w) ∧
    t = { s with slots := t.slots, fab := { s.fab with
      retired := retiredNow s p c b, past := t.fab.past,
      contribs := s.fab.contribs ++ [{ pav := p, desc := BitVec.ofNat 6 (ttOf w), role := BitVec.ofNat 2 (ttOf w / 2 ^ 14),
                                       idx := BitVec.ofNat 8 (ttOf w / 64), val := opA s p.toNat c.toNat b.toNat w,
                                       lat := lat }] } } := by
  unfold memEffect
  rw [iff_released _ _ hr (by decide), writeSlot_released _ hr, addContrib, BitVec.ofNat_toNat, BitVec.setWidth_eq]
  exact ⟨writesSlot_opA _ rfl rfl, rfl⟩

end

/-- Settles O3: each of the four performs its one staging effect, on top of the write of A. -/
theorem bpStagesEffect : Obligations.BpStagesEffect := by
  unfold Obligations.BpStagesEffect
  exact fun s p c b hr => ⟨send_stages hr, drive_stages hr,
    fun lat h => .of_next (execBp_sound _ h) (memEffect_stages _ lat hr),
    fun h => .of_next (execBp_sound _ h) (memEffect_stages _ 0 hr)⟩

end Sys2Proof.Machine
end

section
/-! PROOFS. PINOUT, LOG and TRAPCHK (R32, R33, R40, R444). -/

namespace Sys2Proof.Machine

/-! The pin of a PINOUT. -/

/-- PINOUT's action in the two-state modes in which a design drives pins alone. -/
theorem pinAct_plain {s : State} (a en : BitVec 2) (h : plainMode s = true) :
    pinAct s a en = if en.getLsbD 0 then .drive (a.getLsbD 0) else .release := by
  simp only [plainMode, Bool.or_eq_true, beq_iff_eq] at h
  rcases h with (hm | hm) | hm <;> simp only [pinAct, hm]

/-- The output entry is valid, its bank in ON, and its pin not shorted (R497, R501). -/
def pinTakes (x : State) (w : Nat) : Bool :=
  w.testBit 31 && podState x (bankOfPin (w % 512)) == .on &&
    !(reg x (0x200100 + 4 * bankOfPin (w % 512))).getLsbD (w % 512 % 32)

/-- A pin that takes a PINOUT is driven or released two strokes on (R40). -/
theorem pinEffect_due (q entry : Nat) (a en : BitVec 2) (x : State) :
    pinEffect q entry (if en.getLsbD 0 then .drive (a.getLsbD 0) else .release) x =
      { x with pins := { x.pins with due := x.pins.due ++ if pinTakes x (pinOut x q entry) then
        [{ pin := BitVec.ofNat 9 (pinOut x q entry % 512),
           act := if en.getLsbD 0 then some (a.getLsbD 0) else none, g := gOf x + 2 }] else [] } } := by
  have refuses : (!(pinOut x q entry).testBit 31 || podState x (bankOfPin (pinOut x q entry % 512)) != .on ||
      (reg x (0x200100 + 4 * bankOfPin (pinOut x q entry % 512))).getLsbD (pinOut x q entry % 512 % 32)) =
      !pinTakes x (pinOut x q entry) := by
    simp only [pinTakes, bne, Bool.not_and, Bool.not_not]
  unfold pinEffect
  dsimp only
  rw [refuses]
  cases pinTakes x (pinOut x q entry)
  · simp
  · cases en.getLsbD 0 <;> rfl

section
variable {s : State} {p : Pav} {c : Crew} {b : Bp}

theorem pinout_drives (hr : released s p 2 = true) (hm : plainMode s = true) (h : bpSound s p c b 8 = true) :
    Answers (.pinout p c b) s fun t =>
      WritesSlot s t p c b (opA s p.toNat c.toNat b.toNat (bpWord s p c b)) ∧
      t = { s with slots := t.slots, fab := { s.fab with retired := retiredNow s p c b, past := t.fab.past },
                   pins := { s.pins with
                     due := s.pins.due ++ if pinTakes s (pinOut s p.toNat (ttOf (bpWord s p c b) % 64)) then
                       [{ pin := BitVec.ofNat 9 (pinOut s p.toNat (ttOf (bpWord s p c b) % 64) % 512),
                          act := if (opB s p.toNat c.toNat b.toNat (bpWord s p c b)).getLsbD 0 then
                            some ((opA s p.toNat c.toNat b.toNat (bpWord s p c b)).getLsbD 0) else none,
                          g := gOf s + 2 }] else [] } } := by
  refine .of_next (execBp_sound (pinoutEffect p.toNat c.toNat b.toNat) h) ?_
  have plain : plainMode (marked s p c b) = true := hm
  unfold pinoutEffect
  dsimp only
  rw [iff_released _ _ hr (by decide), pinAct_plain _ _ plain, pinEffect_due, writeSlot_released _ hr]
  exact ⟨writesSlot_opA _ rfl rfl, rfl⟩

theorem log_records (hr : released s p 2 = true) (hm : fourState s = false) (h : bpSound s p c b 9 = true) :
    Answers (.log p c b) s fun t =>
      WritesSlot s t p c b (opA s p.toNat c.toNat b.toNat (bpWord s p c b)) ∧
      t = { s with slots := t.slots, fab := { s.fab with
        retired := retiredNow s p c b, past := t.fab.past,
        logs := s.fab.logs ++ if logOn s (ttOf (bpWord s p c b) % 256) then
          [{ bp := bpIndex p.toNat c.toNat b.toNat, port := BitVec.ofNat 8 (ttOf (bpWord s p c b) % 256),
             val := opA s p.toNat c.toNat b.toNat (bpWord s p c b), en := opB s p.toNat c.toNat b.toNat (bpWord s p c b),
             last := (ttOf (bpWord s p c b)).testBit 15 }] else [] } } := by
  refine .of_next (execBp_sound (logEffect p.toNat c.toNat b.toNat) h) ?_
  have stage : decide (1 ≤ stageOf (marked s p c b) p.toNat) = true :=
    decide_eq_true (le_trans (by decide) (of_decide_eq_true (p := 2 ≤ stageOf s p.toNat) hr))
  have mode : fourState (marked s p c b) = false := hm
  have on : logOn (marked s p c b) (ttOf (bpWord s p c b) % 256) = logOn s (ttOf (bpWord s p c b) % 256) := rfl
  unfold logEffect
  dsimp only
  rw [stage, mode, writeSlot_released _ hr, Bool.true_and, on]
  cases logOn s (ttOf (bpWord s p c b) % 256)
  · rw [iff_no, if_neg Bool.false_ne_true, List.append_nil]
    exact ⟨writesSlot_opA _ rfl rfl, rfl⟩
  · exact ⟨writesSlot_opA _ rfl rfl, rfl⟩

end

/-! A raised halt. -/

/-- The halt request that a halt raised now makes (R81). -/
def haltNow (s : State) (cause : Nat) : HaltReq :=
  { cause := BitVec.ofNat 4 cause, before := haltBefore s (raiseAt s), raised := raiseAt s }

/-- A halt is raised in a course and while the package waits to start one: its request is added, and on a formed board its
message goes out (R81, R84). -/
theorem raiseHalt_eq (cause : Nat) {s : State} (h : (inCourse s || s.cox.st == .wait) = true) :
    ∃ c o, raiseHalt cause s = iff c (emit o) (addHalt (haltNow s cause) s) := by
  unfold raiseHalt
  rw [if_pos h]
  exact ⟨_, _, rfl⟩

/-- Raising a halt adds at most its request to the controller, and a message to what the package emits. -/
theorem raiseHalt_only (cause : Nat) (s : State) : ∃ halts out,
    raiseHalt cause s = { s with cox := { s.cox with halts := halts }, out := out } := by
  have added : ∃ halts, addHalt (haltNow s cause) s = { s with cox := { s.cox with halts := halts } } := by
    unfold addHalt
    split
    · exact ⟨s.cox.halts, rfl⟩
    · exact ⟨_, rfl⟩
  by_cases h : (inCourse s || s.cox.st == .wait) = true
  · obtain ⟨halts, added⟩ := added
    obtain ⟨c, o, raised⟩ := raiseHalt_eq cause h
    refine ⟨halts, (iff c (emit o) s).out, ?_⟩
    rw [raised, added]
    cases c <;> rfl
  · exact ⟨s.cox.halts, s.out, by rw [raiseHalt, if_neg h]⟩

/-- A package that raises a halt has its request pending. -/
theorem haltNow_mem_raiseHalt (cause : Nat) {s : State} (h : (inCourse s || s.cox.st == .wait) = true) :
    haltNow s cause ∈ (raiseHalt cause s).cox.halts := by
  have added : haltNow s cause ∈ (addHalt (haltNow s cause) s).cox.halts := by
    unfold addHalt
    split
    · rename_i pending
      exact List.contains_iff_mem.mp pending
    · exact List.mem_append_right _ (List.mem_singleton_self _)
  obtain ⟨c, o, raised⟩ := raiseHalt_eq cause h
  rw [raised]
  cases c <;> exact added

/-! A hit of a TRAPCHK. -/

/-- What a hit counts and logs before it raises its halt (R33). -/
theorem trapHit_eq (p c b k : Nat) (s : State) : ∃ u, trapHit p c b k s = iff (flag s fTrapHalt) (raiseHalt hcTrap) u ∧
    Quiet s u ∧ u.out = s.out ∧ u.wide = s.wide ∧ u.cox = s.cox ∧
    ctr u (pavA p + 0x218) = min (2 ^ 48 - 1) (ctr s (pavA p + 0x218) + 1) := by
  have plain : plainCtr (pavA p + 0x218) := by unfold plainCtr pavA; omega
  refine ⟨_, rfl, ?_⟩
  have counted := ctr_count _ s plain
  unfold oncePerCourse
  split
  · exact ⟨quiet_count _ s, by simp, by simp, by simp, counted⟩
  · have mark : ∀ (x : State) m, Quiet x { x with fab := { x.fab with marks := m } } := fun x m =>
      ⟨⟨rfl, .refl x, fun _ _ => rfl⟩, rfl, rfl, rfl, .refl x⟩
    refine ⟨((quiet_count _ s).trans (mark _ _)).trans (quiet_logEvent _ _ _ _), by simp, by simp, by simp, ?_⟩
    rw [ctr_logEvent _ _ _ _ plain]
    exact counted

section
variable {s : State} {p : Pav} {c : Crew} {b : Bp}

/-- The value that TRAPCHK writes and reports. -/
abbrev trapValue (s : State) (p : Pav) (c : Crew) (b : Bp) : BitVec 2 :=
  evalTable .one (BitVec.ofNat 16 (ttOf (bpWord s p c b))) (operands s p.toNat c.toNat b.toNat (bpWord s p c b))

theorem valsOf_plain (h : plainMode s = true) : valsOf s = .one := by
  simp only [plainMode, Bool.or_eq_true, beq_iff_eq] at h
  rcases h with (hm | hm) | hm <;> rw [valsOf, hm]

theorem readVal_trapValue (h : plainMode s = true) : readVal s (trapValue s p c b) = trapValue s p c b := by
  rw [trapValue, ← valsOf_plain h]
  exact readVal_evalTable s _ _

theorem running_of_sound {op : Nat} (h : bpSound s p c b op = true) : running s = true := by
  simp only [bpSound, bpReady, Bool.and_eq_true] at h
  obtain ⟨⟨⟨⟨⟨⟨run, -⟩, -⟩, -⟩, -⟩, -⟩, -⟩ := h
  exact run

/-- TRAPCHK writes its value, and a 1 is a hit (R33). -/
theorem exec_trapchk (hr : released s p 2 = true) (hm : plainMode s = true) (h : bpSound s p c b 10 = true) :
    exec (.trapchk p c b) s = .next (iff ((trapValue s p c b).getLsbD 0) (trapHit p.toNat c.toNat b.toNat 0)
      (writeSlot p.toNat c.toNat b.toNat (trapValue s p c b) (marked s p c b))) := by
  have vals : valsOf (marked s p c b) = .one := valsOf_plain hm
  have stage : decide (2 ≤ stageOf (marked s p c b) p.toNat) = true := hr
  refine (execBp_sound (trapEffect p.toNat c.toNat b.toNat) h).trans ?_
  unfold trapEffect
  dsimp only
  rw [stage, vals, if_pos rfl]
  rfl

/-- In RUN a halt is raised in the stroke in progress. -/
theorem raiseAt_of_running {u : State} (hr : running s = true) (hc : u.cox = s.cox) (hw : u.wide = s.wide) :
    raiseAt u = gOf s := by
  have run : u.cox.st = .run := by rw [hc]; exact beq_iff_eq.mp hr
  have now : raiseAt u = gOf u := by simp [raiseAt, run]
  rw [now]
  simp only [gOf, course, wideReg, hc, hw]

/-- A hit counts, and raises a halt if and only if trap_halt is set (R33). -/
theorem trapchk_hits (hr : released s p 2 = true) (hm : plainMode s = true) (h : bpSound s p c b 10 = true)
    (hf : (trapValue s p c b).getLsbD 0 = true) : Answers (.trapchk p c b) s fun t =>
      WritesSlot s t p c b (trapValue s p c b) ∧
      (t.bank = s.bank ∧ t.deep = s.deep ∧ t.cfg = s.cfg ∧ t.pins = s.pins) ∧
      ctr t (pavA p.toNat + 0x218) = min (2 ^ 48 - 1) (ctr s (pavA p.toNat + 0x218) + 1) ∧
      (flag s fTrapHalt = false → t.cox = s.cox ∧ t.out = s.out) ∧
      (flag s fTrapHalt = true → t.cox.halts.any (fun h => h.cause == 4 && h.raised == gOf s) = true) := by
  have value := readVal_trapValue (p := p) (c := c) (b := b) hm
  have run := running_of_sound h
  obtain ⟨u, hit, quiet, out, wide, cox, count⟩ := trapHit_eq p.toNat c.toNat b.toNat 0
    (writeSlot p.toNat c.toNat b.toNat (trapValue s p c b) (marked s p c b))
  have same : flag (writeSlot p.toNat c.toNat b.toNat (trapValue s p c b) (marked s p c b)) fTrapHalt = flag s fTrapHalt := by
    rw [writeSlot_released _ hr]
    rfl
  refine .of_next (exec_trapchk hr hm h) ?_
  rw [hf, iff_yes, hit, same]
  rw [writeSlot_released _ hr] at quiet out wide cox count
  obtain ⟨bank, deep, slots, cfg, -⟩ := quiet.design
  have mode : u.cox.mode = s.cox.mode := congrArg Cox.mode cox
  cases flag s fTrapHalt
  · exact ⟨writesSlot_of mode slots value, ⟨bank, deep, cfg, quiet.pins⟩, count, fun _ => ⟨cox, out⟩,
      nofun⟩
  · rw [iff_yes]
    have course : inCourse u = true := by
      rw [inCourse, cox]
      simp [show s.cox.st = .run from beq_iff_eq.mp run]
    have pending := haltNow_mem_raiseHalt hcTrap (s := u) (by rw [course, Bool.true_or])
    have raised := raiseAt_of_running run cox wide
    obtain ⟨halts, out', only⟩ := raiseHalt_only hcTrap u
    rw [only] at pending ⊢
    exact ⟨writesSlot_of mode slots value, ⟨bank, deep, cfg, quiet.pins⟩, count, nofun,
      fun _ => List.any_eq_true.mpr ⟨_, pending, by simp [raised, haltNow, hcTrap]⟩⟩

/-- A 0 does nothing but the write of the slot (R33). -/
theorem trapchk_misses (hr : released s p 2 = true) (hm : plainMode s = true) (h : bpSound s p c b 10 = true)
    (hf : (trapValue s p c b).getLsbD 0 = false) :
    Answers (.trapchk p c b) s fun t => SlotOnly s t p c b (trapValue s p c b) := by
  have value := readVal_trapValue (p := p) (c := c) (b := b) hm
  refine .of_next (exec_trapchk hr hm h) ?_
  rw [hf, iff_no]
  exact slotOnly_writeSlot hr value

end

/-- Settles O5: PINOUT and LOG add at most one entry to their lists, and TRAPCHK splits on its value. -/
theorem bpOutputs : Obligations.BpOutputs := by
  unfold Obligations.BpOutputs
  refine ⟨fun s p c b => pinout_drives, fun s p c b => log_records, fun s p c b hr hm h => ?_⟩
  cases hf : (trapValue s p c b).getLsbD 0
  · obtain ⟨t, next, writes, frame⟩ := trapchk_misses hr hm h hf
    refine ⟨t, next, writes, ?_⟩
    rw [frame]
    exact ⟨rfl, rfl, rfl, rfl, fun _ => rfl, fun one => absurd (hf.symm.trans one) nofun⟩
  · obtain ⟨t, next, writes, ⟨bank, deep, cfg, pins⟩, count, keeps, halts⟩ := trapchk_hits hr hm h hf
    exact ⟨t, next, writes, bank, deep, cfg, pins, fun zero => absurd (hf.symm.trans zero) nofun,
      fun _ => ⟨count, keeps, halts⟩⟩

end Sys2Proof.Machine
end

section
/-! PROOFS. What the report of a configuration error leaves as it stands (R42 to R44, R398 to R401): it logs, counts, records,
queues a frame and raises a halt. -/

namespace Sys2Proof.Machine

/-- An error has been reported: the log, the counters, the registers, the recovery queue, the mark of the record, the pending
halts and messages, and the end of a SCRUB_FULL may differ, and nothing else; of the counters only the log's own and those
of `cs`. -/
def Reported (cs : List Nat) (s t : State) : Prop :=
  (∃ regs ctrs evlog evTick evIn satDue committed scb hif marks halts out,
    t = { s with regs := regs, ctrs := ctrs, evlog := evlog, evTick := evTick, evIn := evIn, satDue := satDue,
                 trc := { s.trc with committed := committed }, scb := scb, hif := hif,
                 fab := { s.fab with marks := marks }, cox := { s.cox with halts := halts }, out := out }) ∧
  ∀ b, plainCtr b → b ∉ cs → ctr t b = ctr s b

section
variable {cs : List Nat}

theorem Reported.trans {s t u : State} (h : Reported cs s t) (k : Reported cs t u) : Reported cs s u := by
  obtain ⟨⟨_, _, _, _, _, _, _, _, _, _, _, _, rfl⟩, h⟩ := h
  obtain ⟨⟨_, _, _, _, _, _, _, _, _, _, _, _, rfl⟩, k⟩ := k
  exact ⟨⟨_, _, _, _, _, _, _, _, _, _, _, _, rfl⟩, fun b hp hb => (k b hp hb).trans (h b hp hb)⟩

/-- What a report keeps of the design and of the stroke in progress. -/
structure KeepsStroke (s t : State) : Prop where
  design : SameDesign s t
  pins : t.pins = s.pins
  dsp : t.dsp = s.dsp
  mode : t.cox.mode = s.cox.mode
  drives : t.fab.drives = s.fab.drives
  logs : t.fab.logs = s.fab.logs

theorem KeepsStroke.trans {s t u : State} (h : KeepsStroke s t) (k : KeepsStroke t u) : KeepsStroke s u :=
  ⟨h.design.trans k.design, k.pins.trans h.pins, k.dsp.trans h.dsp, k.mode.trans h.mode, k.drives.trans h.drives,
    k.logs.trans h.logs⟩

theorem Reported.keeps {s t : State} (h : Reported cs s t) : KeepsStroke s t := by
  obtain ⟨⟨_, _, _, _, _, _, _, _, _, _, _, _, rfl⟩, -⟩ := h
  exact ⟨.refl s, rfl, rfl, rfl, rfl, rfl⟩

theorem reported_plain (s : State) {regs evlog evTick evIn satDue committed scb hif marks halts out} :
    Reported cs s { s with
      regs := regs, evlog := evlog, evTick := evTick, evIn := evIn, satDue := satDue,
      trc := { s.trc with committed := committed }, scb := scb, hif := hif,
      fab := { s.fab with marks := marks }, cox := { s.cox with halts := halts }, out := out } :=
  ⟨⟨_, s.ctrs, _, _, _, _, _, _, _, _, _, _, rfl⟩, fun _ _ _ => rfl⟩

theorem Reported.refl (s : State) : Reported cs s s := reported_plain s

theorem Reported.iff {s : State} {f : State → State} (c : Bool) (h : Reported cs s (f s)) : Reported cs s (iff c f s) := by
  cases c
  · exact .refl s
  · exact h

theorem Reported.foldl {α : Type} {f : State → α → State} (h : ∀ x a, Reported cs x (f x a)) (l : List α) (s : State) :
    Reported cs s (l.foldl f s) :=
  l.foldlRecOn f (.refl s) fun x hx a _ => hx.trans (h x a)

theorem Reported.of_logOnly {s t : State} (h : LogOnly s t) (k : ∀ b, plainCtr b → b ∉ cs → ctr t b = ctr s b) :
    Reported cs s t := by
  obtain ⟨_, _, _, _, _, _, _, rfl⟩ := h
  exact ⟨⟨_, _, _, _, _, _, _, _, _, _, _, _, rfl⟩, k⟩

theorem reported_logEvent (c l d : Nat) (s : State) : Reported cs s (logEvent c l d s) :=
  .of_logOnly ((logOnly_log0 c l d s).trans (logOnly_settle 4 _)) fun _ hb _ => ctr_logEvent c l d s hb

theorem reported_count {a : Nat} (s : State) (h : a ∈ cs) : Reported cs s (count a s) :=
  .of_logOnly ((logOnly_bump a 1 s).trans (logOnly_settle 4 _))
    fun _ hb hn => ctr_countN_ne 1 s hb fun e => hn (e ▸ h)

theorem reported_setReg (a : Nat) (v : Word) (s : State) : Reported cs s (setReg a v s) := reported_plain s

theorem reported_setFlag (f : Fld) (b : Bool) (s : State) : Reported cs s (setFlag f b s) := reported_plain s

theorem reported_recordSched (p c b st synd : Nat) (ue : Bool) (s : State) :
    Reported cs s (recordSched p c b st synd ue s) := by
  unfold recordSched
  dsimp only
  split
  · exact reported_plain s
  · exact .refl s

theorem reported_raiseHalt (cause : Nat) (s : State) : Reported cs s (raiseHalt cause s) := by
  obtain ⟨halts, out, h⟩ := raiseHalt_only cause s
  rw [h]
  exact reported_plain s

theorem reported_fullEnd (code : Nat) (f : FullScrub) (s : State) : Reported cs s (fullEnd code f s) := by
  unfold fullEnd
  exact reported_plain s

theorem reported_recoverFail (code : Nat) (s : State) : Reported cs s (recoverFail code s) := by
  have logged : Reported cs s (logEvent evConfigRecoverFail locNone code
      { s with scb := { s.scb with st := .failed, fail := code } }) := (reported_plain s).trans (reported_logEvent _ _ _ _)
  unfold recoverFail
  dsimp only
  split
  · exact logged.trans (.iff _ (reported_fullEnd _ _ _))
  · exact logged

theorem reported_enqueue (a : BitVec 32) (s : State) : Reported cs s (enqueue a s) := by
  unfold enqueue
  split
  · exact .refl s
  · split
    · split
      · exact .refl s
      · exact (reported_setFlag _ _ s).trans (reported_recoverFail _ _)
    · exact reported_plain s

theorem reported_recoverStart (s : State) : Reported cs s (recoverStart s) :=
  (reported_plain s).trans (reported_setFlag _ _ _)

theorem reported_queueFrame (a : BitVec 32) (s : State) : Reported cs s (queueFrame a s) := by
  unfold queueFrame
  extract_lets fresh t p c crewFrame s1 s2 s3 s3'
  have h1 : Reported cs s s1 := .iff _ (reported_setReg _ _ s)
  have h2 : Reported cs s1 s2 := reported_enqueue a s1
  have h3 : Reported cs s2 s3 := .iff _ ((reported_enqueue _ s2).trans (reported_enqueue _ _))
  have h4 : Reported cs s3 s3' := reported_setFlag _ _ s3
  refine (((h1.trans h2).trans h3).trans h4).trans ?_
  split
  · split
    · exact reported_plain _
    · exact reported_recoverStart _
  · exact .refl _

theorem reported_careMapBad (p c k : Nat) (s : State) (h : 0x60040 ∈ cs) : Reported cs s (careMapBad p c k s) := by
  unfold careMapBad
  dsimp only
  split
  · exact .refl s
  · exact (((reported_plain s).trans (reported_count _ h)).trans (reported_logEvent _ _ _ _)).trans
      (reported_queueFrame _ _)

theorem reported_careError (p c b area frame : Nat) (s : State) (h : 0x60028 ∈ cs) :
    Reported cs s (careError p c b area frame s) :=
  (((reported_count s h).trans (reported_logEvent _ _ _ _)).trans (reported_raiseHalt _ _)).trans (reported_queueFrame _ _)

end

end Sys2Proof.Machine
end

section
/-! PROOFS. BP operations without an effect: before release stage 1 (R378), NOPs (R23), and uncorrectable words (R43). -/

namespace Sys2Proof.Machine

/-- The effect of an op number (R23). -/
def bpEffect (op : Nat) (lat : BitVec 16) (p c b : Nat) : Nat → State → State :=
  match op with
  | 0 => fun _ x => x
  | 1 => evalEffect p c b
  | 2 => holdEffect p c b
  | 3 => wideEffect p c b
  | 4 => sendEffect p c b
  | 5 => driveEffect p c b
  | 6 => memEffect lat p c b
  | 7 => memEffect 0 p c b
  | 8 => pinoutEffect p c b
  | 9 => logEffect p c b
  | _ => trapEffect p c b

theorem exec_bpCommand {op : Nat} (p : Pav) (c : Crew) (b : Bp) (lat : BitVec 16) (s : State) (h : op ≤ 10) :
    exec (bpCommand op p c b lat) s = execBp op p c b (bpEffect op lat p.toNat c.toNat b.toNat) s := by
  interval_cases op <;> rfl

/-- Before release stage 1 no effect happens (R378). -/
theorem bpEffect_unreleased (op : Nat) (lat : BitVec 16) {p : Nat} (c b w : Nat) {x : State} (h : stageOf x p = 0) :
    bpEffect op lat p c b w x = x := by
  have slot : ∀ v, writeSlot p c b v x = x := fun v => writeSlot_unreleased v h
  have late : ∀ n f y, 1 ≤ n → iff (decide (n ≤ stageOf x p)) f y = y := fun n f y hn => by
    rw [h, decide_eq_false (by omega), iff_no]
  have never : ∀ c f, f x = x → iff c f x = x := fun c f hf => by cases c <;> [rfl; exact hf]
  unfold bpEffect
  split
  · rfl
  · exact slot _
  · exact never _ _ (slot _)
  · unfold wideEffect
    split
    · split
      · exact slot _
      · exact never _ _ (slot _)
    · exact slot _
  · rw [sendEffect, late 1 _ _ (by decide), slot]
  · rw [driveEffect, late 2 _ _ (by decide), slot]
  · rw [memEffect, late 2 _ _ (by decide), slot]
  · rw [memEffect, late 2 _ _ (by decide), slot]
  · rw [pinoutEffect, late 1 _ _ (by decide), slot]
  · unfold logEffect
    simp [h, slot]
  · unfold trapEffect
    simp [h, slot]

theorem bp_without_effect {s : State} {p : Pav} {c : Crew} {b : Bp} (lat : BitVec 16) {op : Nat} (hop : op ≤ 10)
    (hs : stageOf s p.toNat = 0 ∨ op = 0) (h : bpSound s p c b op = true) :
    exec (bpCommand op p c b lat) s = .next { s with fab := { s.fab with retired := retiredNow s p c b } } := by
  rw [exec_bpCommand p c b lat s hop, execBp_sound _ h]
  rcases hs with stage | rfl
  · rw [bpEffect_unreleased op lat c.toNat b.toNat _ (x := marked s p c b) stage]
    rfl
  · rfl

/-! An uncorrectable word (R43). -/

/-- The lane and the contribution that an uncorrectable word counts for stand in the lists of the stroke (R114, R172). -/
theorem absentEffect_only (p w : Nat) (s : State) : ∃ sends contribs,
    absentEffect p w s = { s with fab := { s.fab with sends := sends, contribs := contribs } } := by
  have sent : ∀ c v x, ∃ sends, iff c (addSend p (ttOf w) v) x = { x with fab := { x.fab with sends := sends } } :=
    fun c v x => by cases c <;> exact ⟨_, rfl⟩
  have contributed : ∀ c v x, ∃ contribs, iff c (addContrib p (ttOf w) v 0) x =
      { x with fab := { x.fab with contribs := contribs } } := fun c v x => by cases c <;> exact ⟨_, rfl⟩
  unfold absentEffect
  dsimp only
  obtain ⟨sends, h⟩ := sent (opOf w == 4 && decide (1 ≤ stageOf s p)) (if fourState s then vX else v0) s
  rw [h]
  obtain ⟨contribs, k⟩ := contributed ((opOf w == 6 || opOf w == 7) && decide (2 ≤ stageOf s p))
    (if fourState s then vX else v0) { s with fab := { s.fab with sends := sends } }
  exact ⟨sends, contribs, k⟩

theorem writeSlot_only (p c b : Nat) (v : BitVec 2) (s : State) : ∃ slots past,
    writeSlot p c b v s = { s with slots := slots, fab := { s.fab with past := past } } := by
  unfold writeSlot iff
  split <;> exact ⟨_, _, rfl⟩

/-- The counters in which an error of a configuration codeword is counted (R398, R399). -/
abbrev errorCtrs : List Nat := [0x60028, 0x60030, 0x60040]

/-- An uncorrectable schedule word is counted in its pavilion, and reported; a don't-care one is rewritten (R43, R398). -/
theorem schedBad_only (p c b st : Nat) (e : Ecc) (injected : Bool) (s : State) : ∃ y cfg,
    schedBad p c b st e injected s = { y with cfg := cfg } ∧ Reported errorCtrs (count (pavA p + 0x208) s) y := by
  unfold schedBad
  extract_lets s1 s2
  have h1 : Reported errorCtrs (count (pavA p + 0x208) s) s1 :=
    (reported_recordSched _ _ _ _ _ _ _).trans (reported_careMapBad _ _ _ _ (by decide))
  have h2 : Reported errorCtrs s1 s2 := reported_count s1 (by decide)
  have h3 := reported_careError (cs := errorCtrs) p c b 0 (frameKey 1 p c b (st / 512)) s1 (by decide)
  generalize careError p c b 0 (frameKey 1 p c b (st / 512)) s1 = s3 at h3 ⊢
  clear_value s1 s2
  split
  · exact ⟨s3, s3.cfg, rfl, h1.trans h3⟩
  · split
    · exact ⟨s2, s2.cfg, rfl, h1.trans h2⟩
    · exact ⟨s2, _, rfl, h1.trans h2⟩

section
variable {s : State} {p : Pav} {c : Crew} {b : Bp}

/-- Only its slot, the record of the stroke and the report of the error differ after an uncorrectable word (R43). -/
theorem badWord_spec (e : Ecc) (inj : Bool) :
    let x := marked s p c b
    let t := badWord p.toNat c.toNat b.toNat e inj x
    t.slots = (iff (fourState s) (writeSlot p.toNat c.toNat b.toNat vX) x).slots ∧ t.cox.mode = s.cox.mode ∧
    t.bank = s.bank ∧ t.deep = s.deep ∧ t.pins = s.pins ∧ t.dsp = s.dsp ∧
    t.fab.drives = s.fab.drives ∧ t.fab.logs = s.fab.logs ∧
    ctr t (pavA p.toNat + 0x208) = min (2 ^ 48 - 1) (ctr s (pavA p.toNat + 0x208) + 1) := by
  intro x
  have plain : plainCtr (pavA p.toNat + 0x208) := by unfold plainCtr pavA; omega
  have other : pavA p.toNat + 0x208 ∉ errorCtrs := by simp [pavA]; omega
  have written : ∃ slots past, iff (fourState x) (writeSlot p.toNat c.toNat b.toNat vX) x =
      { x with slots := slots, fab := { x.fab with past := past } } := by
    cases fourState x
    · exact ⟨_, _, rfl⟩
    · exact writeSlot_only _ _ _ _ _
  obtain ⟨slots, past, written⟩ := written
  obtain ⟨sends, contribs, absent⟩ := absentEffect_only p.toNat (intended x p.toNat c.toNat b.toNat x.cox.stroke)
    { x with slots := slots, fab := { x.fab with past := past } }
  obtain ⟨y, cfg, bad, reported⟩ := schedBad_only p.toNat c.toNat b.toNat x.cox.stroke e inj
    { x with slots := slots, fab := { x.fab with past := past, sends := sends, contribs := contribs } }
  have kept := (reported_count (cs := [pavA p.toNat + 0x208]) _ List.mem_cons_self).keeps.trans reported.keeps
  obtain ⟨bank, deep, same, -⟩ := kept.design
  unfold badWord
  dsimp only
  rw [show fourState s = fourState x from rfl, written, absent, bad]
  exact ⟨same, kept.mode, bank, deep, kept.pins, kept.dsp, kept.drives, kept.logs,
    (reported.2 _ plain other).trans (ctr_count _ _ plain)⟩

end

/-- Settles O4: no effect before its stage, and after an uncorrectable word only the report of the error. -/
theorem bpWithoutEffect : Obligations.BpWithoutEffect := by
  unfold Obligations.BpWithoutEffect
  refine ⟨fun s p c b lat op hop hs h => bp_without_effect lat hop hs h, fun s p c b lat op hop h => ?_⟩
  obtain ⟨slots, mode, bank, deep, pins, dsp, drives, logs, count⟩ := badWord_spec (s := s) (p := p) (c := c) (b := b)
    (readSched s p.toNat c.toNat b.toNat s.cox.stroke) false
  refine .of_next ((exec_bpCommand p c b lat s hop).trans (execBp_broken op _ h))
    ⟨fun two => ?_, fun four hr => writesSlot_of mode ?_ ?_, bank, deep, pins, dsp, drives, logs, count⟩
  · rw [slots, two]
    rfl
  · rw [slots, four, iff_yes, writeSlot_released _ hr]
  · have vals : valsOf s = .four := by
      rw [valsOf, show s.cox.mode = .fourstate from beq_iff_eq.mp four]
    rw [readVal, vals]
    rfl

end Sys2Proof.Machine
end

section
/-! PROOFS. Upsets (R29, R41, R187, R393): each flips the one bit that it strikes. -/

namespace Sys2Proof.Machine

theorem flipsBit_upd {n : Nat} (m : Sparse (BitVec n)) (k bit : Nat) :
    FlipsBit m (upd 0 m k (look 0 m k ^^^ BitVec.ofNat n (2 ^ bit))) k bit := fun j => look_upd 0 m k _ j

theorem flipCfg_flips (s : State) (k : Nat) {bit : Nat} (h : bit < 72) :
    FlipsBit s.cfg (flipCfg k bit s).cfg k bit ∧ flipCfg k bit s = { s with cfg := (flipCfg k bit s).cfg } := by
  rw [flipCfg, if_pos h]
  exact ⟨flipsBit_upd _ _ _, rfl⟩

theorem flipGroup_flips (s : State) (k : Nat) {bit : Nat} (h : bit < 39) :
    FlipsBit s.groups (flipGroup k bit s).groups k bit ∧
    flipGroup k bit s = { s with groups := (flipGroup k bit s).groups } := by
  rw [flipGroup, if_pos h]
  exact ⟨flipsBit_upd _ _ _, rfl⟩

/-- A slot below L carries no check bits: the upset is a write of the flipped value (R29). -/
theorem flipSlot_flips {s : State} (p c b : Nat) {j : Nat} (bit : Nat) (h : j < s.cox.length) :
    cell (flipSlot p c b j bit s) p c b j = cell s p c b j ^^^ BitVec.ofNat 2 (2 ^ bit) ∧
    (∀ k, k ≠ slotKey p c b j → find (flipSlot p c b j bit s).slots k = find s.slots k) ∧
    flipSlot p c b j bit s = { s with slots := (flipSlot p c b j bit s).slots } := by
  rw [flipSlot, if_pos h]
  exact ⟨by rw [cell, setSlot, find_ins, if_pos rfl], fun k hk => by rw [setSlot, find_ins, if_neg hk], rfl⟩

section
variable (s : State) (p : Pav) (c : Crew) (b : Bp)

theorem upset_sched (n : BitVec 10) {bit : BitVec 7} (h : bit.toNat < 72) : Answers (.upset (.sched p c b n bit)) s fun t =>
    FlipsBit s.cfg t.cfg (schedKey p.toNat c.toNat b.toNat n.toNat) bit.toNat ∧ t = { s with cfg := t.cfg } :=
  .of_next rfl (flipCfg_flips s _ h)

theorem upset_slot {n : BitVec 10} (bit : BitVec 1) (h : n.toNat < s.cox.length) :
    Answers (.upset (.slot p c b n bit)) s fun t =>
      cell t p.toNat c.toNat b.toNat n.toNat = cell s p.toNat c.toNat b.toNat n.toNat ^^^ BitVec.ofNat 2 (2 ^ bit.toNat) ∧
      (∀ k, k ≠ slotKey p.toNat c.toNat b.toNat n.toNat → find t.slots k = find s.slots k) ∧
      t = { s with slots := t.slots } :=
  .of_next rfl (flipSlot_flips _ _ _ _ h)

theorem upset_group {g bit : BitVec 6} (hg : s.cox.length ≤ 16 * g.toNat) (h : bit.toNat < 39) :
    Answers (.upset (.group p c b g bit)) s fun t =>
      FlipsBit s.groups t.groups (bpIndex p.toNat c.toNat b.toNat * 64 + g.toNat) bit.toNat ∧
      t = { s with groups := t.groups } := by
  refine .of_next (t := flipGroup (bpIndex p.toNat c.toNat b.toNat * 64 + g.toNat) bit.toNat s) ?_ (flipGroup_flips s _ h)
  exact congrArg Host.Outcome.next (if_neg (by omega))

theorem upset_table (a : BitVec 32) (w : BitVec 9) {bit : BitVec 7} (h : bit.toNat < 72)
    (ht : frameType a = 0 ∨ (3 ≤ frameType a ∧ frameType a ≤ 9)) : Answers (.upset (.table a w bit)) s fun t =>
      FlipsBit s.cfg t.cfg (cfgKey (a.toNat / 128) w.toNat) bit.toNat ∧ t = { s with cfg := t.cfg } :=
  .of_next (congrArg Host.Outcome.next (if_pos ht)) (flipCfg_flips s _ h)

theorem upset_bank (cw : BitVec 16) {bit : BitVec 7} (h : bit.toNat < 72) : Answers (.upset (.bank p cw bit)) s fun t =>
    FlipsBit s.bank t.bank (bankKey p.toNat cw.toNat) bit.toNat ∧ t = { s with bank := t.bank } :=
  .of_next (congrArg Host.Outcome.next (if_pos h)) ⟨flipsBit_upd _ _ _, rfl⟩

theorem upset_deep (st : BitVec 2) (cw : BitVec 29) {bit : BitVec 9} (h : bit.toNat < 288) :
    Answers (.upset (.deep st cw bit)) s fun t =>
      FlipsBit s.deep t.deep (deepKey st.toNat cw.toNat) bit.toNat ∧ t = { s with deep := t.deep } :=
  .of_next (congrArg Host.Outcome.next (if_pos h)) ⟨flipsBit_upd _ _ _, rfl⟩

end

end Sys2Proof.Machine
end

section
/-! PROOFS. Configuration recovery (R400, R401): reading the part, and rewriting the queued frames from it. -/

namespace Sys2Proof.Machine

/-! A failed recovery. -/

/-- Without a SCRUB_FULL a recovery that fails is logged and stays failed. -/
theorem recoverFail_plain (code : Nat) {s : State} (h : s.scb.full = none) : recoverFail code s =
    logEvent evConfigRecoverFail locNone code { s with scb := { s.scb with st := .failed, fail := code } } := by
  simp only [recoverFail, h]

theorem onlyLogged_recoverFail (code : Nat) {s : State} (h : s.scb.full = none) :
    OnlyLogged [] [] { s with scb := { s.scb with st := .failed, fail := (recoverFail code s).scb.fail } }
      (recoverFail code s) := by
  rw [recoverFail_plain code h, logEvent_scb]
  exact onlyLogged_logEvent _ _ _ _

theorem exec_recoveryRead {s : State} (o : BitVec 2) (hs : s.scb.st = .read) (h : s.scb.full = none) :
    exec (.recoveryRead o) s = .next (recoveryRead o.toNat s) := whenever_true _ _ (by simp [hs, h])

/-- Reading the part ends in WRITE, or the recovery fails (R401). -/
theorem recoveryRead_ends {s : State} (hs : s.scb.st = .read) (h : s.scb.full = none) :
    exec (.recoveryRead 0) s = .next { s with scb := { s.scb with st := .write } } ∧
    ∀ c ∈ [Instr.recoveryRead 1, .recoveryRead 2, .recoveryTimeout], Answers c s fun t =>
      OnlyLogged [] [] { s with scb := { s.scb with st := .failed, fail := t.scb.fail } } t := by
  have timeout : exec .recoveryTimeout s = .next (recoveryRead 2 s) := whenever_true _ _ (by simp [hs])
  refine ⟨exec_recoveryRead 0 hs h, fun c hc => ?_⟩
  simp only [List.mem_cons, List.not_mem_nil, or_false] at hc
  rcases hc with rfl | rfl | rfl
  · exact .of_next (exec_recoveryRead 1 hs h) (onlyLogged_recoverFail _ h)
  · exact .of_next (exec_recoveryRead 2 hs h) (onlyLogged_recoverFail _ h)
  · exact .of_next timeout (onlyLogged_recoverFail _ h)

/-! The words of a frame. -/

theorem look_foldl_upd_other {k frame : Nat} (hk : k / 512 ≠ frame) (ws : Sparse (BitVec 64)) (hw : ∀ e ∈ ws, e.1 < 512)
    (m : Sparse (BitVec 72)) :
    look 0 (ws.foldl (fun m e => upd 0 m (cfgKey frame e.1) (encode72 e.2)) m) k = look 0 m k := by
  induction ws generalizing m with
  | nil => rfl
  | cons e ws ih =>
    have other : k ≠ cfgKey frame e.1 := fun h => by
      have := hw e List.mem_cons_self
      unfold cfgKey at h
      omega
    rw [List.foldl_cons, ih (fun x hx => hw x (List.mem_cons_of_mem _ hx)), look_upd_ne _ _ _ other]

theorem look_foldl_upd_congr {k frame : Nat} (ws : Sparse (BitVec 64)) {m m' : Sparse (BitVec 72)}
    (h : look 0 m k = look 0 m' k) :
    look 0 (ws.foldl (fun m e => upd 0 m (cfgKey frame e.1) (encode72 e.2)) m) k =
      look 0 (ws.foldl (fun m e => upd 0 m (cfgKey frame e.1) (encode72 e.2)) m') k := by
  induction ws generalizing m m' with
  | nil => exact h
  | cons e ws ih =>
    rw [List.foldl_cons, List.foldl_cons]
    refine ih ?_
    rw [look_upd, look_upd, h]

/-- The frame of address `a` that the image in place lists. -/
def ownFrame (s : State) (a : BitVec 32) : Option Frame :=
  match image s with
  | some i => i.frames.find? fun f => f.addr = a
  | none => none

theorem ownWords_eq (s : State) (a : BitVec 32) : ownWords s a = ((ownFrame s a).map (putFrame [])).getD [] := by
  unfold ownWords ownFrame
  cases image s with
  | none => rfl
  | some i =>
    dsimp only
    cases i.frames.find? fun f => f.addr = a <;> rfl

/-- A frame that the image lists stands at its address, and its words lie in it. -/
theorem ownFrame_some {s : State} {a : BitVec 32} {f : Frame} (hs : (image s).all streamOk = true)
    (h : ownFrame s a = some f) :
    f.addr = a ∧ ∀ e ∈ f.words, e.1 < 512 := by
  unfold ownFrame at h
  cases hi : image s with
  | none => simp [hi] at h
  | some i =>
    rw [hi] at h hs
    have addr := List.find?_some h
    have ok := List.all_eq_true.mp (show i.frames.all _ = true from hs) f (List.mem_of_find?_eq_some h)
    simp only [Bool.and_eq_true, List.all_eq_true, decide_eq_true_eq] at ok addr
    exact ⟨addr, ok.1.1⟩

/-- What the configuration store holds after a frame has been rewritten: in the frame the words of the part, elsewhere what it
held (R367, R400). -/
theorem look_rewriteFrame {s : State} (hs : (image s).all streamOk = true) (a : BitVec 32) (k : Nat) :
    look 0 (rewriteFrame s a).cfg k = if k / 512 = a.toNat / 128 then look 0 (ownWords s a) k else look 0 s.cfg k := by
  have cleared : look 0 (s.cfg.filter fun e => e.1 / 512 != a.toNat / 128) k =
      if k / 512 = a.toNat / 128 then 0 else look 0 s.cfg k := by
    rw [look_filter 0 s.cfg (fun j => j / 512 != a.toNat / 128)]
    by_cases h : k / 512 = a.toNat / 128 <;> simp [h]
  have cfg : (rewriteFrame s a).cfg = match ownFrame s a with
      | some f => putFrame (s.cfg.filter fun e => e.1 / 512 != a.toNat / 128) f
      | none => s.cfg.filter fun e => e.1 / 512 != a.toNat / 128 := by
    unfold rewriteFrame
    dsimp only
    split <;> [rfl; (split <;> rfl)]
  rw [cfg, ownWords_eq]
  cases hf : ownFrame s a with
  | none => exact cleared
  | some f =>
    obtain ⟨addr, inFrame⟩ := ownFrame_some hs hf
    simp only [Option.map_some, Option.getD_some, putFrame, addr]
    split
    · rename_i h
      exact look_foldl_upd_congr _ (cleared.trans (if_pos h))
    · rename_i h
      rw [look_foldl_upd_other h _ inFrame, cleared, if_neg h]

/-! The rewriting of the queue. -/

/-- Beside its frame, a rewriting returns the crew's data stores or keepers to their initial values, and the care map's words
of the frame are no longer known bad. -/
theorem rewriteFrame_only (s : State) (a : BitVec 32) : ∃ cfg careUe slots groups keepers, rewriteFrame s a =
    { s with cfg := cfg, scb := { s.scb with careUe := careUe }, slots := slots, groups := groups,
             fab := { s.fab with keepers := keepers } } := by
  unfold rewriteFrame
  extract_lets k own m s1 p c
  split
  · exact ⟨_, _, _, _, _, rfl⟩
  · split
    · exact ⟨_, _, _, _, _, rfl⟩
    · exact ⟨_, _, _, _, _, rfl⟩

/-- The frames are rewritten from the image in place, which stays. -/
theorem rewriteFrames_only (l : List (BitVec 32)) (s : State) : ∃ cfg careUe slots groups keepers, l.foldl rewriteFrame s =
    { s with cfg := cfg, scb := { s.scb with careUe := careUe }, slots := slots, groups := groups,
             fab := { s.fab with keepers := keepers } } := by
  induction l generalizing s with
  | nil => exact ⟨s.cfg, s.scb.careUe, s.slots, s.groups, s.fab.keepers, rfl⟩
  | cons a l ih =>
    obtain ⟨_, _, _, _, _, h⟩ := rewriteFrame_only s a
    rw [List.foldl_cons, h]
    obtain ⟨_, _, _, _, _, h⟩ := ih _
    exact ⟨_, _, _, _, _, h⟩

theorem image_rewriteFrame (s : State) (a : BitVec 32) : image (rewriteFrame s a) = image s := by
  obtain ⟨_, _, _, _, _, h⟩ := rewriteFrame_only s a
  rw [h]
  rfl

theorem ownWords_rewriteFrame (s : State) (a b : BitVec 32) : ownWords (rewriteFrame s a) b = ownWords s b := by
  rw [ownWords, ownWords, image_rewriteFrame]

/-- A word of no queued frame is left as it stands. -/
theorem look_rewriteFrames_other {l : List (BitVec 32)} {s : State} {k : Nat} (hs : (image s).all streamOk = true)
    (hk : ∀ a ∈ l, k / 512 ≠ a.toNat / 128) : look 0 (l.foldl rewriteFrame s).cfg k = look 0 s.cfg k := by
  induction l generalizing s with
  | nil => rfl
  | cons a l ih =>
    rw [List.foldl_cons, ih (by rw [image_rewriteFrame]; exact hs) (fun b hb => hk b (List.mem_cons_of_mem _ hb)),
      look_rewriteFrame hs, if_neg (hk a List.mem_cons_self)]

/-- A word of a queued frame is the part's, since frames of the queue that share their words are one frame. -/
theorem look_rewriteFrames {l : List (BitVec 32)} {s : State} {k : Nat} {a : BitVec 32} (hs : (image s).all streamOk = true)
    (hl : ∀ b ∈ l, b.toNat % 128 = 0) (ha : a ∈ l) (hk : k / 512 = a.toNat / 128) :
    look 0 (l.foldl rewriteFrame s).cfg k = look 0 (ownWords s a) k := by
  induction l generalizing s with
  | nil => cases ha
  | cons b l ih =>
    have hs' : (image (rewriteFrame s b)).all streamOk = true := by rw [image_rewriteFrame]; exact hs
    have hl' : ∀ c ∈ l, c.toNat % 128 = 0 := fun c hc => hl c (List.mem_cons_of_mem _ hc)
    rw [List.foldl_cons]
    by_cases later : a ∈ l
    · rw [ih hs' hl' later, ownWords_rewriteFrame]
    · obtain rfl : a = b := by
        rcases List.mem_cons.mp ha with h | h
        · exact h
        · exact absurd h later
      have apart : ∀ c ∈ l, k / 512 ≠ c.toNat / 128 := fun c hc e => by
        have same : c.toNat = a.toNat := by
          have := hl' c hc
          have := hl a List.mem_cons_self
          omega
        exact later (BitVec.eq_of_toNat_eq same ▸ hc)
      rw [look_rewriteFrames_other hs' apart, look_rewriteFrame hs, if_pos hk]

/-- Recovery writes every queued frame as the part lists it, and no other (R367, R400, R401). -/
theorem recoveryWrite_writes {s : State} (hst : s.scb.st = .write) (hf : s.scb.full = none)
    (hs : (image s).all streamOk = true) (hl : ∀ a ∈ s.scb.queue, a.toNat % 128 = 0) : Answers .recoveryWrite s fun t =>
      t.scb.st = .idle ∧ t.scb.queue = [] ∧
      (∀ a ∈ s.scb.queue, ∀ w, w < 512 → look 0 t.cfg (cfgKey (a.toNat / 128) w) =
        look 0 (ownWords s a) (cfgKey (a.toNat / 128) w)) ∧
      (∀ k, (∀ a ∈ s.scb.queue, k / 512 ≠ a.toNat / 128) → look 0 t.cfg k = look 0 s.cfg k) ∧
      t.bank = s.bank ∧ t.deep = s.deep ∧ t.shadow = s.shadow ∧ t.cox = s.cox := by
  have cfg : (recoveryWrite s).cfg = (s.scb.queue.foldl rewriteFrame s).cfg := by simp [recoveryWrite, hf]
  refine .of_next (whenever_true _ _ (by simp [hst])) ⟨by simp [recoveryWrite, hf], by simp [recoveryWrite, hf],
    fun a ha w hw => ?_, fun k hk => ?_, ?_⟩
  · rw [cfg]
    exact look_rewriteFrames hs hl ha (by unfold cfgKey; omega)
  · rw [cfg]
    exact look_rewriteFrames_other hs hk
  · obtain ⟨_, _, _, _, _, h⟩ := rewriteFrames_only s.scb.queue s
    simp [recoveryWrite, hf, h]

end Sys2Proof.Machine
end

section
/-! PROOFS. The voted registers (R403): one copy corrected, or three that differ, with what the lost one takes with it. -/

namespace Sys2Proof.Machine

/-! What the end of a load keeps. -/

/-- The memories, the data stores and the pins are as they were; the configuration may differ. -/
structure KeepsData (s t : State) : Prop where
  bank : t.bank = s.bank
  deep : t.deep = s.deep
  slots : t.slots = s.slots
  groups : t.groups = s.groups
  pins : t.pins = s.pins

theorem KeepsData.refl (s : State) : KeepsData s s := ⟨rfl, rfl, rfl, rfl, rfl⟩

theorem KeepsData.trans {s t u : State} (h : KeepsData s t) (k : KeepsData t u) : KeepsData s u :=
  ⟨k.bank.trans h.bank, k.deep.trans h.deep, k.slots.trans h.slots, k.groups.trans h.groups, k.pins.trans h.pins⟩

theorem KeepsData.foldl {α : Type} {f : State → α → State} (h : ∀ x a, KeepsData x (f x a)) (l : List α) (s : State) :
    KeepsData s (l.foldl f s) :=
  l.foldlRecOn f (.refl s) fun x hx a _ => hx.trans (h x a)

/-- What keeps the design and the pins keeps the data. -/
theorem SameDesign.data {s t : State} (h : SameDesign s t) (hp : t.pins = s.pins) : KeepsData s t := by
  obtain ⟨hb, hd, hs, -, -, hg, -⟩ := h
  exact ⟨hb, hd, hs, hg, hp⟩

theorem keepsDesign_openLinks (s : State) : KeepsDesign s (openLinks s) :=
  (keepsDesign_regs s (regs := s.regs) (ctrs := s.ctrs) (snaps := s.snaps) (net := s.net)).trans
    (.foldl (fun x n => (quiet_leaveOff x n).toKeepsDesign) _ _)

theorem keepsDesign_endLoad (v : Verdict) (s : State) : KeepsDesign s (endLoad v s) := by
  have noted : KeepsDesign s (noteVerdict v s) := (keepsDesign_setFld _ _ s).trans
    ((keepsDesign_setFld _ _ _).trans ((keepsDesign_setFld _ _ _).trans (keepsDesign_setFld _ _ _)))
  have idle : ∀ x, KeepsDesign x (loaderIdle x) := fun x =>
    ((quiet_outside x).trans (quiet_toLoader _ _)).toKeepsDesign.trans (.iff _ (keepsDesign_openLinks _))
  exact (noted.trans (idle _)).trans (quiet_outside _).toKeepsDesign

/-- A load that is aborted takes the controller's image away, and nothing of the design (R375). -/
theorem abortRecovery_keeps (s : State) : SameDesign s (abortRecovery s) ∧ (abortRecovery s).pins = s.pins := by
  have kept := (quiet_logEvent evLoadAborted locNone 0 { s with cox := { s.cox with st := .noImage } }).toKeepsDesign
  exact ⟨kept.design, kept.pins⟩

theorem endLoad_keeps (v : Verdict) (s : State) : SameDesign s (endLoad v s) ∧ (endLoad v s).pins = s.pins :=
  ⟨(keepsDesign_endLoad v s).design, (keepsDesign_endLoad v s).pins⟩

theorem abortRecovery_endLoad_keeps (v : Verdict) (s : State) :
    SameDesign s (abortRecovery (endLoad v s)) ∧ (abortRecovery (endLoad v s)).pins = s.pins := by
  obtain ⟨design, pins⟩ := endLoad_keeps v s
  obtain ⟨design', pins'⟩ := abortRecovery_keeps (endLoad v s)
  exact ⟨design.trans design', pins'.trans pins⟩

theorem failLoad_keeps (v : Verdict) (s : State) : SameDesign s (failLoad v s) ∧ (failLoad v s).pins = s.pins := by
  unfold failLoad iff
  dsimp only
  split
  · exact abortRecovery_endLoad_keeps v s
  · exact endLoad_keeps v s

/-- Pass B of a part that is not a base part fails: of the data and the pins nothing changes (R375). -/
theorem keepsData_passBFails (v : Verdict) (s : State) {j : Job} (h : baseJob j = false) : KeepsData s (passBFails v j s) := by
  have ended : ∀ x, KeepsData x (endLoad v x) := fun x => (endLoad_keeps v x).1.data (endLoad_keeps v x).2
  have died : ∀ x p, KeepsData x (iff (enabled x p) (fun y => adoptShadow p (setPort p .dead y)) x) := fun x p => by
    unfold iff
    split <;> exact ⟨rfl, rfl, rfl, rfl, rfl⟩
  have region : ∀ x r g, KeepsData x (setRegion r g x) := fun _ _ _ => ⟨rfl, rfl, rfl, rfl, rfl⟩
  unfold passBFails
  rw [if_neg (by simp [h])]
  split
  · exact ((KeepsData.foldl died _ s).trans (region _ _ _)).trans (ended _)
  · exact ended s

/-! A register whose three copies differ. -/

/-- What the loss of the loader's register does to a load in progress. -/
def loadLost (s : State) : State :=
  match s.ldr.job with
  | some j =>
    if s.ldr.passB then
      (if baseJob j then abortRecovery (endLoad ⟨ccInternal, 0, 0, 0⟩ s) else passBFails ⟨ccInternal, 0, 0, 0⟩ j s)
    else failLoad ⟨ccInternal, 0, 0, 0⟩ s
  | none => s

theorem voteLost_loader (s : State) : voteLost 0x50000 s = setReg 0x50000 0 (loadLost s) := rfl

theorem keepsData_loadLost (s : State) : KeepsData s (loadLost s) := by
  have kept : ∀ {x}, SameDesign s x ∧ x.pins = s.pins → KeepsData s x := fun h => h.1.data h.2
  unfold loadLost
  split
  · split
    · split
      · exact kept (abortRecovery_endLoad_keeps _ s)
      · rename_i h
        exact keepsData_passBFails _ s (by simpa using h)
    · exact kept (failLoad_keeps _ s)
  · exact .refl s

/-- Outside pass B a lost load leaves the whole design. -/
theorem sameDesign_loadLost {s : State} (h : s.ldr.passB = false) : SameDesign s (loadLost s) := by
  unfold loadLost
  rw [h]
  split
  · exact (failLoad_keeps _ s).1
  · exact .refl s

/-- A register that is lost takes its reset value, with the state that it stands for (R403). -/
structure VoteLost (a : Nat) (s u : State) : Prop where
  reset : reg u a = regReset a
  data : KeepsData s u
  design : (a = 0x50000 → s.ldr.passB = false) → SameDesign s u
  queue : a = 0x60050 → u.scb.queue = [] ∧ u.scb.st = .idle

/-- A scrubber's rate is lost with its position. -/
theorem voteLost_pair {a b : Nat} (s : State) (hb : a ≠ b) (hq : a ≠ 0x60050) :
    VoteLost a s (setReg b 0 (setReg a (regReset a) s)) :=
  ⟨by rw [reg_setReg_ne _ _ hb, reg_setReg_same], ⟨rfl, rfl, rfl, rfl, rfl⟩, fun _ => .refl s, fun h => absurd h hq⟩

theorem voteLost_spec (a : Nat) (s : State) : VoteLost a s (voteLost a s) := by
  by_cases h0 : a = 0x50000
  · subst h0
    rw [voteLost_loader]
    exact ⟨reg_setReg_same _ _ _, (keepsData_loadLost s).trans ⟨rfl, rfl, rfl, rfl, rfl⟩,
      fun h => (sameDesign_loadLost (h rfl)).trans (.refl _), fun h => absurd h (by decide)⟩
  · unfold voteLost
    dsimp only
    rw [if_neg h0]
    split
    · rename_i h
      subst h
      exact ⟨reg_setReg_same _ _ _, ⟨rfl, rfl, rfl, rfl, rfl⟩, fun _ => .refl s, fun _ => ⟨rfl, rfl⟩⟩
    · rename_i h3
      split
      · exact voteLost_pair s (by omega) h3
      · split
        · exact voteLost_pair s (by omega) h3
        · split
          · exact voteLost_pair s (by omega) h3
          · exact ⟨reg_setReg_same _ _ _, ⟨rfl, rfl, rfl, rfl, rfl⟩, fun _ => .refl s, fun h => absurd h h3⟩

/-! The command. -/

/-- A recovery that fails keeps its queue. -/
theorem recoverFail_spec (code : Nat) (s : State) : (recoverFail code s).scb.st = .failed ∧
    (recoverFail code s).scb.queue = s.scb.queue ∧ ∀ b, b ≠ 0x20 → reg (recoverFail code s) b = reg s b := by
  have logged : ∀ b, b ≠ 0x20 → reg (logEvent evConfigRecoverFail locNone code
      { s with scb := { s.scb with st := .failed, fail := code } }) b = reg s b := fun b hb => by
    rw [reg_logEvent _ _ _ _ hb]
    rfl
  have ends : ∀ f x, (fullEnd code f x).scb.st = x.scb.st ∧ (fullEnd code f x).scb.queue = x.scb.queue ∧
      (fullEnd code f x).regs = x.regs := fun _ _ => ⟨rfl, rfl, rfl⟩
  unfold recoverFail iff
  dsimp only
  split
  · split
    · obtain ⟨st, queue, regs⟩ := ends _ _
      exact ⟨st.trans (by simp), queue.trans (by simp), fun b hb => (reg_of_regs regs b).trans (logged b hb)⟩
    · exact ⟨by simp, by simp, logged⟩
  · exact ⟨by simp, by simp, logged⟩

theorem voted_ne_evlog {k : Nat} (h : k < 9) : voted.getD k 0 ≠ 0x20 := by
  interval_cases k <;> decide

theorem exec_scrubSelfCorrect {s : State} {k : BitVec 4} (three : Bool) (hu : hostUp s = true)
    (hk : k.toNat < 9) :
    exec (.scrubSelfCorrect k three) s = .next (selfCorrect (voted.getD k.toNat 0) three s) :=
  (forUnit_true _ (by simpa using hk)).trans (whenever_true _ _ hu)

theorem exec_scrubSelfCorrect_unknown (s : State) {k : BitVec 4} (three : Bool) (hk : 9 ≤ k.toNat) :
    exec (.scrubSelfCorrect k three) s = .fault .noSuchUnit := forUnit_false _ (by simpa using hk)

theorem onlyLogged_of_logOnly {cs rs : List Nat} {s t : State} (h : LogOnly s t)
    (hr : ∀ a, a ≠ 0x20 → a ∉ rs → reg t a = reg s a) (hc : ∀ a, a ≠ 0x24 → a ≠ 0x700C8 → a ∉ cs → ctr t a = ctr s a) :
    OnlyLogged cs rs s t := by
  refine ⟨?_, hr, hc⟩
  obtain ⟨_, _, _, _, _, _, _, rfl⟩ := h
  rfl

theorem logOnly_logEvent (c l d : Nat) (s : State) : LogOnly s (logEvent c l d s) :=
  (logOnly_log0 c l d s).trans (logOnly_settle 4 _)

theorem logOnly_count (a : Nat) (s : State) : LogOnly s (count a s) := (logOnly_bump a 1 s).trans (logOnly_settle 4 _)

/-- One copy that differs is corrected, counted and logged. -/
theorem selfCorrect_one (a : Nat) (s : State) :
    ctr (selfCorrect a false s) 0x60038 = min (2 ^ 48 - 1) (ctr s 0x60038 + 1) ∧
    OnlyLogged [0x60038] [] s (selfCorrect a false s) := by
  have plain : plainCtr 0x60038 := by unfold plainCtr; decide
  unfold selfCorrect
  rw [if_neg Bool.false_ne_true]
  refine ⟨(ctr_logEvent _ _ _ _ plain).trans (ctr_count _ _ plain),
    onlyLogged_of_logOnly ((logOnly_count _ s).trans (logOnly_logEvent _ _ _ _)) (fun b hb _ => ?_) fun b h1 h2 hb => ?_⟩
  · rw [reg_logEvent _ _ _ _ hb, reg_count _ _ hb]
  · exact (ctr_logEvent _ _ _ _ ⟨h1, h2⟩).trans (ctr_countN_ne 1 s ⟨h1, h2⟩ (by simpa using hb))

/-- Three copies that differ: the register takes its reset value, and a recovery in progress fails. -/
theorem selfCorrect_three {a : Nat} (s : State) (ha : a ≠ 0x20) :
    reg (selfCorrect a true s) a = regReset a ∧ KeepsData s (selfCorrect a true s) ∧
    (recovering s = true → (selfCorrect a true s).scb.st = .failed) ∧
    (a = 0x60050 → (selfCorrect a true s).scb.queue = [] ∧ (recovering s = false → (selfCorrect a true s).scb.st = .idle)) ∧
    ((a = 0x50000 → s.ldr.passB = false) → SameDesign s (selfCorrect a true s)) := by
  have lost := voteLost_spec a s
  obtain ⟨failed, queue, regs⟩ := recoverFail_spec ccInternal (voteLost a s)
  have fails := (reported_recoverFail (cs := []) ccInternal (voteLost a s)).keeps
  have logged := fun x => quiet_logEvent evScrubSelfCorrect (locAddr a true) (a % 65536) x
  have kept : ∀ {x}, reg x a = regReset a → KeepsStroke (voteLost a s) x →
      reg (logEvent evScrubSelfCorrect (locAddr a true) (a % 65536) x) a = regReset a ∧
      KeepsData s (logEvent evScrubSelfCorrect (locAddr a true) (a % 65536) x) ∧
      ((a = 0x50000 → s.ldr.passB = false) → SameDesign s (logEvent evScrubSelfCorrect (locAddr a true) (a % 65536) x)) :=
    fun {x} hx k => ⟨(reg_logEvent _ _ _ _ ha).trans hx,
      (lost.data.trans (k.design.data k.pins)).trans ((logged x).design.data (logged x).pins),
      fun h => ((lost.design h).trans k.design).trans (logged x).design⟩
  unfold selfCorrect
  rw [if_pos rfl]
  dsimp only
  cases recovering s
  · obtain ⟨reset, data, design⟩ := kept lost.reset (Reported.refl (cs := []) (voteLost a s)).keeps
    exact ⟨reset, data, nofun, fun h => ⟨by rw [iff_no, logEvent_scb, (lost.queue h).1],
      fun _ => by rw [iff_no, logEvent_scb, (lost.queue h).2]⟩, design⟩
  · obtain ⟨reset, data, design⟩ := kept ((regs a ha).trans lost.reset) fails
    exact ⟨reset, data, fun _ => by rw [iff_yes, logEvent_scb, failed],
      fun h => ⟨by rw [iff_yes, logEvent_scb, queue, (lost.queue h).1], nofun⟩, design⟩

theorem scrubSelfCorrect_one {s : State} {k : BitVec 4} (hu : hostUp s = true) (hk : k.toNat < 9) :
    Answers (.scrubSelfCorrect k false) s fun t => ctr t 0x60038 = min (2 ^ 48 - 1) (ctr s 0x60038 + 1) ∧
      OnlyLogged [0x60038] [] s t :=
  .of_next (exec_scrubSelfCorrect false hu hk) (selfCorrect_one _ s)

theorem scrubSelfCorrect_three {s : State} {k : BitVec 4} (hu : hostUp s = true) (hk : k.toNat < 9) :
    Answers (.scrubSelfCorrect k true) s fun t => reg t (voted.getD k.toNat 0) = regReset (voted.getD k.toNat 0) ∧
      (recovering s = true → t.scb.st = .failed) ∧
      (k = 3 → t.scb.queue = [] ∧ (recovering s = false → t.scb.st = .idle)) ∧
      SameStores s { t with cfg := s.cfg } ∧ t.pins = s.pins ∧ ((k = 0 → s.ldr.passB = false) → SameDesign s t) := by
  have loader : ∀ k : BitVec 4, k.toNat < 9 → voted.getD k.toNat 0 = 0x50000 → k = 0 := by decide
  obtain ⟨reset, data, fails, queue, design⟩ := selfCorrect_three s (voted_ne_evlog hk)
  exact .of_next (exec_scrubSelfCorrect true hu hk) ⟨reset, fails, fun h => queue (by rw [h]; rfl),
    ⟨data.bank, data.deep, data.slots, data.groups, rfl⟩, data.pins, fun h => design fun e => h (loader k hk e)⟩

end Sys2Proof.Machine
end

section
/-! PROOFS. The scrubber reads an item (R393 to R399). -/

namespace Sys2Proof.Machine

/-! The walk changes only its own two registers. -/

/-- Only SCB.CFG_POS and SCB.CFG_PASS differ. -/
def Walked (s t : State) : Prop := OnlyRegs s t ∧ RegsBut [0x60004, 0x60008] s t

theorem walked_setReg {a : Nat} (v : Word) (s : State) (h : a ∈ [0x60004, 0x60008]) : Walked s (setReg a v s) :=
  ⟨rfl, fun _ hb => reg_setReg_ne v s fun e => hb (e ▸ h)⟩

theorem Walked.trans {s t u : State} (h : Walked s t) (k : Walked t u) : Walked s u := by
  refine ⟨?_, fun a ha => (k.2 a ha).trans (h.2 a ha)⟩
  have := k.1
  rw [h.1] at this
  exact this

theorem walked_passStart (s : State) : Walked s (passStart s) := by
  unfold passStart
  split
  · exact walked_setReg (a := 0x60008) _ s (by decide)
  · exact ⟨rfl, fun _ _ => rfl⟩

theorem walked_passEnd (s : State) : Walked s (passEnd s) :=
  (walked_setReg (a := 0x60008) _ s (by decide)).trans (walked_setReg _ _ (by decide))

theorem Walked.logOnly {s t : State} (h : Walked s t) : LogOnly s t :=
  ⟨t.regs, s.ctrs, s.evlog, s.evTick, s.evIn, s.satDue, s.trc.committed, h.1⟩

/-- The scrubber reads the item that `reads` names, and moves on (R396). -/
theorem scrubItem_reads {s : State} {x : Item} (h : reads s x = true) :
    ∃ t, exec .scrubItem s = .next t ∧ Walked (scrubItem x (passStart s)).2 t := by
  simp only [reads, Bool.and_eq_true, Option.any_eq_true] at h
  obtain ⟨runs, ⟨p, a, i⟩, place, item, free⟩ := h
  simp only [scrubs, Bool.and_eq_true] at runs
  obtain ⟨⟨⟨⟨up, post⟩, load⟩, full⟩, rate⟩ := runs
  have exec_eq : exec .scrubItem s = .next (backgroundStep s) := by
    refine (whenever_true _ _ (by rw [up, post, load]; rfl)).trans ?_
    rw [Option.isNone_iff_eq_none.mp full, rate]
    rfl
  have placed : walkTo (passStart s) (flag (passStart s) fBelowL) 520 (bits (reg (passStart s) 0x60004) 22 7)
      (bits (reg (passStart s) 0x60004) 30 2) (bits (reg (passStart s) 0x60004) 0 22) = some (p, a, i) := by
    have pos : reg (passStart s) 0x60004 = reg s 0x60004 := by
      unfold passStart
      split
      · exact reg_setFlag_ne _ s (by decide)
      · rfl
    rw [pos]
    exact place
  have own : bpsOwn (passStart s) x = false := by
    rw [(walked_passStart s).1]
    exact (Bool.not_eq_true' _).mp free
  have itemIs : itemAt (passStart s) (flag (passStart s) fBelowL) p a i = x := beq_iff_eq.mp item
  refine ⟨_, exec_eq, ?_⟩
  unfold backgroundStep
  dsimp only
  rw [placed]
  dsimp only
  rw [itemIs, own, if_neg Bool.false_ne_true]
  split
  · exact walked_setReg _ _ (by decide)
  · exact walked_passEnd _

/-! What the check of an item rests on is no register. -/

section
variable {s t : State} (h : OnlyRegs s t) (x : Item)
include h

theorem itemCheck_of_onlyRegs : itemCheck t x = itemCheck s x := by rw [h]; rfl

theorem itemCare_of_onlyRegs : itemCare t x = itemCare s x := by rw [h]; rfl

theorem groupInit_of_onlyRegs : groupInit t x = groupInit s x := by rw [h]; rfl

end

/-! The write of an item. -/

section
variable (x : Item) (w : Nat) (s : State)

theorem putItem_cfg (k : Nat) : look 0 (putItem x w s).cfg k =
    if k = x.key ∧ x.area ≠ 1 then BitVec.ofNat 72 w else look 0 s.cfg k := by
  unfold putItem
  split
  · rename_i h
    rw [if_neg (fun e => e.2 h)]
  · rename_i h
    dsimp only
    rw [look_upd]
    simp [h]

theorem putItem_groups (k : Nat) : look 0 (putItem x w s).groups k =
    if k = x.key ∧ x.area = 1 then BitVec.ofNat 39 (w ^^^ groupInit s x) else look 0 s.groups k := by
  unfold putItem
  split
  · rename_i h
    dsimp only
    rw [look_upd]
    simp [h]
  · rename_i h
    rw [if_neg (fun e => h e.2)]

/-- Beside the two stores of items nothing is written. -/
theorem putItem_keeps : (putItem x w s).bank = s.bank ∧ (putItem x w s).deep = s.deep ∧ (putItem x w s).slots = s.slots ∧
    (putItem x w s).cox = s.cox ∧ (putItem x w s).scb = s.scb ∧ (putItem x w s).ctrs = s.ctrs ∧
    (x.area ≠ 1 → (putItem x w s).groups = s.groups) ∧ (x.area = 1 → (putItem x w s).cfg = s.cfg) := by
  unfold putItem
  split
  · rename_i h
    exact ⟨rfl, rfl, rfl, rfl, rfl, rfl, fun n => absurd h n, fun _ => rfl⟩
  · rename_i h
    exact ⟨rfl, rfl, rfl, rfl, rfl, rfl, fun _ => rfl, fun e => absurd e h⟩

end

/-! Reports that log alone. -/

/-- What logging leaves of the state that the items' clauses speak of. -/
theorem LogOnly.keeps {s t : State} (h : LogOnly s t) : SameDesign s t ∧ t.cox = s.cox ∧ t.scb = s.scb ∧ t.wide = s.wide := by
  obtain ⟨_, _, _, _, _, _, _, rfl⟩ := h
  exact ⟨.refl s, rfl, rfl, rfl⟩

theorem logOnly_setReg (a : Nat) (v : Word) (s : State) : LogOnly s (setReg a v s) :=
  ⟨_, s.ctrs, s.evlog, s.evTick, s.evIn, s.satDue, s.trc.committed, rfl⟩

/-- The record of an item's error is written to its two registers, or stays (R409). -/
theorem recordItem_cases (x : Item) (synd : Nat) (ue care : Bool) (s : State) : recordItem x synd ue care s = s ∨
    ∃ v w, recordItem x synd ue care s = setReg 0x60014 w (setReg 0x60010 v s) := by
  unfold recordItem
  dsimp only
  split
  · exact .inr ⟨_, _, rfl⟩
  · exact .inl rfl

theorem logOnly_recordItem (x : Item) (synd : Nat) (ue care : Bool) (s : State) : LogOnly s (recordItem x synd ue care s) := by
  rcases recordItem_cases x synd ue care s with h | ⟨v, w, h⟩
  · rw [h]
    exact .refl s
  · rw [h]
    exact (logOnly_setReg _ _ s).trans (logOnly_setReg _ _ _)

theorem ctr_recordItem (x : Item) (synd : Nat) (ue care : Bool) (s : State) (a : Nat) :
    ctr (recordItem x synd ue care s) a = ctr s a := by
  rcases recordItem_cases x synd ue care s with h | ⟨v, w, h⟩
  · rw [h]
  · rw [h]
    rfl

theorem ctr_of_walked {s t : State} (h : Walked s t) (a : Nat) : ctr t a = ctr s a := by
  rw [h.1]
  rfl

/-! The item's class. -/

section
variable {s : State} {x : Item}

/-- A sound item is only passed. -/
theorem scrubItem_clean (h : reads s x = true) (hc : (itemCheck s x).cls = .clean) : Answers .scrubItem s fun t =>
    RegsBut [0x60004, 0x60008] s t ∧ t = { s with regs := t.regs } := by
  obtain ⟨t, next, walked⟩ := scrubItem_reads h
  have start := walked_passStart s
  have same : (scrubItem x (passStart s)).2 = passStart s := by
    simp only [scrubItem, itemCheck_of_onlyRegs start.1, hc]
  rw [same] at walked
  exact .of_next next ⟨(start.trans walked).2, (start.trans walked).1⟩

/-- A correctable item is corrected in place and counted (R398). -/
theorem scrubItem_fixed (h : reads s x = true) (hc : (itemCheck s x).cls = .fixed) : Answers .scrubItem s fun t =>
    ctr t 0x60020 = min (2 ^ 48 - 1) (ctr s 0x60020 + 1) ∧
    (∀ k, look 0 t.cfg k = if k = x.key ∧ x.area ≠ 1 then BitVec.ofNat 72 (itemCheck s x).word else look 0 s.cfg k) ∧
    (∀ k, look 0 t.groups k = if k = x.key ∧ x.area = 1
      then BitVec.ofNat 39 ((itemCheck s x).word ^^^ groupInit s x) else look 0 s.groups k) ∧
    t.bank = s.bank ∧ t.deep = s.deep ∧ t.slots = s.slots ∧ t.cox = s.cox ∧ t.scb = s.scb := by
  obtain ⟨t, next, walked⟩ := scrubItem_reads h
  have start := walked_passStart s
  have plain : plainCtr 0x60020 := by unfold plainCtr; decide
  have same : (scrubItem x (passStart s)).2 = itemFixed x (itemCheck s x) (passStart s) := by
    simp only [scrubItem, itemCheck_of_onlyRegs start.1, hc]
  rw [same] at walked
  unfold itemFixed fixItem at walked
  dsimp only at walked
  have cfg := putItem_cfg x (itemCheck s x).word (passStart s)
  have groups := putItem_groups x (itemCheck s x).word (passStart s)
  obtain ⟨bank, deep, slots, cox, scb, ctrs, -⟩ := putItem_keeps x (itemCheck s x).word (passStart s)
  rw [groupInit_of_onlyRegs start.1] at groups
  generalize putItem x (itemCheck s x).word (passStart s) = y at walked cfg groups bank deep slots cox scb ctrs
  obtain ⟨⟨bank0, deep0, slots0, cfg0, -, groups0, -⟩, cox0, scb0, -⟩ := start.logOnly.keeps
  obtain ⟨⟨bank', deep', slots', cfg', -, groups', -⟩, cox', scb', -⟩ := ((((logOnly_count 0x60020 y).trans
    (.iff (ctr (passStart s) 0x60020 == 0) (logOnly_logEvent evConfigCe (itemLoc x) x.area _))).trans
      (logOnly_recordItem _ _ _ _ _)).trans walked.logOnly).keeps
  have counted : ctr t 0x60020 = ctr (count 0x60020 y) 0x60020 := by
    rw [ctr_of_walked walked, ctr_recordItem]
    unfold iff
    split
    · exact ctr_logEvent _ _ _ _ plain
    · rfl
  refine .of_next next ⟨?_, fun k => ?_, fun k => ?_, bank'.trans (bank.trans bank0), deep'.trans (deep.trans deep0),
    slots'.trans (slots.trans slots0), cox'.trans (cox.trans cox0), scb'.trans (scb.trans scb0)⟩
  · rw [counted, ctr_count _ _ plain, ctr_of_ctrs ctrs, ctr_of_walked start]
  · rw [cfg', cfg, cfg0]
  · rw [groups', groups, groups0]

/-! An uncorrectable item. -/

theorem careMapBad_readable {p c k : Nat} {s : State} (h : (check72 (look 0 s.cfg k)).cls ≠ .bad) : careMapBad p c k s = s := by
  unfold careMapBad
  dsimp only
  rw [if_pos (by rw [bne_iff_ne.mpr h, Bool.true_or])]

/-- An uncorrectable item whose care map can be read is queued if it is care, and becomes zero if it is not (R398). -/
theorem itemBad_plain (e : Ecc) (h : plainBad s x = true) : itemBad x e s =
    if itemCare s x then careError x.pav x.crew x.bp x.area x.frame (recordItem x e.synd true true s)
    else zeroItem x (recordItem x e.synd true false (count 0x60030 s)) := by
  simp only [plainBad, Bool.and_eq_true, Bool.not_eq_true', List.all_eq_true, bne_iff_ne] at h
  obtain ⟨⟨⟨-, map⟩, dynamic⟩, readable⟩ := h
  have known : (careWordsOf x).foldl (fun y k => careMapBad x.pav x.crew k y) s = s :=
    (careWordsOf x).foldlRecOn (motive := (· = s)) _ rfl fun y hy k hk => by
      rw [hy, careMapBad_readable (readable k hk)]
  unfold itemBad
  dsimp only
  rw [map, if_neg Bool.false_ne_true, known, dynamic, if_neg Bool.false_ne_true]

theorem plainBad_of_onlyRegs {s t : State} (h : OnlyRegs s t) (x : Item) : plainBad t x = plainBad s x := by rw [h]; rfl

/-- What the scrubber does to such an item. -/
theorem scrubItem_bad (h : reads s x = true) (hb : plainBad s x = true) : ∃ t, exec .scrubItem s = .next t ∧
    Walked (if itemCare s x then
        careError x.pav x.crew x.bp x.area x.frame (recordItem x (itemCheck s x).synd true true (passStart s))
      else zeroItem x (recordItem x (itemCheck s x).synd true false (count 0x60030 (passStart s)))) t := by
  obtain ⟨t, next, walked⟩ := scrubItem_reads h
  have start := (walked_passStart s).1
  have bad : (itemCheck s x).cls = .bad := by
    simp only [plainBad, Bool.and_eq_true, beq_iff_eq] at hb
    obtain ⟨⟨⟨bad, -⟩, -⟩, -⟩ := hb
    exact bad
  have same : (scrubItem x (passStart s)).2 = itemBad x (itemCheck s x) (passStart s) := by
    simp only [scrubItem, itemCheck_of_onlyRegs start, bad]
  rw [same, itemBad_plain _ ((plainBad_of_onlyRegs start x).trans hb), itemCare_of_onlyRegs start] at walked
  exact ⟨t, next, walked⟩

/-- A don't-care item becomes zero data, and is counted (R398). -/
theorem scrubItem_dontCare (h : reads s x = true) (hb : plainBad s x = true) (hc : itemCare s x = false) :
    Answers .scrubItem s fun t =>
      ctr t 0x60030 = min (2 ^ 48 - 1) (ctr s 0x60030 + 1) ∧ t.scb = s.scb ∧ t.cox = s.cox ∧
      (x.area ≠ 1 → look 0 t.cfg x.key = 0 ∧ t.groups = s.groups) ∧
      (x.area = 1 → look 0 t.groups x.key = BitVec.ofNat 39 (groupInit s x) ∧ t.cfg = s.cfg) ∧
      (∀ k, k ≠ x.key → look 0 t.cfg k = look 0 s.cfg k ∧ look 0 t.groups k = look 0 s.groups k) ∧
      t.bank = s.bank ∧ t.deep = s.deep ∧ t.slots = s.slots := by
  obtain ⟨t, next, walked⟩ := scrubItem_bad h hb
  have start := walked_passStart s
  have plain : plainCtr 0x60030 := by unfold plainCtr; decide
  rw [hc, if_neg Bool.false_ne_true] at walked
  have counted : ctr (recordItem x (itemCheck s x).synd true false (count 0x60030 (passStart s))) 0x60030 =
      min (2 ^ 48 - 1) (ctr s 0x60030 + 1) := by
    rw [ctr_recordItem, ctr_count _ _ plain, ctr_of_walked start]
  obtain ⟨⟨bank0, deep0, slots0, cfg0, -, groups0, -⟩, cox0, scb0, -⟩ := ((start.logOnly.trans
    (logOnly_count 0x60030 _)).trans (logOnly_recordItem x (itemCheck s x).synd true false _)).keeps
  have init : groupInit (recordItem x (itemCheck s x).synd true false (count 0x60030 (passStart s))) x = groupInit s x := by
    simp only [groupInit, cfgData, cfg0]
  unfold zeroItem at walked
  generalize recordItem x (itemCheck s x).synd true false (count 0x60030 (passStart s)) = y at *
  have cfg := putItem_cfg x 0 y
  have groups := putItem_groups x 0 y
  obtain ⟨bank, deep, slots, cox, scb, ctrs, keepsGroups, keepsCfg⟩ := putItem_keeps x 0 y
  obtain ⟨⟨bank', deep', slots', cfg', -, groups', -⟩, cox', scb', -⟩ := walked.logOnly.keeps
  refine .of_next next ⟨?_, scb'.trans (scb.trans scb0), cox'.trans (cox.trans cox0), fun ha => ⟨?_, ?_⟩, fun ha => ⟨?_, ?_⟩,
    fun k hk => ⟨?_, ?_⟩, bank'.trans (bank.trans bank0), deep'.trans (deep.trans deep0), slots'.trans (slots.trans slots0)⟩
  · rw [ctr_of_walked walked, ctr_of_ctrs ctrs, counted]
  · rw [cfg', cfg, if_pos ⟨rfl, ha⟩]
    rfl
  · rw [groups', keepsGroups ha, groups0]
  · rw [groups', groups, if_pos ⟨rfl, ha⟩, init, Nat.zero_xor]
  · rw [cfg', keepsCfg ha, cfg0]
  · rw [cfg', cfg, if_neg (fun e => hk e.1), cfg0]
  · rw [groups', groups, if_neg (fun e => hk e.1), groups0]

end

/-! A care item. -/

theorem enqueue_keeps_mem {a b : BitVec 32} {s : State} (h : a ∈ s.scb.queue) : a ∈ (enqueue b s).scb.queue := by
  unfold enqueue
  split
  · exact h
  · split
    · split
      · exact h
      · rw [(recoverFail_spec _ _).2.1]
        exact h
    · exact List.mem_append_left _ h

theorem mem_enqueue {a : BitVec 32} {s : State} (h : s.scb.queue.length < 16) : a ∈ (enqueue a s).scb.queue := by
  unfold enqueue
  split
  · rename_i queued
    exact List.contains_iff_mem.mp queued
  · rw [if_neg (by omega)]
    exact List.mem_append_right _ (List.mem_singleton_self a)

/-- A frame is queued where the queue has room (R400). -/
theorem mem_queueFrame {a : BitVec 32} {s : State} (h : s.scb.queue.length < 16) : a ∈ (queueFrame a s).scb.queue := by
  unfold queueFrame
  extract_lets fresh t p c crewFrame s1 s2 s3 s3'
  have room : s1.scb.queue.length < 16 := by
    simp only [s1, iff]
    split <;> exact h
  have h2 : a ∈ s2.scb.queue := mem_enqueue room
  have h3 : a ∈ s3.scb.queue := by
    simp only [s3, iff]
    split
    · exact enqueue_keeps_mem (enqueue_keeps_mem h2)
    · exact h2
  have h4 : a ∈ s3'.scb.queue := h3
  split
  · split
    · exact h4
    · exact h4
  · exact h4

theorem recoverFail_cox (code : Nat) (s : State) : (recoverFail code s).cox = s.cox := by
  unfold recoverFail iff
  dsimp only
  split
  · split
    · exact logEvent_cox _ _ _ _
    · exact logEvent_cox _ _ _ _
  · exact logEvent_cox _ _ _ _

theorem enqueue_cox (a : BitVec 32) (s : State) : (enqueue a s).cox = s.cox := by
  unfold enqueue
  split
  · rfl
  · split
    · split
      · rfl
      · exact recoverFail_cox _ _
    · rfl

/-- Queueing a frame is nothing to the controller. -/
theorem queueFrame_cox (a : BitVec 32) (s : State) : (queueFrame a s).cox = s.cox := by
  unfold queueFrame
  extract_lets fresh t p c crewFrame s1 s2 s3 s3'
  have h1 : s1.cox = s.cox := by
    simp only [s1, iff]
    split <;> rfl
  have h2 : s2.cox = s.cox := (enqueue_cox a s1).trans h1
  have h3 : s3.cox = s.cox := by
    simp only [s3, iff]
    split
    · rw [enqueue_cox, enqueue_cox, h2]
    · exact h2
  have h4 : s3'.cox = s.cox := h3
  split
  · split
    · exact h4
    · exact h4
  · exact h4

/-! The halt that a care item raises. -/

theorem raiseAt_of_same {s u : State} (hc : u.cox = s.cox) (hw : u.wide = s.wide) : raiseAt u = raiseAt s := by
  simp only [raiseAt, gOf, course, wideReg, hc, hw]

/-- A halt request rests on the controller, the course counter and COX.REACH. -/
theorem haltNow_of_same {s u : State} (cause : Nat) (hc : u.cox = s.cox) (hw : u.wide = s.wide)
    (hr : reg u 0xB0050 = reg s 0xB0050) : haltNow u cause = haltNow s cause := by
  have reach : fld u fReachUp = fld s fReachUp ∧ fld u fReachDown = fld s fReachDown := ⟨fld_of_reg hr, fld_of_reg hr⟩
  simp only [haltNow, haltBefore, raiseAt_of_same hc hw, hc, reach]

theorem haltRaised_of_mem {s t : State} {cause : Nat} (hc : cause < 16) (h : haltNow s cause ∈ t.cox.halts) :
    haltRaised s t cause := by
  refine List.any_eq_true.mpr ⟨_, h, ?_⟩
  simp [haltNow, Nat.mod_eq_of_lt hc]

theorem reg_recordItem (x : Item) (synd : Nat) (ue care : Bool) (s : State) {a : Nat} (h : a ≠ 0x60010) (h' : a ≠ 0x60014) :
    reg (recordItem x synd ue care s) a = reg s a := by
  rcases recordItem_cases x synd ue care s with e | ⟨v, w, e⟩
  · rw [e]
  · rw [e, reg_setReg_ne _ _ h', reg_setReg_ne _ _ h]

/-- The error of a care item: counted, its frame queued, and a halt raised (R43, R398). -/
theorem careError_spec (p c b area frame : Nat) (s : State) :
    ctr (careError p c b area frame s) 0x60028 = min (2 ^ 48 - 1) (ctr s 0x60028 + 1) ∧
    (s.scb.queue.length < 16 → BitVec.ofNat 32 (frame * 128) ∈ (careError p c b area frame s).scb.queue) ∧
    (inCourse s = true → haltNow s 3 ∈ (careError p c b area frame s).cox.halts) ∧
    SameDesign s (careError p c b area frame s) := by
  have plain : plainCtr 0x60028 := by unfold plainCtr; decide
  have design := (reported_careError (cs := [0x60028]) p c b area frame s List.mem_cons_self).keeps.design
  unfold careError at *
  have logged : LogOnly s (logEvent evConfigUe (locBp p c b 0) area (count 0x60028 s)) :=
    (logOnly_count _ s).trans (logOnly_logEvent _ _ _ _)
  have counted : ctr (logEvent evConfigUe (locBp p c b 0) area (count 0x60028 s)) 0x60028 =
      min (2 ^ 48 - 1) (ctr s 0x60028 + 1) := (ctr_logEvent _ _ _ _ plain).trans (ctr_count _ s plain)
  have reach : reg (logEvent evConfigUe (locBp p c b 0) area (count 0x60028 s)) 0xB0050 = reg s 0xB0050 := by
    rw [reg_logEvent _ _ _ _ (by decide), reg_count _ _ (by decide)]
  generalize logEvent evConfigUe (locBp p c b 0) area (count 0x60028 s) = u at *
  obtain ⟨-, cox, scb, wide⟩ := logged.keeps
  refine ⟨?_, fun room => mem_queueFrame (by rw [raiseHalt_scb, scb]; exact room), fun course => ?_, design⟩
  · rw [(reported_queueFrame (cs := []) _ _).2 _ plain List.not_mem_nil, ctr_of_ctrs (raiseHalt_ctrs _ _), counted]
  · rw [queueFrame_cox, ← haltNow_of_same 3 cox wide reach]
    exact haltNow_mem_raiseHalt 3 (by simp only [inCourse, cox] at course ⊢; rw [course]; rfl)

/-- A care item that is uncorrectable is counted, halts the course and queues its frame (R43, R398). -/
theorem scrubItem_care {s : State} {x : Item} (h : reads s x = true) (hb : plainBad s x = true) (hc : itemCare s x = true)
    (room : s.scb.queue.length < 16) : Answers .scrubItem s fun t =>
      ctr t 0x60028 = min (2 ^ 48 - 1) (ctr s 0x60028 + 1) ∧ BitVec.ofNat 32 (x.frame * 128) ∈ t.scb.queue ∧
      (inCourse s = true → haltRaised s t 3) ∧ SameDesign s t := by
  obtain ⟨t, next, walked⟩ := scrubItem_bad h hb
  have start := walked_passStart s
  rw [hc, if_pos rfl] at walked
  have recorded := start.logOnly.trans (logOnly_recordItem x (itemCheck s x).synd true true (passStart s))
  have counted : ctr (recordItem x (itemCheck s x).synd true true (passStart s)) 0x60028 = ctr s 0x60028 :=
    (ctr_recordItem _ _ _ _ _ _).trans (ctr_of_walked start _)
  have reach : reg (recordItem x (itemCheck s x).synd true true (passStart s)) 0xB0050 = reg s 0xB0050 :=
    (reg_recordItem _ _ _ _ _ (by decide) (by decide)).trans (start.2 _ (by decide))
  generalize recordItem x (itemCheck s x).synd true true (passStart s) = y at *
  obtain ⟨design0, cox0, scb0, wide0⟩ := recorded.keeps
  obtain ⟨design', cox', scb', -⟩ := walked.logOnly.keeps
  obtain ⟨count, queued, halts, design⟩ := careError_spec x.pav x.crew x.bp x.area x.frame y
  refine .of_next next ⟨?_, ?_, fun course => haltRaised_of_mem (by decide) ?_, (design0.trans design).trans design'⟩
  · rw [ctr_of_walked walked, count, counted]
  · rw [scb']
    exact queued (by rw [scb0]; exact room)
  · rw [cox', ← haltNow_of_same 3 cox0 wide0 reach]
    exact halts (by simp only [inCourse, cox0] at course ⊢; exact course)

/-- Settles O51: the scrubber's four ways with an item, recovery, the voted registers, and the flips. -/
theorem configurationIntegrity : Obligations.ConfigurationIntegrity := by
  unfold Obligations.ConfigurationIntegrity
  exact ⟨fun s x h => ⟨scrubItem_clean h, scrubItem_fixed h, scrubItem_care h, scrubItem_dontCare h⟩,
    fun s => recoveryRead_ends, fun s => recoveryWrite_writes,
    fun s k hu hk => ⟨scrubSelfCorrect_one hu hk, scrubSelfCorrect_three hu hk⟩,
    fun s k three hk => exec_scrubSelfCorrect_unknown s three hk,
    fun s p c b n => ⟨fun bit => upset_sched s p c b n, fun bit => upset_slot s p c b bit, fun g bit => upset_group s p c b⟩,
    fun s a w bit => upset_table s a w, fun s p cw bit => upset_bank s p cw, fun s st cw bit => upset_deep s st cw⟩

end Sys2Proof.Machine
end

section
/-! PROOFS. WIDE (R53 to R59): the value of a quad in its two forms, and what a leader and a member write. -/

namespace Sys2Proof.Machine

/-! The value of a quad. -/

section
variable (s : State) (p c b w : Nat)

/-- The 64-bit table tt3 : tt2 : tt1 : tt0 of a quad whose leader reads word `w` (R55). -/
def quadTable : BitVec 64 :=
  let tt := fun k => ttOf (memberWord s p c (b + k)).data
  BitVec.ofNat 64 (ttOf w + tt 1 * 2 ^ 16 + tt 2 * 2 ^ 32 + tt 3 * 2 ^ 48)

/-- The inputs of a quad's table: the leader's four operands, then member 1's operands A and B (R55). -/
def quadInputs : List (BitVec 2) :=
  let m1 := (memberWord s p c (b + 1)).data
  operands s p c b w ++ [operandBefore s p c (b + 1) s.cox.stroke (opaOf m1),
    operandBefore s p c (b + 1) s.cox.stroke (opbOf m1)]

/-- The word of member `k` of the leader's quad is of class WIDE. -/
def memberWide (k : Nat) : Bool := opOf (memberWord s p c (b + k)).data == 3

/-- A quad forms a value from its table where all its members are WIDE and from the lanes where none is; a leader of another
quad, which no image holds (R54), forms its own f. -/
theorem wideValue_forms {v : BitVec 2} (h : wideValue s p c b w = some v) :
    ([1, 2, 3].all (memberWide s p c b) = true ∧
      v = evalTable (valsOf s) (quadTable s p c b w) (quadInputs s p c b w)) ∨
    ([1, 2, 3].any (memberWide s p c b) = false ∧
      v = evalSelect (valsOf s) (BitVec.ofNat 16 (ttOf w)) (operands s p c b w) (lane s p c s.cox.stroke)) ∨
    (([1, 2, 3].all (memberWide s p c b) = false ∧ [1, 2, 3].any (memberWide s p c b) = true) ∧
      v = evalTable (valsOf s) (BitVec.ofNat 16 (ttOf w)) (operands s p c b w)) := by
  unfold wideValue at h
  extract_lets m ins tt before1 wide at h
  have all : wide.all id = [1, 2, 3].all (memberWide s p c b) := rfl
  have any : wide.any id = [1, 2, 3].any (memberWide s p c b) := rfl
  rw [all, any] at h
  split at h
  · cases h
  · split at h
    · rename_i every
      exact .inl ⟨every, (Option.some.inj h).symm⟩
    · rename_i notEvery
      split at h
      · rename_i mixed
        exact .inr (.inr ⟨⟨Bool.eq_false_of_not_eq_true notEvery, mixed⟩, (Option.some.inj h).symm⟩)
      · rename_i noMember
        exact .inr (.inl ⟨Bool.eq_false_of_not_eq_true noMember, (Option.some.inj h).symm⟩)

end

/-- The value of the select form is as the mode reads it. -/
theorem readVal_evalSelect (s : State) (tt : BitVec 16) (ins : List (BitVec 2)) (lane : Nat → BitVec 2) :
    readVal s (evalSelect (valsOf s) tt ins lane) = evalSelect (valsOf s) tt ins lane := by
  unfold readVal
  cases valsOf s with
  | one => exact setWidth_ofBool_and_one _
  | pair => rfl
  | four => rfl

/-- The value of a quad is as the mode reads it. -/
theorem readVal_wideValue {s : State} {p c b w : Nat} {v : BitVec 2} (h : wideValue s p c b w = some v) :
    readVal s v = v := by
  rcases wideValue_forms s p c b w h with ⟨-, rfl⟩ | ⟨-, rfl⟩ | ⟨-, rfl⟩
  · exact readVal_evalTable s _ _
  · exact readVal_evalSelect s _ _ _
  · exact readVal_evalTable s _ _

/-! What WIDE writes. -/

section
variable {s : State} {p : Pav} {c : Crew} {b : Bp}

/-- In FOURSTATE every value is as the mode reads it. -/
theorem readVal_fourState (v : BitVec 2) (h : fourState s = true) : readVal s v = v := by
  rw [fourState, beq_iff_eq] at h
  simp [readVal, valsOf, h]

theorem wide_member (hr : released s p 2 = true) (h : bpSound s p c b 3 = true) (hb : b.toNat % 4 ≠ 0) :
    Answers (.wide p c b) s fun t => SlotOnly s t p c b (evalTable (valsOf s)
      (BitVec.ofNat 16 (ttOf (bpWord s p c b))) (operands s p.toNat c.toNat b.toNat (bpWord s p c b))) := by
  refine .of_next (execBp_sound _ h) ?_
  rw [wideEffect, if_neg hb]
  exact slotOnly_writeSlot hr (readVal_evalTable s _ _)

/-- A leader writes the value that its quad forms (R55 to R57). -/
theorem wide_leader {v : BitVec 2} (hr : released s p 2 = true) (h : bpSound s p c b 3 = true) (hb : b.toNat % 4 = 0)
    (hv : wideValue s p.toNat c.toNat b.toNat (bpWord s p c b) = some v) :
    Answers (.wide p c b) s fun t => SlotOnly s t p c b v := by
  refine .of_next (execBp_sound _ h) ?_
  have value : wideValue (marked s p c b) p.toNat c.toNat b.toNat (bpWord s p c b) = some v := hv
  rw [wideEffect, if_pos hb, value]
  exact slotOnly_writeSlot hr (readVal_wideValue hv)

/-- With an uncorrectable member word the leader's slot becomes X in FOURSTATE, and is kept in the other modes (R59). -/
theorem wide_leader_broken (hr : released s p 2 = true) (h : bpSound s p c b 3 = true) (hb : b.toNat % 4 = 0)
    (hv : wideValue s p.toNat c.toNat b.toNat (bpWord s p c b) = none) :
    Answers (.wide p c b) s fun t =>
      t = { s with slots := t.slots, fab := { s.fab with retired := retiredNow s p c b, past := t.fab.past } } ∧
      (fourState s = true → WritesSlot s t p c b vX) ∧ (fourState s = false → t.slots = s.slots) := by
  refine .of_next (execBp_sound _ h) ?_
  have value : wideValue (marked s p c b) p.toNat c.toNat b.toNat (bpWord s p c b) = none := hv
  have mode : fourState (marked s p c b) = fourState s := rfl
  rw [wideEffect, if_pos hb, value]
  dsimp only
  rw [mode]
  cases hf : fourState s with
  | true =>
    obtain ⟨writes, frame⟩ := slotOnly_writeSlot hr (readVal_fourState vX hf)
    exact ⟨frame, fun _ => writes, nofun⟩
  | false => exact ⟨rfl, nofun, fun _ => rfl⟩

end

/-- Settles O2: a member, a leader with a value of its quad, and a leader with an uncorrectable member word. -/
theorem bpWide : Obligations.BpWide := by
  unfold Obligations.BpWide
  intro s p c b hr h
  by_cases hb : b.toNat % 4 = 0
  · cases hv : wideValue s p.toNat c.toNat b.toNat (bpWord s p c b) with
    | some v =>
      obtain ⟨t, ht, writes, frame⟩ := wide_leader hr h hb hv
      exact ⟨t, ht, frame, fun member => absurd hb member, fun _ u hu => Option.some.inj hu ▸ writes,
        fun _ _ => nofun⟩
    | none =>
      obtain ⟨t, ht, frame, -, kept⟩ := wide_leader_broken hr h hb hv
      exact ⟨t, ht, frame, fun member => absurd hb member, fun _ _ => nofun, fun _ two _ => kept two⟩
  · obtain ⟨t, ht, writes, frame⟩ := wide_member hr h hb
    exact ⟨t, ht, frame, fun _ => writes, fun leader => absurd leader hb, fun leader => absurd leader hb⟩

end Sys2Proof.Machine
end

section
/-! PROOFS. One step of the machine (R76): the front of the queue, or a tick. -/

namespace Sys2Proof.Machine

/-- A tick of a package with no port on: the clock's, with everything emitted so far taken up. -/
theorem idle_of_no_port {s : State} (h : (tick s).lnk = []) :
    idle s = { tick s with net := { (tick s).net with sent := (tick s).out.length } } := by
  simp only [idle, List.isEmpty_iff.mpr h, if_true]

/-- Settles O56: both forms of a step, and the tick of a package with no port on. -/
theorem stepRunsFront : Obligations.StepRunsFront := by
  unfold Obligations.StepRunsFront
  have empty : ∀ s : State, s.pending = [] → step s = .next (idle s) := fun s h => by simp only [step, h]
  exact ⟨fun s c rest h => by simp only [step, h],
    fun s h => ⟨empty s h, fun hl => (empty s h).trans (congrArg _ (idle_of_no_port hl))⟩⟩

end Sys2Proof.Machine
end

section
/-! PROOFS. RUN and STEP (R80, R465): a wake from P1 on the way logs and counts, and the start lead follows. -/

namespace Sys2Proof.Machine

theorem logOnly_setDies (code : Nat) (s : State) : LogOnly s (setDies code s) :=
  setDies_induction (P := LogOnly s) code (.refl s) fun _ _ _ hx =>
    hx.trans ((logOnly_setFld _ _ _).trans (logOnly_setFld _ _ _))

theorem setDies_ctrs (code : Nat) (s : State) : (setDies code s).ctrs = s.ctrs :=
  setDies_induction (P := fun x => x.ctrs = s.ctrs) code rfl fun _ _ _ h => h

/-- What logs and counts does so whatever the power state is. -/
theorem LogOnly.with_pwr {s t : State} (h : LogOnly s t) (p : Pwr) : LogOnly { s with pwr := p } { t with pwr := p } := by
  obtain ⟨_, _, _, _, _, _, _, rfl⟩ := h
  exact ⟨_, _, _, _, _, _, _, rfl⟩

/-- What logs and counts does so whatever the controller does. -/
theorem LogOnly.with_cox {s t : State} (h : LogOnly s t) (c : Cox) : LogOnly { s with cox := c } { t with cox := c } := by
  obtain ⟨_, _, _, _, _, _, _, rfl⟩ := h
  exact ⟨_, _, _, _, _, _, _, rfl⟩

theorem logOnly_setPkg (st : PkgState) (src : Nat) (s : State) :
    LogOnly { s with pwr := { s.pwr with st := st } } (setPkg st src s) :=
  (logOnly_setFld _ _ _).trans (logOnly_logEvent _ _ _ _)

theorem ctr_setPkg (st : PkgState) (src : Nat) (s : State) {b : Nat} (h : plainCtr b) : ctr (setPkg st src s) b = ctr s b :=
  ctr_logEvent _ _ _ _ h

theorem wakeP1_of_p1 {s : State} (h : s.pwr.st = .p1) :
    wakeP1 s = setPkg .p0 5 (setFld fPwrSrc 5 (count 0x20080 (setDies 0 s))) := by
  simp [wakeP1, h]

theorem wakeP1_of_not_p1 {s : State} (h : s.pwr.st ≠ .p1) : wakeP1 s = s := by
  simp [wakeP1, h]

theorem reg_wakeP1 (s : State) {a : Nat} (h : a ≠ 0x20) (h0 : a ≠ 0x20000) (h4 : a ≠ 0x20004) :
    reg (wakeP1 s) a = reg s a := by
  by_cases hp : s.pwr.st = .p1
  · rw [wakeP1_of_p1 hp, reg_setPkg _ _ _ h h0, reg_setFld_ne _ _ h0, reg_count _ _ h, reg_setDies _ _ h4]
  · rw [wakeP1_of_not_p1 hp]

theorem logOnly_wakeP1 (s : State) : LogOnly { s with pwr := (wakeP1 s).pwr } (wakeP1 s) := by
  by_cases hp : s.pwr.st = .p1
  · have before := (logOnly_setDies 0 s).trans ((logOnly_count 0x20080 _).trans (logOnly_setFld fPwrSrc 5 _))
    rw [wakeP1_of_p1 hp, setPkg_pwr]
    exact (before.with_pwr _).trans (logOnly_setPkg _ _ _)
  · rw [wakeP1_of_not_p1 hp]
    exact .refl s

theorem ctr_wakeP1 (s : State) {b : Nat} (h : plainCtr b) (hb : b ≠ 0x20080) : ctr (wakeP1 s) b = ctr s b := by
  by_cases hp : s.pwr.st = .p1
  · rw [wakeP1_of_p1 hp, ctr_setPkg _ _ _ h]
    exact (ctr_countN_ne 1 _ h hb).trans (ctr_of_ctrs (setDies_ctrs 0 s) b)
  · rw [wakeP1_of_not_p1 hp]

/-- The requests that units make again are fixed by the package's place, the course and the queues of the units. -/
theorem askAgain_wakeP1 (s : State) : askAgain (wakeP1 s) = askAgain s := by
  have hp : position (wakeP1 s) = position s :=
    fld_of_reg (reg_wakeP1 s (by decide) (by decide) (by decide))
  obtain ⟨_, _, _, _, _, _, _, e⟩ := logOnly_wakeP1 s
  have hg : gOf (wakeP1 s) = gOf s := by rw [e]; rfl
  have hw : wall (wakeP1 s) = wall s := by rw [e]; rfl
  have hf : (wakeP1 s).fab = s.fab := by rw [e]
  have hd : (wakeP1 s).dsp = s.dsp := by rw [e]
  have hc : (wakeP1 s).cox = s.cox := by rw [e]
  simp only [askAgain, hp, hg, hw, hf, hd, hc]

theorem startLead_cox (n : Option Nat) (s : State) :
    (startLead n s).cox = { s.cox with st := .wait, started := true, stepping := n, lead := some 64, raised := askAgain s,
                                       edge := flag s fTclkEdge } := by
  have hc := (wakeP1_spec { s with pwr := { s.pwr with resuming := false } }).1.cox
  have ha := askAgain_wakeP1 { s with pwr := { s.pwr with resuming := false } }
  have he : flag (wakeP1 { s with pwr := { s.pwr with resuming := false } }) fTclkEdge = flag s fTclkEdge := by
    simp only [flag, fld_of_reg (f := fTclkEdge) (reg_wakeP1 { s with pwr := { s.pwr with resuming := false } }
      (a := 0xB0060) (by decide) (by decide) (by decide))]
    rfl
  simp only [startLead, hc, ha, he]
  rfl

theorem startLead_of_p0 (n : Option Nat) {s : State} (h : s.pwr.st = .p0) :
    startLead n s = { s with cox := (startLead n s).cox, pwr := { s.pwr with resuming := false } } := by
  simp only [startLead]
  rw [wakeP1_of_not_p1 (by simp [h])]

theorem startLead_of_p1 (n : Option Nat) {s : State} (h : s.pwr.st = .p1) :
    (startLead n s).pwr = { s.pwr with st := .p0, resuming := false } ∧
      OnlyLogged [0x20080] [0x20000, 0x20004] { s with cox := (startLead n s).cox, pwr := (startLead n s).pwr }
        (startLead n s) := by
  let s' : State := { s with pwr := { s.pwr with resuming := false } }
  refine ⟨?_, onlyLogged_of_logOnly ?_ (fun a h20 ha => ?_) fun a h1 h2 ha => ?_⟩
  · have hp := (wakeP1_spec s').2
    rw [show (startLead n s).pwr = (wakeP1 s').pwr from rfl, hp]
    simp [s', h]
  · exact (logOnly_wakeP1 s').with_cox (startLead n s).cox
  · exact reg_wakeP1 s' h20 (by simp at ha; exact ha.1) (by simp at ha; exact ha.2)
  · exact ctr_wakeP1 s' ⟨h1, h2⟩ (by simpa using ha)

/-- Settles O14: RUN and STEP are the start lead where the controller is startable, and nothing elsewhere. -/
theorem runAndStep : Obligations.RunAndStep := by
  unfold Obligations.RunAndStep
  intro s started
  have lead : ∀ n, started n (startLead n s) := fun n => ⟨startLead_cox n s, startLead_of_p0 n, startLead_of_p1 n⟩
  refine ⟨fun hu hs => .of_next (whenever_true _ _ ?_) (lead none),
    fun hu hs hn => .of_next (whenever_true _ _ ?_) (lead _), fun hs => whenever_false _ _ ?_, fun h => whenever_false _ _ ?_⟩
  · simp [hu, hs]
  · simp [hu, hs, hn]
  · simp [hs]
  · rcases h with hs | hn
    · simp [hs]
    · simp [hn]

end Sys2Proof.Machine
end

section
/-! PROOFS. The cox line (R84, R85, R87): what the STOP that the master issues covers, and what a CLEAR moves. -/

namespace Sys2Proof.Machine

/-- What the STOP gathered so far becomes with one request more (R85). -/
def gathered (a : StopRec) (q : EasyReq) : StopRec :=
  match q.kind with
  | .tick t =>
    { a with cause := if a.cause ≠ 4 ∧ a.tick < t then q.cause else a.cause, tick := max a.tick t,
             linkTick := if q.cause = 2 then max a.linkTick t else a.linkTick,
             dmemTick := if q.cause = 2 then a.dmemTick else max a.dmemTick t }
  | .len n =>
    { a with cause := if q.cause = 4 ∨ (a.tick = 0 ∧ a.cause ≠ 4) then q.cause else a.cause, len := max a.len n,
             linkLen := if q.cause = 4 then a.linkLen else max a.linkLen n,
             thermLen := if q.cause = 4 then max a.thermLen n else a.thermLen }
  | .opn f => { a with cause := if a.cause = 0 then q.cause else a.cause, opn := true,
                       figure := match f, a.figure with
                         | some x, some y => some (max x y)
                         | some x, none => some x
                         | none, y => y }

/-- A STOP of no request. -/
def StopRec.bare (p : Nat) : StopRec :=
  { p := p, cause := 0, tick := 0, len := 0, opn := false, figure := none, linkTick := 0, dmemTick := 0, linkLen := 0,
    thermLen := 0 }

theorem stopOf_eq_gathered (s : State) (p : Nat) :
    stopOf s p = (s.cox.reqs.filter fun q => q.p == p).foldl gathered (.bare p) := rfl

/-- A STOP asks for all that a request asks for. -/
def StopRec.Covers (r : StopRec) (q : EasyReq) : Prop :=
  match q.kind with
  | .tick n => n ≤ r.tick ∧ n ≤ if q.cause = 2 then r.linkTick else r.dmemTick
  | .len n => n ≤ r.len ∧ n ≤ if q.cause = 4 then r.thermLen else r.linkLen
  | .opn _ => r.opn = true

theorem gathered_p (a : StopRec) (q : EasyReq) : (gathered a q).p = a.p := by
  unfold gathered
  split <;> rfl

theorem gathered_covers (a : StopRec) (q : EasyReq) : (gathered a q).Covers q := by
  cases hk : q.kind with
  | tick n =>
    simp only [gathered, StopRec.Covers, hk]
    split <;> simp
  | len n =>
    simp only [gathered, StopRec.Covers, hk]
    split <;> simp
  | opn f => simp only [gathered, StopRec.Covers, hk]

/-- No figure falls as a request is gathered. -/
theorem gathered_grows (a : StopRec) (q : EasyReq) : a.tick ≤ (gathered a q).tick ∧ a.len ≤ (gathered a q).len ∧
    a.linkTick ≤ (gathered a q).linkTick ∧ a.dmemTick ≤ (gathered a q).dmemTick ∧ a.linkLen ≤ (gathered a q).linkLen ∧
    a.thermLen ≤ (gathered a q).thermLen ∧ (a.opn = true → (gathered a q).opn = true) := by
  unfold gathered
  split
  case h_1 => dsimp only; split <;> simp
  case h_2 => dsimp only; split <;> simp
  case h_3 => simp

theorem StopRec.Covers.gathered {a : StopRec} {q : EasyReq} (h : a.Covers q) (x : EasyReq) : (gathered a x).Covers q := by
  obtain ⟨tick, len, link, dmem, stretch, therm, opn⟩ := gathered_grows a x
  unfold StopRec.Covers at h ⊢
  split at h
  case h_1 => exact ⟨h.1.trans tick, h.2.trans (by split <;> assumption)⟩
  case h_2 => exact ⟨h.1.trans len, h.2.trans (by split <;> assumption)⟩
  case h_3 => exact opn h

theorem foldl_gathered_p (l : List EasyReq) (a : StopRec) : (l.foldl gathered a).p = a.p :=
  l.foldlRecOn (motive := fun x => x.p = a.p) gathered rfl fun x hx q _ => (gathered_p x q).trans hx

theorem foldl_gathered_keeps_covers {q : EasyReq} (l : List EasyReq) {a : StopRec} (h : a.Covers q) :
    (l.foldl gathered a).Covers q :=
  l.foldlRecOn (motive := fun x => x.Covers q) gathered h fun _ hx x _ => hx.gathered x

theorem foldl_gathered_covers {q : EasyReq} {l : List EasyReq} (a : StopRec) (h : q ∈ l) : (l.foldl gathered a).Covers q := by
  induction l generalizing a with
  | nil => cases h
  | cons x l ih =>
    rcases List.mem_cons.mp h with rfl | h
    · exact foldl_gathered_keeps_covers l (gathered_covers a q)
    · exact ih _ h

theorem stopOf_p (s : State) (p : Nat) : (stopOf s p).p = p := by
  rw [stopOf_eq_gathered]
  exact foldl_gathered_p _ _

theorem stopOf_covers {s : State} {p : Nat} {q : EasyReq} (h : q ∈ s.cox.reqs) (hp : q.p = p) : (stopOf s p).Covers q :=
  foldl_gathered_covers _ (List.mem_filter.mpr ⟨h, by simpa using hp⟩)

/-! The commands. -/

theorem ask_of_own {s : State} {m : CoxMsg} {q : EasyReq} (hm : m.origin.toNat = position s)
    (hq : s.cox.raised.find? (sameReq (reqOf s m)) = some q) : exec (.ask m) s = .next (if isMaster s
      then { s with cox := { s.cox with raised := s.cox.raised.erase q, reqs := s.cox.reqs ++ [q] } }
      else { s with cox := { s.cox with raised := s.cox.raised.erase q }, out := s.out ++ [.cox 1 m] }) := by
  show execAsk m s = _
  unfold execAsk
  simp only [hq, hm, beq_self_eq_true, if_true]
  split <;> rfl

/-- Another package's request reaches the master, whether one of the master's own would match it or not. -/
theorem ask_of_other {s : State} {m : CoxMsg} (hm : m.origin.toNat ≠ position s) (hs : isMaster s = true)
    (ht : s.cox.mode ≠ .tethered) (hp : gOf s < (reqOf s m).p) :
    exec (.ask m) s = .next { s with cox := { s.cox with reqs := s.cox.reqs ++ [reqOf s m] } } := by
  show execAsk m s = _
  cases hf : s.cox.raised.find? (sameReq (reqOf s m)) with
  | some q => simp [execAsk, hf, hm, hs]
  | none =>
    simp only [execAsk, hf]
    exact whenever_true _ _ (by simp [hm, hs, ht, hp])

theorem stop_arrives {s : State} {x : StopIn} (ht : s.cox.mode ≠ .tethered) (hn : stopAt s (stopPoint s x.msg) = none)
    (hp : gOf s < stopPoint s x.msg ∨ s.cox.st = .wait) (hm : isMaster s = false) :
    exec (.stop x) s = .next { s with cox := { s.cox with stops := s.cox.stops ++
      [{ p := stopPoint s x.msg, cause := x.msg.cause, tick := x.msg.value.toNat, len := x.msg.len.toNat, opn := x.msg.opn,
         figure := none, linkTick := x.link.toNat, dmemTick := x.dmem.toNat, linkLen := x.stretch.toNat,
         thermLen := x.thermal.toNat }] } } := by
  have ahead : ¬ (stopPoint s x.msg ≤ gOf s ∧ s.cox.st ≠ .wait) := by rcases hp with h | h <;> simp [h]
  simp only [exec, execStop]
  rw [if_neg (by simpa [ht, hn] using ahead), hm]
  rfl

theorem stop_issued {s : State} {x : StopIn} (ht : s.cox.mode ≠ .tethered) (hn : stopAt s (stopPoint s x.msg) = none)
    (hp : gOf s < stopPoint s x.msg ∨ s.cox.st = .wait) (hm : isMaster s = true) (he : s.cox.st ≠ .easy)
    (hw : gOf s + 64 = stopPoint s x.msg + fld s fReachUp + s.cox.lead.getD 0)
    (hs : stopNeeded s (stopPoint s x.msg) = true) : Answers (.stop x) s fun t =>
      t = { s with cox := { s.cox with stops := t.cox.stops }, out := t.out } ∧
      ∃ f, t.cox.stops = s.cox.stops ++ [{ stopOf s (stopPoint s x.msg) with figure := f }] := by
  have ahead : ¬ (stopPoint s x.msg ≤ gOf s ∧ s.cox.st ≠ .wait) := by rcases hp with h | h <;> simp [h]
  simp only [Answers, exec, execStop]
  rw [if_neg (by simpa [ht, hn] using ahead), if_pos hm, whenever_true _ _ (by simp [he, hw, hs])]
  refine ⟨_, rfl, ?_⟩
  simp only [iff]
  split <;> split <;> split <;> exact ⟨rfl, _, rfl⟩

theorem clearAtMaster_only (m : CoxMsg) (ago : Nat) (s : State) :
    clearAtMaster m ago s = { s with cox := { s.cox with reqs := (clearAtMaster m ago s).cox.reqs,
                                                         stops := (clearAtMaster m ago s).cox.stops },
                                     out := (clearAtMaster m ago s).out } ∧
    (clearAtMaster m ago s).cox.reqs = clearOne m (stopPoint s m) (clearFigure s (stopPoint s m) ago) s.cox.reqs := by
  unfold clearAtMaster
  dsimp only
  split
  · split
    · simp only [iff]
      split <;> exact ⟨rfl, rfl⟩
    · exact ⟨rfl, rfl⟩
  · exact ⟨rfl, rfl⟩

theorem clear_of_master {s : State} {m : CoxMsg} (hc : hostClearOk s m = true) (hm : isMaster s = true) :
    Answers (.clear m) s fun t =>
      t = { s with cox := { s.cox with reqs := t.cox.reqs, stops := t.cox.stops }, out := t.out } ∧
      t.cox.reqs = clearOne m (stopPoint s m)
        (clearFigure s (stopPoint s m) (if m.origin.toNat = position s then 0 else fld s fReachUp)) s.cox.reqs := by
  refine .of_next (whenever_true _ _ hc) ?_
  rw [if_pos hm]
  exact clearAtMaster_only m _ s

theorem clear_of_follower {s : State} {m : CoxMsg} (hc : hostClearOk s m = true) (hm : isMaster s = false) :
    exec (.clear m) s = .next (if m.origin.toNat = position s then { s with out := s.out ++ [.cox 3 m] } else s) := by
  refine (whenever_true _ _ hc).trans ?_
  simp only [hm, iff, beq_iff_eq, Bool.false_eq_true, if_false]
  rfl

/-- Settles O20: each clause is a lemma above on the command that it names. -/
theorem coxLineStops : Obligations.CoxLineStops := by
  unfold Obligations.CoxLineStops
  refine ⟨fun s m q hm hq => ask_of_own hm hq, fun s m hm hs ht hp => ask_of_other hm hs ht hp,
    fun s x ht hn => fun hp => ⟨stop_arrives ht hn hp, fun hm he hw hs => ?_⟩,
    fun s m hc => ⟨clear_of_follower hc, clear_of_master hc⟩, fun s m hm => whenever_true _ _ (by simp [hm])⟩
  obtain ⟨t, ht, only, f, hf⟩ := stop_issued ht hn hp hm he hw hs
  exact ⟨t, ht, only, _, hf, stopOf_p s _, fun q hq h => stopOf_covers hq h⟩

end Sys2Proof.Machine
end

section
/-! PROOFS. What an operation of the controller keeps of the run in force: the slots, deep memory, the 64-bit registers and the
controller's place in the run. -/

namespace Sys2Proof.Machine

/-- The run stands where it stood: its state, its place, its halts and its data stores, COX.COURSE and COX.WALL among the
64-bit registers; a tether lead may end and none begins. -/
structure KeepsRun (s t : State) : Prop where
  slots : t.slots = s.slots
  deep : t.deep = s.deep
  wide : t.wide = s.wide
  st : t.cox.st = s.cox.st
  length : t.cox.length = s.cox.length
  stroke : t.cox.stroke = s.cox.stroke
  started : t.cox.started = s.cox.started
  stepping : t.cox.stepping = s.cox.stepping
  lead : t.cox.lead = s.cox.lead
  halts : t.cox.halts = s.cox.halts
  tether : s.cox.tether = none → t.cox.tether = none

theorem KeepsRun.refl (s : State) : KeepsRun s s := ⟨rfl, rfl, rfl, rfl, rfl, rfl, rfl, rfl, rfl, rfl, id⟩

theorem KeepsRun.trans {s t u : State} (h : KeepsRun s t) (k : KeepsRun t u) : KeepsRun s u :=
  ⟨k.slots.trans h.slots, k.deep.trans h.deep, k.wide.trans h.wide, k.st.trans h.st, k.length.trans h.length,
    k.stroke.trans h.stroke, k.started.trans h.started, k.stepping.trans h.stepping, k.lead.trans h.lead,
    k.halts.trans h.halts, fun e => k.tether (h.tether e)⟩

theorem KeepsRun.iff {s : State} {f : State → State} (c : Bool) (h : KeepsRun s (f s)) : KeepsRun s (iff c f s) := by
  cases c
  · exact .refl s
  · exact h

theorem KeepsRun.foldl {α : Type} {f : State → α → State} (h : ∀ x a, KeepsRun x (f x a)) (l : List α) (s : State) :
    KeepsRun s (l.foldl f s) :=
  l.foldlRecOn f (.refl s) fun x hx a _ => hx.trans (h x a)

theorem KeepsRun.course {s t : State} (h : KeepsRun s t) : course t = course s := by
  simp only [Machine.course, wideReg, h.wide]

/-- The controller as it was, and the 64-bit registers. -/
theorem KeepsRun.of_design {s t : State} (h : KeepsDesign s t) (hw : t.wide = s.wide) : KeepsRun s t :=
  ⟨h.design.2.2.1, h.design.2.1, hw, by rw [h.cox], by rw [h.cox], by rw [h.cox], by rw [h.cox], by rw [h.cox],
    by rw [h.cox], by rw [h.cox], by rw [h.cox]; exact id⟩

theorem KeepsRun.of_logOnly {s t : State} (h : LogOnly s t) : KeepsRun s t := by
  obtain ⟨hd, hc, -, hw⟩ := h.keeps
  exact ⟨hd.2.2.1, hd.2.1, hw, by rw [hc], by rw [hc], by rw [hc], by rw [hc], by rw [hc], by rw [hc], by rw [hc],
    by rw [hc]; exact id⟩

/-- A change of the fields that the relation does not speak of. -/
theorem keepsRun_outside (s : State) {regs ctrs snaps evlog evTick evIn satDue cfg shadow groups bank winLow fab net lnk hif
    dsp ldr scb trg trc pwr pins jtag hlt fuses out free pending raised reqs stops easyK easyLong mode lockstep fleetPins
    pend startMode lockPre ticks edge lastEdge throttle lastStep strokes board moving carried formedOnce} :
    KeepsRun s { s with
      regs := regs, ctrs := ctrs, snaps := snaps, evlog := evlog, evTick := evTick, evIn := evIn, satDue := satDue,
      cfg := cfg, shadow := shadow, groups := groups, bank := bank, winLow := winLow, fab := fab, net := net, lnk := lnk,
      hif := hif, dsp := dsp, ldr := ldr, scb := scb, trg := trg, trc := trc, pwr := pwr, pins := pins, jtag := jtag,
      hlt := hlt, fuses := fuses, out := out, free := free, pending := pending,
      cox := { s.cox with
        raised := raised, reqs := reqs, stops := stops, easyK := easyK, easyLong := easyLong, mode := mode,
        lockstep := lockstep, fleetPins := fleetPins, pend := pend, startMode := startMode, lockPre := lockPre,
        ticks := ticks, edge := edge, lastEdge := lastEdge, throttle := throttle, lastStep := lastStep,
        strokes := strokes, board := board, moving := moving, carried := carried, formedOnce := formedOnce } } :=
  ⟨rfl, rfl, rfl, rfl, rfl, rfl, rfl, rfl, rfl, rfl, id⟩

theorem keepsRun_setFld (f : Fld) (v : Nat) (s : State) : KeepsRun s (setFld f v s) := .of_logOnly (logOnly_setFld f v s)

theorem keepsRun_setFlag (f : Fld) (b : Bool) (s : State) : KeepsRun s (setFlag f b s) := .of_logOnly (logOnly_setFld f _ s)

theorem keepsRun_setReg (a : Nat) (v : Word) (s : State) : KeepsRun s (setReg a v s) := .of_logOnly (logOnly_setReg a v s)

theorem keepsRun_logEvent (c l d : Nat) (s : State) : KeepsRun s (logEvent c l d s) := .of_logOnly (logOnly_logEvent c l d s)

theorem keepsRun_count (a : Nat) (s : State) : KeepsRun s (count a s) := .of_logOnly (logOnly_count a s)

/-! The 64-bit registers stand while the data plane ends its operations and capture stops. -/

theorem foldl_wide {α : Type} {f : State → α → State} (h : ∀ x a, (f x a).wide = x.wide) (l : List α) (s : State) :
    (l.foldl f s).wide = s.wide :=
  l.foldlRecOn (motive := fun x => x.wide = s.wide) f rfl fun x hx a _ => (h x a).trans hx

theorem iff_wide {f : State → State} {s : State} (c : Bool) (h : (f s).wide = s.wide) : (iff c f s).wide = s.wide := by
  cases c
  · rfl
  · exact h

theorem tooLate_wide (c : Nat) (tag : BitVec 16) (s : State) : (tooLate c tag s).wide = s.wide := complete_wide _ _ s

theorem endMsg_wide (m : Msg) (status detail crs dev : Nat) (s : State) : (endMsg m status detail crs dev s).wide = s.wide := by
  unfold endMsg
  dsimp only
  split
  · rfl
  · rw [foldl_wide fun x _ => tooLate_wide _ _ x, complete_wide]
    rfl

theorem returnCredit_wide (m : Msg) (s : State) : (returnCredit m s).wide = s.wide :=
  (iff_wide _ (setCredits_wide _ _ _)).trans (iff_wide _ (setUnclaimed_wide _ _ s))

theorem cancelMsg_wide (status detail : Nat) (s : State) (m : Msg) : (cancelMsg status detail s m).wide = s.wide :=
  (endMsg_wide _ _ _ _ _ _).trans (returnCredit_wide m s)

theorem endHeld_wide (w : HeldWrite) (status detail dev : Nat) (s : State) : (endHeld w status detail dev s).wide = s.wide :=
  complete_wide _ _ _

theorem stopDataPlane_wide (s : State) : (stopDataPlane s).wide = s.wide :=
  (foldl_wide (fun x w => endHeld_wide w _ _ _ x) _ _).trans (foldl_wide (fun x m => cancelMsg_wide _ _ x m) _ s)

theorem densWrite_wide (p inst : Nat) (cut : Bool) (s : State) : (densWrite p inst cut s).wide = s.wide := by
  unfold densWrite
  dsimp only
  split
  · rfl
  · split
    · exact (iff_wide _ (logEvent_wide _ _ _ _)).trans (count_wide _ s)
    · rfl

theorem densEnd_wide (cut : Bool) (s : State) : (densEnd cut s).wide = s.wide := by
  unfold densEnd
  dsimp only
  split
  · exact foldl_wide (fun x p => foldl_wide (fun y i => densWrite_wide p i cut y) _ x) _ s
  · rfl

theorem keepsRun_densEnd (cut : Bool) (s : State) : KeepsRun s (densEnd cut s) :=
  .of_design (quiet_densEnd cut s).toKeepsDesign (densEnd_wide cut s)

theorem keepsRun_triggerStop (s : State) : KeepsRun s (triggerStop s) :=
  .of_design (quiet_triggerStop s).toKeepsDesign (densEnd_wide true s)

theorem keepsRun_stopDataPlane (s : State) : KeepsRun s (stopDataPlane s) :=
  .of_design (quiet_stopDataPlane s).toKeepsDesign (stopDataPlane_wide s)

/-! A mode change takes effect (R207). -/

theorem keepsRun_pullsOn (s : State) : KeepsRun s (pullsOn s) := keepsRun_outside s

theorem keepsRun_releasePins (s : State) : KeepsRun s (releasePins s) := keepsRun_outside s

theorem keepsRun_serviceEffects (s : State) : KeepsRun s (serviceEffects s) :=
  (keepsRun_outside s : KeepsRun s (pinsOff s)).trans ((keepsRun_triggerStop _).trans (keepsRun_stopDataPlane _))

theorem keepsRun_logMode (old new : Mode) (s : State) : KeepsRun s (logMode old new s) :=
  (keepsRun_setFld _ _ s).trans (keepsRun_logEvent _ _ _ _)

/-- The mode's own fields of the controller; a tether lead ends with the mode. -/
theorem keepsRun_modeSet (m : ModeSet) (s : State) : KeepsRun s { s with cox := { s.cox with
    mode := m.mode, lockstep := m.lockstep, fleetPins := m.fleetPins, pend := none, lockPre := false, tether := none } } :=
  ⟨rfl, rfl, rfl, rfl, rfl, rfl, rfl, rfl, rfl, rfl, fun _ => rfl⟩

theorem keepsRun_applyMode (m : ModeSet) (s : State) : KeepsRun s (applyMode m s) := by
  have tethered : ∀ x : State, KeepsRun x (setFlag fThrPending false (setFlag fTclkSeen false
      { x with cox := { x.cox with throttle := none, reqs := [], raised := [], stops := [] } })) := fun x =>
    (keepsRun_outside x).trans ((keepsRun_setFlag _ _ _).trans (keepsRun_setFlag _ _ _))
  unfold applyMode
  dsimp only
  refine KeepsRun.trans ?_ (.iff _ (keepsRun_logMode _ _ _))
  refine KeepsRun.trans ?_ (.iff _ (keepsRun_releasePins _))
  refine KeepsRun.trans ?_ (.iff _ (keepsRun_pullsOn _))
  refine KeepsRun.trans ?_ (.iff _ (keepsRun_serviceEffects _))
  refine KeepsRun.trans ?_ (.iff _ (tethered _))
  refine KeepsRun.trans ?_ (.iff _ (keepsRun_setFld _ _ _))
  exact (KeepsRun.iff _ (keepsRun_densEnd true s)).trans (keepsRun_modeSet m _)

/-! Release stages (R378, R379) and the start of a course. -/

theorem keepsRun_liven (s : State) (p : Nat) : KeepsRun s (liven s p) := by
  unfold liven
  split
  · exact keepsRun_outside s
  · exact .iff _ (keepsRun_outside s)
  · exact .refl s

theorem keepsRun_turnBank (p b st : Nat) (s : State) : KeepsRun s (turnBank p b st s) :=
  (KeepsRun.iff _ (keepsRun_outside s : KeepsRun s (emptyBank p b s))).trans (keepsRun_setFld _ _ _)

theorem keepsRun_applyBankMap (s : State) (p : Nat) : KeepsRun s (applyBankMap s p) :=
  .foldl (fun x b => keepsRun_turnBank p b _ x) _ s

theorem keepsRun_headerPolicies (s : State) : KeepsRun s (headerPolicies s) := by
  unfold headerPolicies
  split
  · exact (keepsRun_setFlag _ _ s).trans ((keepsRun_setFlag _ _ _).trans ((keepsRun_setFlag _ _ _).trans
      (keepsRun_setFlag _ _ _)))
  · exact .refl s

/-- Stage 1 of a base image brings its mode, in place of one that a SET_MODE left for it (R205). -/
theorem keepsRun_releasedMode (m : ModeSet) (s : State) :
    KeepsRun s (pullsOn (applyMode m { s with cox := { s.cox with startMode := none } })) :=
  ((keepsRun_outside s).trans (keepsRun_applyMode _ _)).trans (keepsRun_pullsOn _)

theorem keepsRun_baseStage (s : State) : KeepsRun s (baseStage s) := by
  unfold baseStage
  dsimp only
  split
  · refine (keepsRun_outside s : KeepsRun s { s with ldr := { s.ldr with stage := s.ldr.stage + 1 } }).trans ?_
    split
    · exact ((KeepsRun.foldl keepsRun_liven _ _).trans (keepsRun_headerPolicies _)).trans (keepsRun_releasedMode _ _)
    · exact .foldl keepsRun_applyBankMap _ _
    · exact .refl _
  · exact .refl s

theorem keepsRun_regionStage (s : State) (e : Nat × Region) : KeepsRun s (regionStage s e) := by
  unfold regionStage
  dsimp only
  split
  · refine (keepsRun_outside s : KeepsRun s { s with ldr := { s.ldr with
      regions := (ins s.ldr.regions e.1 ({ e.2 with stage := e.2.stage + 1 } : Region)) } }).trans ?_
    split
    · exact (KeepsRun.foldl keepsRun_liven _ _).trans ((keepsRun_outside _).trans (.iff _ (keepsRun_pullsOn _)))
    · exact .foldl keepsRun_applyBankMap _ _
    · exact .refl _
  · exact .refl s

theorem keepsRun_releaseStages (s : State) : KeepsRun s (releaseStages s) :=
  (keepsRun_baseStage s).trans (.foldl keepsRun_regionStage _ _)

theorem keepsRun_armTakesEffect (s : State) : KeepsRun s (armTakesEffect s) := by
  unfold armTakesEffect
  split
  · exact .refl s
  · split
    · exact .refl s
    · exact ((keepsRun_setFld _ _ s).trans (keepsRun_setReg _ _ _)).trans (keepsRun_outside _)

theorem keepsRun_applyPins (g : Nat) (s : State) : KeepsRun s (applyPins g s) := by
  have one : ∀ (x : State) (d : PinDue), KeepsRun x (applyPin x d) := fun x d => by
    unfold applyPin
    dsimp only
    split
    · exact .refl x
    · split <;> exact keepsRun_outside x
  exact (KeepsRun.foldl one _ s).trans (keepsRun_outside _)

theorem keepsRun_startStroke (s : State) : KeepsRun s (startStroke s) :=
  (keepsRun_applyPins _ s).trans (keepsRun_outside _)

theorem keepsRun_dropStops (s : State) : KeepsRun s (dropStops s) := keepsRun_outside s

theorem keepsRun_enterCourse (s : State) : KeepsRun s (enterCourse s) := by
  unfold enterCourse
  exact (((keepsRun_releaseStages s).trans (keepsRun_armTakesEffect _)).trans (.iff _ (keepsRun_outside _))).trans
    ((keepsRun_dropStops _).trans (keepsRun_startStroke _))

theorem keepsRun_throttleStep (up : Bool) (s : State) : KeepsRun s (throttleStep up s) :=
  (keepsRun_outside s).trans ((keepsRun_setFld _ _ _).trans ((keepsRun_setFlag _ _ _).trans (keepsRun_logEvent _ _ _ _)))

theorem keepsRun_throttleNow (s : State) : KeepsRun s (throttleNow s) := by
  unfold throttleNow
  split
  · exact keepsRun_throttleStep _ s
  · exact .refl s

theorem stopAt_of_easyAt {s : State} {p w : Nat} (h : easyAt s p w = true) : ∃ r, stopAt s p = some r := by
  cases hr : stopAt s p with
  | some r => exact ⟨r, rfl⟩
  | none => simp [easyAt, hr] at h

/-- What keeps the run does so as the controller goes to Easy. -/
theorem KeepsRun.in_easy {s t : State} (k : KeepsRun s t) : KeepsRun { s with cox := { s.cox with st := .easy } }
    { t with cox := { t.cox with st := .easy, easyK := 1, easyLong := false } } :=
  ⟨k.slots, k.deep, k.wide, rfl, k.length, k.stroke, k.started, k.stepping, k.lead, k.halts, k.tether⟩

/-- Easy begins at the stop point where the controller stands (R85). -/
theorem keepsRun_enterEasy {s : State} (h : easyAt s (gOf s) (wall s) = true) :
    KeepsRun { s with cox := { s.cox with st := .easy } } (enterEasy s) := by
  obtain ⟨r, hr⟩ := stopAt_of_easyAt h
  have shown : ∀ v w, KeepsRun s (setReg 0xB005C v (setReg 0xB0058 w (count 0xB0040 s))) := fun v w =>
    (keepsRun_count 0xB0040 s).trans ((keepsRun_setReg _ _ _).trans (keepsRun_setReg _ _ _))
  unfold enterEasy
  rw [hr]
  dsimp only
  split
  · split
    · exact (shown _ _).in_easy.trans (keepsRun_throttleStep _ _)
    · exact (shown _ _).in_easy
  · exact (shown _ _).in_easy

/-- The course starts where the controller stands, with Easy at stroke 0 where one is due (R79, R85). -/
theorem keepsRun_goCourse (s : State) :
    KeepsRun { s with cox := { s.cox with st := startState s, lead := none, tether := none } } (goCourse s) := by
  let s1 : State := { s with cox := { s.cox with st := .run, lead := none, tether := none } }
  have due : easyAt s1 (gOf s1) (wall s1) = easyAt s (gOf s) (wall s) := rfl
  have go : goCourse s = if easyAt s1 (gOf s1) (wall s1) then enterEasy s1 else enterCourse s1 := rfl
  cases h : easyAt s (gOf s) (wall s) with
  | true =>
    rw [go, due, h, startState, h]
    exact keepsRun_enterEasy (s := s1) (due.trans h)
  | false =>
    rw [go, due, h, startState, h]
    exact keepsRun_enterCourse s1

/-- In WAIT with every lead ended and the wait condition met, the course starts. -/
theorem retryStart_of_clear {s : State} (hw : waitsHere s = true) (hc : clearToStart s = true)
    (hp : (paceMode s).mode ≠ .tethered) : retryStart s = goCourse s := by
  simp only [waitsHere, Bool.and_eq_true] at hw
  simp [retryStart, hw, hc, hp]

end Sys2Proof.Machine
end

section
/-! PROOFS. The controller halts (R79, R81, R90, R216): what it clears, what it keeps, and the cause that it records. -/

namespace Sys2Proof.Machine

theorem keepsRun_toLoader (st : LdState) (s : State) : KeepsRun s (toLoader st s) :=
  .of_design (quiet_toLoader st s).toKeepsDesign (by unfold toLoader showStep; dsimp only; split <;> simp)

theorem keepsRun_recoverStart (s : State) : KeepsRun s (recoverStart s) :=
  (keepsRun_outside s).trans (keepsRun_setFlag _ _ _)

/-- The pins that a halt in TETHERED releases, or holds with the changes not yet due dropped (R216). -/
theorem keepsRun_haltPins (s : State) : KeepsRun s
    ((if flag s fHaltPins then releasePins else fun x => { x with pins := { x.pins with due := [] } }) s) := by
  split
  · exact keepsRun_releasePins s
  · exact keepsRun_outside s

/-- The run that a halt has ended. -/
def Cox.halted (c : Cox) : Cox :=
  { c with st := .halted, started := false, stepping := none, lead := none, tether := none, halts := [] }

/-- In HALTED with no run, no lead and no halt pending: what a halt makes of the controller's place in the run. -/
theorem keepsRun_enterHalted (cause : Nat) (teth : Bool) (s : State) :
    KeepsRun { s with cox := s.cox.halted } (enterHalted cause teth s) := by
  unfold enterHalted
  dsimp only
  refine KeepsRun.trans ?_ (keepsRun_throttleNow _)
  refine KeepsRun.trans ?_ (.iff _ (keepsRun_toLoader _ _))
  refine KeepsRun.trans ?_ (.iff _ (keepsRun_recoverStart _))
  refine KeepsRun.trans ?_ (.iff _ (keepsRun_haltPins _))
  exact ⟨rfl, rfl, rfl, rfl, rfl, rfl, rfl, rfl, rfl, rfl, fun _ => rfl⟩

theorem enterHalted_stopped (cause : Nat) (teth : Bool) (s : State) : Stopped (enterHalted cause teth s) := by
  have k := keepsRun_enterHalted cause teth s
  exact ⟨k.st, k.started, k.halts, k.lead, k.stepping⟩

theorem reg_throttleNow (s : State) {a : Nat} (h : a ≠ 0x20) (h' : a ≠ 0xB0054) : reg (throttleNow s) a = reg s a := by
  unfold throttleNow throttleStep
  split
  · rw [reg_logEvent _ _ _ _ h]
    exact (reg_setFld_ne _ _ h').trans ((reg_setFld_ne _ _ h').trans rfl)
  · rfl

theorem reg_toLoader (st : LdState) (s : State) {a : Nat} (h : a ≠ 0x10008) : reg (toLoader st s) a = reg s a := by
  unfold toLoader showStep
  dsimp only
  split
  · rw [reg_setFld_ne _ _ h, reg_setFld_ne _ _ h]
    rfl
  · rw [reg_of_regs (commit_regs _ _ _ _ _), reg_setFld_ne _ _ h, reg_setFld_ne _ _ h]
    rfl

theorem reg_recoverStart (s : State) {a : Nat} (h : a ≠ 0x60050) : reg (recoverStart s) a = reg s a := reg_setFlag_ne _ _ h

/-- COX.STATUS shows the cause of the halt (R81). -/
theorem fld_enterHalted (cause : Nat) (teth : Bool) (s : State) : fld (enterHalted cause teth s) fHaltCause = cause % 16 := by
  have shown : fld (setFld fHaltCause cause s) fHaltCause = cause % 16 := fld_setFld _ _ _ (by decide)
  refine Eq.trans (fld_of_reg ?_) shown
  unfold enterHalted
  dsimp only
  rw [reg_throttleNow _ (by decide) (by decide), iff_proj (reg · fHaltCause.a)]
  rw [reg_toLoader _ _ (by decide), ite_self, iff_proj (reg · fHaltCause.a), reg_recoverStart _ (by decide), ite_self,
    iff_proj (reg · fHaltCause.a)]
  split <;> [split; skip] <;> rfl

theorem causeOfHalts_one (h : HaltReq) : causeOfHalts [h] = h.cause.toNat := by
  simp [causeOfHalts]

/-- The mode change that waits for a boundary is applied where the controller halts at once (R217). -/
theorem keepsRun_haltHere (cause : Nat) (s : State) : KeepsRun { s with cox := s.cox.halted } (haltHere cause s) := by
  unfold haltHere
  dsimp only
  split
  · rename_i m _
    have k := keepsRun_applyMode m s
    refine KeepsRun.trans ?_ (keepsRun_enterHalted _ _ _)
    exact ⟨k.slots, k.deep, k.wide, rfl, k.length, k.stroke, rfl, rfl, rfl, rfl, fun _ => rfl⟩
  · exact keepsRun_enterHalted _ _ s

theorem haltHere_stopped (cause : Nat) (s : State) : Stopped (haltHere cause s) := enterHalted_stopped _ _ _

theorem fld_haltHere {cause : Nat} {s : State} (hc : cause < 16) (h : s.cox.halts = []) :
    fld (haltHere cause s) fHaltCause = cause := by
  unfold haltHere
  dsimp only
  rw [fld_enterHalted, h, List.nil_append, causeOfHalts_one]
  simp only [BitVec.toNat_ofNat]
  omega

/-- Here and on the board, the controller halts where it waits. -/
theorem haltHereAll_halts {cause : Nat} (s : State) (hc : cause < 16) : Stopped (haltHereAll cause s) ∧
    SameStores s (haltHereAll cause s) ∧ course (haltHereAll cause s) = course s ∧
    (s.cox.halts = [] → fld (haltHereAll cause s) fHaltCause = cause) := by
  have said : ∀ o : Out, KeepsRun s (iff (onBoard s) (emit o) s) ∧ KeepsPower s (iff (onBoard s) (emit o) s) := fun o =>
    ⟨.iff _ (keepsRun_outside s), .iff _ (quiet_emit o s).toKeepsPower⟩
  unfold haltHereAll
  dsimp only
  obtain ⟨k, p⟩ := said (.cox 5 { coxMsg s with cause := BitVec.ofNat 4 cause, course := BitVec.ofNat 64 (course s) })
  exact ⟨haltHere_stopped _ _, (p.trans (keepsPower_haltHere _ _)).stores,
    (keepsRun_haltHere _ _).course.trans k.course, fun h => fld_haltHere hc (k.halts.trans h)⟩

end Sys2Proof.Machine
end

section
/-! PROOFS. A board that forms again (R229, R239, R240): the ports' markers, and the controller's state with them. -/

namespace Sys2Proof.Machine

/-- Ports and registers at most have changed. -/
def PortsShown (s t : State) : Prop := ∃ lnk regs, t = { s with lnk := lnk, regs := regs }

theorem PortsShown.foldl {α : Type} {f : State → α → State} (h : ∀ x a, PortsShown x (f x a)) (l : List α) (s : State) :
    PortsShown s (l.foldl f s) :=
  l.foldlRecOn (motive := PortsShown s) f ⟨_, _, rfl⟩ fun x hx a _ => by
    obtain ⟨_, _, rfl⟩ := hx
    obtain ⟨lnk, regs, e⟩ := h _ a
    exact ⟨lnk, regs, e⟩

/-- Each expected port has its markers to send, and shows its far end (R229, R230, R247). -/
theorem toMeasuring_only (s : State) : PortsShown { s with cox := { s.cox with board := .measuring } } (toMeasuring s) :=
  .foldl (fun x n => by unfold iff; split <;> exact ⟨_, _, rfl⟩) _ _

/-- A formed board that forms again measures at once where no port of this package is missing. -/
theorem toForming_of_formed {s : State} (h : s.cox.board = .formed) :
    (missingPorts s = 0 → PortsShown { s with cox := { s.cox with board := .measuring } } (toForming s)) ∧
    (missingPorts s ≠ 0 → toForming s = { s with cox := { s.cox with board := .forming } }) := by
  have again : toForming s = tryMeasure { s with cox := { s.cox with board := .forming } } := by simp [toForming, h]
  have same : missingPorts { s with cox := { s.cox with board := .forming } } = missingPorts s := rfl
  rw [again]
  unfold tryMeasure
  refine ⟨fun hm => ?_, fun hm => if_neg (by simpa [same] using hm)⟩
  rw [if_pos (by simp [same, hm])]
  exact toMeasuring_only _

/-- Of the controller, the board's state alone. -/
theorem toForming_only (s : State) : ∃ b, PortsShown { s with cox := { s.cox with board := b } } (toForming s) := by
  unfold toForming
  split
  · unfold tryMeasure
    split
    · exact ⟨_, toMeasuring_only _⟩
    · exact ⟨.forming, _, _, rfl⟩
  · exact ⟨s.cox.board, _, _, rfl⟩

end Sys2Proof.Machine
end

section
/-! PROOFS. HALT and HALT_MESSAGE (R79, R81, R84, R229, R239). -/

namespace Sys2Proof.Machine

section
variable {s : State}

theorem halt_in_course (hu : hostUp s = true) (hi : flag s fIsolated = false) (h : inCourse s = true) :
    Answers .halt s fun t => haltRaised s t 1 ∧ t = { s with cox := { s.cox with halts := t.cox.halts }, out := t.out } := by
  have raises : exec .halt s = .next (raiseHalt hcCommand s) := by
    refine (whenever_true _ _ (by simp [hu, hi])).trans ?_
    rcases Bool.or_eq_true _ _ ▸ h with h | h <;> rw [beq_iff_eq.mp h]
  refine .of_next raises ⟨haltRaised_of_mem (by decide) (haltNow_mem_raiseHalt _ (by simp [h])), ?_⟩
  obtain ⟨halts, out, e⟩ := raiseHalt_only hcCommand s
  rw [e]

theorem halt_in_wait (hu : hostUp s = true) (hi : flag s fIsolated = false) (h : s.cox.st = .wait) :
    Answers .halt s fun t => Stopped t ∧ t.bank = s.bank ∧ t.deep = s.deep ∧ t.slots = s.slots ∧ course t = course s ∧
      (s.cox.halts = [] → fld t fHaltCause = 1) := by
  have halts : exec .halt s = .next (haltHereAll hcCommand s) :=
    (whenever_true _ _ (by simp [hu, hi])).trans (by rw [h])
  obtain ⟨stopped, ⟨bank, deep, slots, -⟩, hc, cause⟩ := haltHereAll_halts (cause := hcCommand) s (by decide)
  exact .of_next halts ⟨stopped, bank, deep, slots, hc, cause⟩

theorem halt_elsewhere (hi : inCourse s = false) (hw : s.cox.st ≠ .wait) : exec .halt s = .next s := by
  simp only [inCourse, Bool.or_eq_false_iff, beq_eq_false_iff_ne] at hi
  obtain ⟨hr, he⟩ := hi
  show execHalt s = _
  unfold execHalt whenever
  split
  · split <;> simp_all
  · rfl

/-! A HALT that arrives. -/

/-- The halt that a HALT message names. -/
def haltNamed (s : State) (m : CoxMsg) : HaltReq := { cause := m.cause, before := m.course.toNat, raised := raisedAt s m }

theorem mem_addHalt (h : HaltReq) (s : State) : h ∈ (addHalt h s).cox.halts := by
  unfold addHalt
  split
  · rename_i there
    exact List.contains_iff_mem.mp there
  · exact List.mem_append_right _ (List.mem_singleton_self h)

theorem addHalt_only (h : HaltReq) (s : State) : ∃ halts, addHalt h s = { s with cox := { s.cox with halts := halts } } := by
  unfold addHalt
  split
  · exact ⟨_, rfl⟩
  · exact ⟨_, rfl⟩

theorem exec_haltMessage {m : CoxMsg} (hm : m.origin.toNat ≠ position s) (hb : onBoard s = true) :
    exec (.haltMessage m) s = .next (iff (m.cause.toNat == hcLinkLost) toForming
      (iff (isMaster s) (emit (.cox 5 m)) (haltArrives m s))) :=
  whenever_true _ _ (by simp [hm, hb])

theorem haltArrives_in_course (m : CoxMsg) (h : inCourse s = true) : haltArrives m s = addHalt (haltNamed s m) s := by
  have hw : (s.cox.st == .wait) = false := by
    simp only [inCourse, Bool.or_eq_true, beq_iff_eq] at h
    rcases h with h | h <;> simp [h]
  simp [haltArrives, hw, h, haltNamed, iff]

theorem haltArrives_in_wait {m : CoxMsg} (h : s.cox.st = .wait) (hc : m.course.toNat ≤ course s) :
    haltArrives m s = haltHere m.cause.toNat s := by
  simp [haltArrives, h, hc]

/-- The board forms again with the halt pending and passed on (R239). -/
theorem haltMessage_in_course {m : CoxMsg} (hm : m.origin.toNat ≠ position s) (hb : onBoard s = true)
    (h : inCourse s = true) : Answers (.haltMessage m) s fun t =>
      (t.cox.halts.any fun h => h.cause == m.cause && h.before == m.course.toNat && h.raised == raisedAt s m) = true ∧
      t.out = (if isMaster s then s.out ++ [.cox 5 m] else s.out) ∧
      t.cox.board = (if m.cause.toNat = 6 then if missingPorts s = 0 then .measuring else .forming else .formed) ∧
      t = { s with cox := { s.cox with halts := t.cox.halts, board := t.cox.board }, out := t.out, lnk := t.lnk,
                   regs := t.regs } ∧
      (t.cox.board ≠ .measuring → t.lnk = s.lnk ∧ t.regs = s.regs) := by
  have formed : s.cox.board = .formed := beq_iff_eq.mp hb
  obtain ⟨halts, added⟩ := addHalt_only (haltNamed s m) s
  have pending : (halts.any fun h => h.cause == m.cause && h.before == m.course.toNat && h.raised == raisedAt s m) = true := by
    have mem := mem_addHalt (haltNamed s m) s
    rw [added] at mem
    exact List.any_eq_true.mpr ⟨_, mem, by simp [haltNamed]⟩
  obtain ⟨out, passed, ho⟩ : ∃ out, iff (isMaster s) (emit (.cox 5 m)) (addHalt (haltNamed s m) s) =
      { s with cox := { s.cox with halts := halts }, out := out } ∧
      out = (if isMaster s then s.out ++ [.cox 5 m] else s.out) := by
    rw [added]
    cases isMaster s
    · exact ⟨s.out, rfl, rfl⟩
    · exact ⟨_, rfl, rfl⟩
  refine .of_next (exec_haltMessage hm hb) ?_
  rw [haltArrives_in_course m h, passed, ← ho]
  by_cases lost : m.cause.toNat = 6
  · rw [show (m.cause.toNat == hcLinkLost) = true by simp [lost, hcLinkLost], iff_yes, if_pos lost]
    obtain ⟨measures, forms⟩ := toForming_of_formed (s := { s with cox := { s.cox with halts := halts }, out := out }) formed
    by_cases missing : missingPorts s = 0
    · obtain ⟨lnk, regs, e⟩ := measures missing
      rw [e, if_pos missing]
      exact ⟨pending, rfl, rfl, rfl, fun hn => absurd rfl hn⟩
    · rw [forms missing, if_neg missing]
      exact ⟨pending, rfl, rfl, rfl, fun _ => ⟨rfl, rfl⟩⟩
  · rw [show (m.cause.toNat == hcLinkLost) = false by simpa [hcLinkLost] using lost, iff_no, if_neg lost]
    exact ⟨pending, rfl, formed, rfl, fun _ => ⟨rfl, rfl⟩⟩

/-- In WAIT, a halt for the course that waits is in force at once (R84). -/
theorem haltMessage_in_wait {m : CoxMsg} (hm : m.origin.toNat ≠ position s) (hb : onBoard s = true)
    (h : s.cox.st = .wait) (hc : m.course.toNat ≤ course s) :
    Answers (.haltMessage m) s fun t => Stopped t ∧ t.slots = s.slots ∧ t.deep = s.deep := by
  have again : ∀ x, Stopped x → Stopped (toForming x) := fun x hx => by
    obtain ⟨b, lnk, regs, e⟩ := toForming_only x
    rw [e]
    exact hx
  have stopped : ∀ c, Stopped (iff c toForming (iff (isMaster s) (emit (.cox 5 m)) (haltHere m.cause.toNat s))) :=
    fun c => by
      have hx : Stopped (iff (isMaster s) (emit (.cox 5 m)) (haltHere m.cause.toNat s)) := by
        cases isMaster s <;> exact haltHere_stopped _ s
      cases c
      · exact hx
      · exact again _ hx
  have kept := ((keepsPower_haltHere m.cause.toNat s).trans (.iff (isMaster s) (quiet_emit (.cox 5 m) _).toKeepsPower)).trans
    (.iff (m.cause.toNat == hcLinkLost) (keepsPower_toForming _))
  refine .of_next (exec_haltMessage hm hb) ?_
  rw [haltArrives_in_wait h hc]
  obtain ⟨-, deep, slots, -⟩ := kept.stores
  exact ⟨stopped _, slots, deep⟩

end

/-- Settles O15: HALT by the controller's state, and HALT_MESSAGE in a course and in WAIT. -/
theorem halts : Obligations.Halts := by
  unfold Obligations.Halts
  exact ⟨fun s hu hi => ⟨halt_in_course hu hi, halt_in_wait hu hi, halt_elsewhere⟩,
    fun s m hm hb => ⟨haltMessage_in_course hm hb, haltMessage_in_wait hm hb⟩⟩

end Sys2Proof.Machine
end

section
/-! PROOFS. What a lost port leaves of a course that runs (R239, R240). -/

namespace Sys2Proof.Machine

/-- The controller's state and its tether lead stand. -/
def SameCourse (s t : State) : Prop := t.cox.st = s.cox.st ∧ t.cox.tether = s.cox.tether

theorem SameCourse.refl (s : State) : SameCourse s s := ⟨rfl, rfl⟩

theorem SameCourse.trans {s t u : State} (h : SameCourse s t) (k : SameCourse t u) : SameCourse s u :=
  ⟨k.1.trans h.1, k.2.trans h.2⟩

theorem SameCourse.iff {s : State} {f : State → State} (c : Bool) (h : SameCourse s (f s)) : SameCourse s (iff c f s) := by
  cases c
  · exact .refl s
  · exact h

theorem SameCourse.of_cox {s t : State} (h : t.cox = s.cox) : SameCourse s t := ⟨by rw [h], by rw [h]⟩

theorem sameCourse_addHalt (h : HaltReq) (s : State) : SameCourse s (addHalt h s) := by
  obtain ⟨halts, e⟩ := addHalt_only h s
  rw [e]
  exact .refl s

theorem sameCourse_raiseHalt (cause : Nat) (s : State) : SameCourse s (raiseHalt cause s) := by
  obtain ⟨halts, out, e⟩ := raiseHalt_only cause s
  rw [e]
  exact .refl s

theorem sameCourse_toForming (s : State) : SameCourse s (toForming s) := by
  obtain ⟨b, lnk, regs, e⟩ := toForming_only s
  rw [e]
  exact .refl s

/-- A package that isolates itself halts at once only where it waits. -/
theorem sameCourse_isolate {s : State} (h : s.cox.st ≠ .wait) : SameCourse s (isolate s) := by
  have said : ∀ m, SameCourse s (emit (.cox 5 m) (setFlag fIsolated true (logEvent evCoxIsolated locNone 0 s))) := fun m =>
    .of_cox (by simp)
  unfold isolate
  dsimp only
  split
  · rw [if_neg (by simpa using h)]
    exact (said _).trans (.iff _ (sameCourse_addHalt _ _))
  · exact .refl s

theorem sameCourse_boardLoses (n : Nat) (st : LnkState) {s : State} (h : s.cox.st ≠ .wait) :
    SameCourse s (boardLoses n st s) := by
  have isolated : ∀ x, SameCourse s x → SameCourse s (isolate x) := fun x hx =>
    hx.trans (sameCourse_isolate (hx.1 ▸ h))
  unfold boardLoses
  dsimp only
  split
  · exact .refl s
  · refine isolated _ ?_
    split
    · exact ((SameCourse.of_cox (by simp [setPortActive])).trans (.iff _ (sameCourse_raiseHalt _ _))).trans
        (sameCourse_toForming _)
    · exact (SameCourse.of_cox rfl).trans (sameCourse_toForming _)

theorem sameCourse_leavePort (n : Nat) (st : LnkState) (cause : Nat) {s : State} (h : s.cox.st ≠ .wait) :
    SameCourse s (leavePort n st cause s) := by
  obtain ⟨x, y, hx, -, rfl | rfl, hy⟩ := leavePort_factors n st cause s
  · exact .of_cox (hy.cox.trans hx.cox)
  · exact ((SameCourse.of_cox hx.cox).trans (sameCourse_boardLoses n st (by rwa [hx.cox]))).trans (.of_cox hy.cox)

theorem sameCourse_toTrain (n cause : Nat) {s : State} (h : s.cox.st ≠ .wait) : SameCourse s (toTrain n cause s) :=
  sameCourse_leavePort n .train cause h

theorem keepsPower_toTrain (n cause : Nat) (s : State) : KeepsPower s (toTrain n cause s) :=
  (keepsPower_leavePort n .train cause s).trans (quiet_setLnk n _ _).toKeepsPower

/-- The ports that fault for want of a boundary wait take nothing from the course that starts (R213). -/
theorem driftFaults_keeps {s : State} (h : s.cox.st ≠ .wait) : SameCourse s (driftFaults s) ∧ KeepsPower s (driftFaults s) := by
  refine (List.range 8).foldlRecOn (motive := fun x => SameCourse s x ∧ KeepsPower s x) _ ⟨.refl s, .refl s⟩ ?_
  intro x ⟨hc, hp⟩ n _
  exact ⟨hc.trans (.iff _ (sameCourse_toTrain n lcSignal (hc.1 ▸ h))), hp.trans (.iff _ (keepsPower_toTrain n lcSignal x))⟩

end Sys2Proof.Machine
end

section
/-! PROOFS. What starts a course that waits at a boundary, and what halts it there (R79, R80, R210, R212, R232). -/

namespace Sys2Proof.Machine

section
variable {s : State}

theorem startState_not_wait (s : State) : startState s ≠ .wait := by
  unfold startState
  split <;> simp

/-- The controller goes on waiting where a lead runs, or where the wait condition is not met. -/
theorem retryStart_of_not_clear (h : clearToStart s = false ∨ (paceMode s).mode = .tethered) : retryStart s = s := by
  unfold retryStart
  rcases h with h | h <;> simp [h]

theorem retryStart_of_not_waitsHere (h : waitsHere s = false) : retryStart s = s := by
  simp only [waitsHere] at h
  simp only [retryStart, h, Bool.false_and, Bool.false_eq_true, if_false]

theorem exec_startLeadEnd (hw : s.cox.st = .wait) (hl : s.cox.lead = some 0) :
    exec .startLeadEnd s = .next (retryStart { s with cox := { s.cox with lead := none } }) :=
  whenever_true _ _ (by simp [hw, hl])

theorem startLeadEnd_starts (hw : s.cox.st = .wait) (hl : s.cox.lead = some 0) (hc : clearToStart s = true)
    (hp : (paceMode s).mode ≠ .tethered) (ht : s.cox.tether = none) : Answers .startLeadEnd s fun t =>
      t.cox.st = startState s ∧ t.cox.lead = none ∧ t.slots = s.slots ∧ t.deep = s.deep ∧ course t = course s := by
  let x : State := { s with cox := { s.cox with lead := none } }
  have starts : retryStart x = goCourse x := retryStart_of_clear (by simp [x, waitsHere, hw, ht]) hc hp
  have k := keepsRun_goCourse x
  exact .of_next ((exec_startLeadEnd hw hl).trans (congrArg _ starts)) ⟨k.st, k.lead, k.slots, k.deep, k.course⟩

/-- Where lock-step is in force a grant adds to the balance, and the course that waits for it may start (R210). -/
theorem exec_grant (add : BitVec 16) (hu : hostUp s = true) (hl : lockStep s = true) : exec (.grant add) s =
    .next (retryStart (setFld fGrantBal (min 0xFFFFFFFF (fld s fGrantBal + add.toNat)) s)) :=
  whenever_true _ _ (by simp [hu, hl])

theorem grant_starts (add : BitVec 16) (hu : hostUp s = true) (hl : lockStep s = true) (hw : waitsHere s = true)
    (hc : clearToStart (setFld fGrantBal (min 0xFFFFFFFF (fld s fGrantBal + add.toNat)) s) = true)
    (hp : (paceMode s).mode ≠ .tethered) :
    Answers (.grant add) s fun t => t.cox.st = startState s ∧ t.slots = s.slots ∧ t.deep = s.deep := by
  let x := setFld fGrantBal (min 0xFFFFFFFF (fld s fGrantBal + add.toNat)) s
  have starts : retryStart x = goCourse x := retryStart_of_clear (s := x) hw hc hp
  have k := keepsRun_goCourse x
  exact .of_next ((exec_grant add hu hl).trans (congrArg _ starts)) ⟨k.st, k.slots, k.deep⟩

theorem tetherLeadEnd_starts (hw : waitsHere { s with cox := { s.cox with tether := none } } = true)
    (hp : (paceMode s).mode = .tethered) (hc : clearToStart s = true)
    (ht : (s.cox.tether == some 0 || !isMaster s) = true) : Answers .tetherLeadEnd s fun t =>
      t.cox.st = startState s ∧ t.cox.tether = none ∧ t.slots = s.slots ∧ t.deep = s.deep := by
  have waits : (s.cox.st == .wait && s.cox.lead.isNone) = true := by simpa [waitsHere] using hw
  have k := keepsRun_goCourse s
  have runs : (goCourse s).cox.st ≠ .wait := k.st ▸ startState_not_wait s
  obtain ⟨⟨st, tether⟩, power⟩ := driftFaults_keeps runs
  obtain ⟨-, deep, slots, -⟩ := power.stores
  exact .of_next (whenever_true _ _ (by simp [waits, hp, hc, ht]))
    ⟨st.trans k.st, tether.trans (k.tether rfl), slots.trans k.slots, deep.trans k.deep⟩

/-- The link timeout acts as a halt with cause 6 (R232). -/
theorem boardWaitTimeout_halts (hw : s.cox.st = .wait) (hb : boardReady s = false) (hr : bits (reg s 0xB0088) 0 16 ≠ 0) :
    Answers .boardWaitTimeout s fun t => Stopped t ∧ t.slots = s.slots ∧ t.deep = s.deep ∧
      (s.cox.halts = [] → fld t fHaltCause = 6) := by
  obtain ⟨stopped, ⟨-, deep, slots, -⟩, -, cause⟩ :=
    haltHereAll_halts (cause := hcLinkLost) (logEvent evBoardIncomplete locNone (missingPorts s) s) (by decide)
  exact .of_next (whenever_true _ _ (by simp [hw, hb, hr]))
    ⟨stopped, slots.trans (by simp), deep.trans (by simp), fun h => cause (by simpa using h)⟩

end

/-- Settles O18: each clause is a lemma above on the command that it names. -/
theorem waitsAtBoundaries : Obligations.WaitsAtBoundaries := by
  unfold Obligations.WaitsAtBoundaries
  refine ⟨fun s hw hl => ⟨fun h => ?_, startLeadEnd_starts hw hl⟩,
    fun s add => ⟨fun hl => ?_, fun hu hl hw => ?_, fun hu hl hw => grant_starts add hu hl hw⟩,
    fun s => tetherLeadEnd_starts, fun s => boardWaitTimeout_halts⟩
  · exact (exec_startLeadEnd hw hl).trans (congrArg _ (retryStart_of_not_clear h))
  · exact whenever_false _ _ (by simp [hl])
  · exact (exec_grant add hu hl).trans (congrArg _ (retryStart_of_not_waitsHere hw))

end Sys2Proof.Machine
end

section
/-! PROOFS. A command of the mailbox (R304, R305): what its start and its completion move, whatever the command does between. -/

namespace Sys2Proof.Machine

/-- The mailbox's own registers, the host's side, the Keeper's sleep, packets and interrupts at most have changed. -/
def Mailed (s t : State) : Prop :=
  (∃ regs hif pwr committed out, t = { s with
    regs := regs, hif := hif, pwr := pwr, trc := { s.trc with committed := committed }, out := out }) ∧
  ∀ a, a < 0x10000 ∨ 0x10040 ≤ a → reg t a = reg s a

theorem Mailed.refl (s : State) : Mailed s s := ⟨⟨_, _, _, _, _, rfl⟩, fun _ _ => rfl⟩

theorem Mailed.trans {s t u : State} (h : Mailed s t) (k : Mailed t u) : Mailed s u := by
  obtain ⟨⟨_, _, _, _, _, rfl⟩, h⟩ := h
  obtain ⟨⟨_, _, _, _, _, rfl⟩, k⟩ := k
  exact ⟨⟨_, _, _, _, _, rfl⟩, fun a ha => (k a ha).trans (h a ha)⟩

theorem mailed_outside (s : State) {hif pwr out} : Mailed s { s with hif := hif, pwr := pwr, out := out } :=
  ⟨⟨_, _, _, _, _, rfl⟩, fun _ _ => rfl⟩

theorem mailed_setReg {a : Nat} (v : Word) (s : State) (h : 0x10000 ≤ a) (h' : a < 0x10040) : Mailed s (setReg a v s) :=
  ⟨⟨_, _, _, _, _, rfl⟩, fun b hb => reg_setReg_ne v s (by omega)⟩

theorem mailed_setFld {f : Fld} (v : Nat) (s : State) (h : 0x10000 ≤ f.a) (h' : f.a < 0x10040) : Mailed s (setFld f v s) :=
  mailed_setReg _ s h h'

theorem mailed_commit (t f o : BitVec 8) (ws : List (BitVec 64)) (s : State) : Mailed s (commit t f o ws s) := by
  unfold commit
  split
  · exact ⟨⟨_, _, _, _, _, rfl⟩, fun _ _ => rfl⟩
  · exact .refl s

theorem mailed_keeperUp (s : State) : Mailed s (keeperUp s) := by
  unfold keeperUp
  dsimp only
  split
  · exact (mailed_outside s).trans ((mailed_commit _ _ _ _ _).trans (mailed_commit _ _ _ _ _))
  · exact .refl s

theorem mailed_mbxBegin (cmd : Nat) (long irq : Bool) (seq : BitVec 8) (s : State) : Mailed s (mbxBegin cmd long irq seq s) :=
  ((mailed_setFld _ s (by decide) (by decide)).trans (mailed_setFld _ _ (by decide) (by decide))).trans
    ((mailed_outside _).trans (mailed_commit _ _ _ _ _))

theorem mailed_writeArgs (m : MbxArgs) (s : State) : Mailed s (writeArgs m s) :=
  ((mailed_setReg _ s (by decide) (by decide)).trans (mailed_setReg _ _ (by decide) (by decide))).trans
    ((mailed_setReg _ _ (by decide) (by decide)).trans (mailed_setReg _ _ (by decide) (by decide)))

theorem mailed_interrupt (fn : Nat) (vec : BitVec 11) (s : State) : Mailed s (interrupt fn vec s) := by
  unfold interrupt
  split <;> exact mailed_outside s

theorem Mailed.iff {s : State} {f : State → State} (c : Bool) (h : Mailed s (f s)) : Mailed s (iff c f s) := by
  cases c
  · exact .refl s
  · exact h

/-- The completion of a command shows its code, and the mailbox is free (R305). -/
theorem mbxEnd_completes (r : MbxRes) (s : State) : Mailed s (mbxEnd r s) ∧ fld (mbxEnd r s) fMbxCode = r.code.toNat ∧
    (mbxEnd r s).hif.busy = false := by
  have served : ∀ (c : Bool) (x : State), Mailed x (iff c (interrupt 0 0) x) ∧ (iff c (interrupt 0 0) x).regs = x.regs ∧
      (iff c (interrupt 0 0) x).hif.busy = x.hif.busy := fun c x => by
    refine ⟨.iff c (mailed_interrupt 0 0 x), ?_⟩
    unfold iff interrupt
    split
    · split <;> exact ⟨rfl, rfl⟩
    · exact ⟨rfl, rfl⟩
  let s1 := setReg 0x10030 r.r0 (setReg 0x10034 r.r1 (setReg 0x10038 r.r2 (setReg 0x1003C r.r3 s)))
  let s2 := commandPacket r.code.toNat true (setFld fMbxCode r.code.toNat s1)
  let s3 : State := { s2 with hif := { s2.hif with busy := false, irq := false, due := none } }
  have results : Mailed s s1 :=
    ((mailed_setReg _ s (by decide) (by decide)).trans (mailed_setReg _ _ (by decide) (by decide))).trans
      ((mailed_setReg _ _ (by decide) (by decide)).trans (mailed_setReg _ _ (by decide) (by decide)))
  have shown : Mailed s1 s2 := (mailed_setFld _ s1 (by decide) (by decide)).trans (mailed_commit _ _ _ _ _)
  have code : fld s2 fMbxCode = r.code.toNat := by
    refine (fld_of_reg (reg_of_regs (commit_regs _ _ _ _ _) _)).trans ((fld_setFld _ _ _ (by decide)).trans ?_)
    exact Nat.mod_eq_of_lt r.code.isLt
  obtain ⟨hm, hr, hb⟩ := served s.hif.irq s3
  have e : mbxEnd r s = iff s.hif.irq (interrupt 0 0) s3 := rfl
  rw [e]
  exact ⟨(results.trans shown).trans ((mailed_outside s2).trans hm), (fld_of_reg (reg_of_regs hr _)).trans code, hb⟩

/-- A short command that the mailbox takes: it runs on the state with the command begun, and completes. -/
theorem mbxShort_takes {s : State} (cmd : Nat) (m : MbxArgs) (f : State → State × MbxRes) (h : mbxFree s = true) :
    ∃ x, Mailed s x ∧ mbxShort cmd m f s = mbxEnd (f x).2 (f x).1 := by
  simp only [mbxFree, Bool.and_eq_true, Bool.not_eq_true', beq_iff_eq] at h
  obtain ⟨⟨ho, hb⟩, hu⟩ := h
  refine ⟨_, ?_, by
    unfold mbxShort mbxWrite
    rw [ho, hb, hu]
    rfl⟩
  have flags := ((mailed_setFld (f := ⟨0x10000, 0, 8⟩) cmd (writeArgs m (keeperUp s)) (by decide) (by decide)).trans
    (mailed_setFld (f := ⟨0x10000, 8, 8⟩) m.seq.toNat _ (by decide) (by decide))).trans
      (mailed_setFld (f := ⟨0x10000, 31, 1⟩) m.irq.toNat _ (by decide) (by decide))
  exact (((mailed_keeperUp s).trans (mailed_writeArgs m _)).trans flags).trans (mailed_mbxBegin _ _ _ _ _)

end Sys2Proof.Machine
end

section
/-! PROOFS. SET_MODE (R204 to R207). -/

namespace Sys2Proof.Machine

/-! What a mode change makes of the controller. -/

theorem serviceEffects_cox (s : State) : (serviceEffects s).cox = s.cox :=
  ((quiet_triggerStop (pinsOff s)).trans (quiet_stopDataPlane _)).cox

theorem logMode_cox (old new : Mode) (s : State) : (logMode old new s).cox = s.cox := by simp [logMode]

/-- The mode with its options is in force, and none waits. -/
theorem applyMode_cox (m : ModeSet) (s : State) : ∃ throttle reqs raised stops, (applyMode m s).cox = { s.cox with
    mode := m.mode, lockstep := m.lockstep, fleetPins := m.fleetPins, pend := none, lockPre := false, tether := none,
    throttle := throttle, reqs := reqs, raised := raised, stops := stops } := by
  have before : (iff (m.mode == .service && s.cox.mode != .service) (densEnd true) s).cox = s.cox := by
    rw [iff_proj State.cox, (quiet_densEnd true s).cox, ite_self]
  unfold applyMode
  dsimp only
  rw [iff_proj State.cox, logMode_cox, ite_self, iff_proj State.cox, show ∀ x, (releasePins x).cox = x.cox from fun _ => rfl,
    ite_self, iff_proj State.cox, show ∀ x, (pullsOn x).cox = x.cox from fun _ => rfl, ite_self, iff_proj State.cox,
    serviceEffects_cox, ite_self, before, iff_proj State.cox]
  split
  · refine ⟨none, [], [], [], ?_⟩
    simp only [setFlag_cox, iff_proj State.cox, setFld_cox, ite_self]
  · refine ⟨s.cox.throttle, s.cox.reqs, s.cox.raised, s.cox.stops, ?_⟩
    rw [iff_proj State.cox, setFld_cox, ite_self]

/-! What SET_MODE asks of the state is not the mailbox's. -/

section
variable {s x : State} (h : Mailed s x)
include h

theorem Mailed.keeps : SameStores s x ∧ x.cox = s.cox ∧ x.pins = s.pins ∧ x.wide = s.wide ∧ x.ldr = s.ldr := by
  obtain ⟨⟨_, _, _, _, _, rfl⟩, -⟩ := h
  exact ⟨.refl s, rfl, rfl, rfl, rfl⟩

theorem Mailed.modeRefused (m : ModeSet) : modeRefused m x = modeRefused m s := by
  obtain ⟨-, hc, -, -, hl⟩ := h.keeps
  simp only [Machine.modeRefused, header, hc, hl, fld_of_reg (f := fStretch) (h.2 fStretch.a (by decide)),
    fld_of_reg (f := fThrLevel) (h.2 fThrLevel.a (by decide))]

theorem Mailed.modeSame (m : ModeSet) : modeSame m x = modeSame m s := by
  obtain ⟨-, hc, -⟩ := h.keeps
  simp only [Machine.modeSame, hc]

theorem Mailed.inCourse : inCourse x = inCourse s := by
  obtain ⟨-, hc, -⟩ := h.keeps
  simp only [Machine.inCourse, hc]

theorem Mailed.haltBefore : haltBefore x (raiseAt x) = haltBefore s (raiseAt s) := by
  obtain ⟨-, hc, -, hw, -⟩ := h.keeps
  rw [raiseAt_of_same hc hw]
  simp only [Machine.haltBefore, hc, fld_of_reg (f := fReachUp) (h.2 fReachUp.a (by decide)),
    fld_of_reg (f := fReachDown) (h.2 fReachDown.a (by decide))]

end

section
variable {s : State}

/-- A word that breaks R204, a change that waits already, and a mode that R206 refuses are refused alike. -/
theorem setMode_refuses {v : Word} (h : modeArg v = none ∨ s.cox.pend.isSome = true ∨
    ∃ m, modeArg v = some m ∧ modeSame m s = false ∧ modeRefused m s = true) :
    setMode v s = (s, mbxFail ccRefusedMode 0) := by
  unfold setMode
  rcases h with h | h | ⟨m, h, hs, hr⟩
  · rw [h]
  · split
    · rfl
    · rw [if_pos h]
  · rw [h]
    simp [hs, hr]

theorem setMode_accepts {v : Word} {m : ModeSet} (h : modeArg v = some m) (hp : s.cox.pend = none)
    (hs : modeSame m s = false) (hr : modeRefused m s = false) : setMode v s = modeAccept m s := by
  simp [setMode, h, hp, hs, hr]

/-- While a course runs the change waits for the boundary of R81. -/
theorem modeAccept_in_course (m : ModeSet) (hl : s.ldr.stage ≠ 0) (h : inCourse s = true) : modeAccept m s =
    modeDone (haltBefore s (raiseAt s)) (setFld fModeAt (haltBefore s (raiseAt s))
      { s with cox := { s.cox with pend := some { m with course := haltBefore s (raiseAt s) } } }) := by
  simp [modeAccept, hl, h]

/-- Outside a course and outside WAIT it takes effect at once, and nothing starts. -/
theorem modeAccept_at_rest (m : ModeSet) (hl : s.ldr.stage ≠ 0) (h : s.cox.st = .ready ∨ s.cox.st = .halted) :
    modeAccept m s = modeDone (course s) (applyMode m s) := by
  have rest : inCourse s = false ∧ s.cox.st ≠ .wait := by rcases h with h | h <;> simp [inCourse, h]
  have stays : retryStart (applyMode m s) = applyMode m s :=
    retryStart_of_not_wait ((keepsRun_applyMode m s).st ▸ rest.2)
  simp [modeAccept, hl, rest, stays]

theorem exec_setMode (m : MbxArgs) (h : mbxFree s = true) :
    ∃ x, Mailed s x ∧ exec (.setMode m) s = .next (mbxEnd (setMode m.a0 x).2 (setMode m.a0 x).1) := by
  obtain ⟨x, hx, e⟩ := mbxShort_takes 0x10 m (setMode m.a0) h
  exact ⟨x, hx, congrArg _ e⟩

end

/-- Settles O22: a refusal changes no mode, and an accepted change waits in a course and acts at once at rest. -/
theorem setModeTakesEffect : Obligations.SetModeTakesEffect := by
  unfold Obligations.SetModeTakesEffect
  intro s m free
  obtain ⟨x, hx, e⟩ := exec_setMode m free
  obtain ⟨-, hc, hpins, -, hldr⟩ := hx.keeps
  have hs := hx.keeps.1
  refine ⟨fun h => ?_, fun md ha hp hsame hr hl => ?_⟩
  · rw [setMode_refuses (by simpa only [hc, hx.modeSame, hx.modeRefused] using h)] at e
    obtain ⟨k, code, busy⟩ := mbxEnd_completes (mbxFail ccRefusedMode 0) x
    obtain ⟨-, kc, kp, -⟩ := k.keeps
    exact .of_next e ⟨code, kc.trans hc, kp.trans hpins, busy⟩
  · rw [setMode_accepts ha (by rw [hc, hp]) (by rw [hx.modeSame, hsame]) (by rw [hx.modeRefused, hr])] at e
    refine ⟨fun hi => ?_, fun hst => ?_⟩
    · rw [modeAccept_in_course md (by rwa [hldr]) (by rwa [hx.inCourse]), hx.haltBefore] at e
      obtain ⟨k, code, -⟩ := mbxEnd_completes (mbxRes ccDone (haltBefore s (raiseAt s) % 2 ^ 32))
        (setFld fModeAt (haltBefore s (raiseAt s))
          { x with cox := { x.cox with pend := some { md with course := haltBefore s (raiseAt s) } } })
      obtain ⟨⟨kb, kd, -⟩, kc, kp, -⟩ := k.keeps
      exact .of_next e ⟨code, kc.trans (by rw [setFld_cox, hc]), kp.trans hpins, kb.trans hs.1, kd.trans hs.2.1⟩
    · rw [modeAccept_at_rest md (by rwa [hldr]) (by rwa [hc])] at e
      obtain ⟨k, code, -⟩ := mbxEnd_completes (mbxRes ccDone (course x % 2 ^ 32)) (applyMode md x)
      obtain ⟨stores, kc, -⟩ := k.keeps
      obtain ⟨_, _, _, _, hm⟩ := applyMode_cox md x
      obtain ⟨bank, deep, slots, -⟩ := hs.trans ((keepsPower_applyMode md x).stores.trans stores)
      have cox := kc.trans hm
      exact .of_next e ⟨code, congrArg Cox.mode cox, congrArg Cox.lockstep cox, congrArg Cox.fleetPins cox,
        congrArg Cox.pend cox, (congrArg Cox.st cox).trans (by simp only [hc]), bank, deep, slots⟩

end Sys2Proof.Machine
end

section
/-! PROOFS. The retirement of a stroke (R77) leaves the course length and the mode change that waits as they are. -/

namespace Sys2Proof.Machine

/-- The course length and the mode change that waits are as they were. -/
structure SameTerms (s t : State) : Prop where
  length : t.cox.length = s.cox.length
  pend : t.cox.pend = s.cox.pend

theorem SameTerms.refl (s : State) : SameTerms s s := ⟨rfl, rfl⟩

theorem SameTerms.trans {s t u : State} (h : SameTerms s t) (k : SameTerms t u) : SameTerms s u :=
  ⟨k.length.trans h.length, k.pend.trans h.pend⟩

theorem SameTerms.iff {s : State} {f : State → State} (c : Bool) (h : SameTerms s (f s)) : SameTerms s (iff c f s) := by
  cases c
  · exact .refl s
  · exact h

theorem SameTerms.foldl {α : Type} {f : State → α → State} (h : ∀ x a, SameTerms x (f x a)) (l : List α) (s : State) :
    SameTerms s (l.foldl f s) :=
  l.foldlRecOn f (.refl s) fun x hx a _ => hx.trans (h x a)

theorem SameTerms.of_cox {s t : State} (h : t.cox = s.cox) : SameTerms s t := ⟨by rw [h], by rw [h]⟩

/-- Where the controller is as it was, a step from there counts from here. -/
theorem SameTerms.after {s t u : State} (k : SameTerms t u) (h : s.cox = t.cox) : SameTerms s u :=
  (SameTerms.of_cox h.symm).trans k

theorem SameTerms.of_reported {cs : List Nat} {s t : State} (h : Reported cs s t) : SameTerms s t := by
  obtain ⟨⟨_, _, _, _, _, _, _, _, _, _, _, _, rfl⟩, -⟩ := h
  exact ⟨rfl, rfl⟩

theorem sameTerms_raiseHalt (cause : Nat) (s : State) : SameTerms s (raiseHalt cause s) :=
  .of_reported (cs := []) (reported_raiseHalt cause s)

theorem iff_cox {f : State → State} {s : State} (c : Bool) (h : (f s).cox = s.cox) : (iff c f s).cox = s.cox := by
  cases c
  · rfl
  · exact h

/-- What happens once a course leaves the controller as it is, if it does so each time. -/
theorem oncePerCourse_cox {f : State → State} (kind unit : Nat) (s : State) (h : ∀ x, (f x).cox = x.cox) :
    (oncePerCourse kind unit f s).cox = s.cox := by
  unfold oncePerCourse
  split
  · rfl
  · exact h _

/-! The fire that the master sends on (R418). -/

theorem quiet_tryDone (s : State) : Quiet s (tryDone s) := by
  unfold tryDone
  split
  · extract_lets post pre n s1
    have record : Quiet s s1 := ((quiet_setFlag true s (f := fRecValid) (by decide)).trans (quiet_outside _)).trans
      (quiet_setReg (a := 0x8002C) _ _ (by decide))
    split
    · exact (record.trans (quiet_outside s1)).trans (quiet_logEvent _ _ _ _)
    · exact .refl s
  · exact .refl s

theorem quiet_fireReceived (m : CoxMsg) (s : State) : Quiet s (fireReceived m s) := by
  unfold fireReceived
  split
  · extract_lets c before v word s1 trg s2
    have shown : Quiet s s1 := quiet_setReg (a := 0x80020) _ s (by decide)
    have fired : Quiet s1 s2 := quiet_outside s1
    exact (shown.trans fired).trans ((quiet_logEvent _ _ _ _).trans (quiet_tryDone _))
  · exact .refl s

theorem sameTerms_sendFire (m : CoxMsg) (s : State) : SameTerms s (sendFire m s) := by
  unfold sendFire
  extract_lets s1 g
  have said : SameTerms s s1 := .of_cox (iff_cox _ rfl)
  split
  · exact said
  · split
    · exact said.trans (sameTerms_raiseHalt _ _)
    · exact said.trans ⟨rfl, rfl⟩

theorem sameTerms_fireTick (s : State) : SameTerms s (fireTick s) := by
  unfold fireTick
  split
  · exact .refl s
  · rename_i m g _
    have acts : ∀ c x, (iff c (fun y => fireReceived m { y with trg := { y.trg with sent := none } }) x).cox = x.cox :=
      fun c x => iff_cox c (quiet_fireReceived m { x with trg := { x.trg with sent := none } }).cox
    exact (SameTerms.iff _ (sameTerms_sendFire m s)).trans (.of_cox (acts _ _))

/-! Crew wires, memory operations, logs and landings. -/

theorem contention_cox (pc w : Nat) (s : State) (x : Clash) : (contention pc w s x).cox = s.cox := by
  unfold contention
  extract_lets p c a v s1 s2
  have counted : s2.cox = s.cox := by
    unfold s2
    split
    · exact count_cox _ s
    · exact (setReg_cox _ _ _).trans ((setReg_cox _ _ s1).trans (count_cox _ s))
  exact (iff_cox _ (oncePerCourse_cox _ _ _ fun y => logEvent_cox _ _ _ y)).trans counted

theorem foldl_cox {α : Type} {f : State → α → State} (h : ∀ x a, (f x a).cox = x.cox) (l : List α) (s : State) :
    (l.foldl f s).cox = s.cox :=
  l.foldlRecOn (motive := fun x => x.cox = s.cox) f rfl fun x hx a _ => (h x a).trans hx

theorem resolveOne_cox (before s : State) (k : Nat) : (resolveOne before s k).cox = s.cox := by
  unfold resolveOne
  extract_lets ds
  split
  extract_lets s1 fab s2
  have clashes : s1.cox = s.cox := foldl_cox (contention_cox _ _) _ s
  have driven : s2.cox = s.cox := by
    unfold s2
    split <;> exact clashes
  split <;> exact driven

theorem resolveWires_cox (s : State) : (resolveWires s).cox = s.cox := by
  unfold resolveWires
  extract_lets keys fab s0 s1
  exact foldl_cox (resolveOne_cox s) keys s0

theorem sameTerms_outOfAlloc (p d desc inst : Nat) (s : State) : SameTerms s (outOfAlloc p d desc inst s) := by
  unfold outOfAlloc
  extract_lets al v s1 s2
  have counted : s1.cox = s.cox := (recordFirst_cox _ _ _).trans (count_cox _ s)
  have logged : s2.cox = s1.cox := oncePerCourse_cox _ _ _ fun y => logEvent_cox _ _ _ y
  exact (SameTerms.of_cox (logged.trans counted)).trans (.iff _ (sameTerms_raiseHalt _ _))

theorem xAddress_cox (p d : Nat) (s : State) : (xAddress p d s).cox = s.cox :=
  (oncePerCourse_cox _ _ _ fun y => logEvent_cox _ _ _ y).trans (count_cox _ s)

theorem sameTerms_performWrite (p d desc : Nat) (cs : List Contrib) (inst idx : Nat) (s : State) :
    SameTerms s (performWrite p d desc cs inst idx s) := by
  unfold performWrite
  extract_lets deep en kind go
  split
  · exact .refl s
  · split
    · exact .of_cox (xAddress_cox p d s)
    · split
      · exact sameTerms_outOfAlloc _ _ _ _ s
      · split
        · exact .of_cox ((cancelBack_cox _ _ _).trans (setDeepCw_cox _ _ s))
        · exact .of_cox ((cancelBack_cox _ _ _).trans (setBankCw_cox _ _ s))

theorem sameTerms_dmemAsk (terr tick : Nat) (s : State) : SameTerms s (dmemAsk terr tick s) := by
  unfold dmemAsk
  split
  · exact .refl s
  · exact ⟨rfl, rfl⟩

theorem sameTerms_readInst (s : State) (p d desc : Nat) (cs : List Contrib) (inst idx : Nat) (x : State) :
    SameTerms x (readInst s p d desc cs inst idx x).2.2 := by
  unfold readInst
  extract_lets deep en four go
  split
  · exact .refl x
  · split
    · exact .refl x
    · split
      · exact sameTerms_outOfAlloc _ _ _ _ x
      · exact .refl x

theorem sameTerms_performRead (p d desc : Nat) (cs : List Contrib) (s : State) : SameTerms s (performRead p d desc cs s) := by
  unfold performRead
  extract_lets port ix
  have first := sameTerms_readInst s p d desc cs 0 (ix.headD (0, 0)).2 s
  split
  rename_i g0 k0 s1 e0
  rw [e0] at first
  have second := first.trans (sameTerms_readInst s p d desc cs 1 (ix.getD 1 (1, 0)).2 s1)
  split
  rename_i g1 k1 s2 e1
  have read : SameTerms s s2 := by
    split at e1
    · rw [e1] at second
      exact second
    · cases e1
      exact first
  split
  · exact read
  · have queued : ∀ fab, SameTerms s { s2 with fab := fab } := fun _ => ⟨read.length, read.pend⟩
    extract_lets
    split
    · exact queued _
    · split
      · exact ((queued _).trans (.of_cox (setFld_cox _ _ _))).trans (sameTerms_dmemAsk _ _ _)
      · exact queued _

theorem sameTerms_performOp (write : Bool) (port : Nat) (s : State) (name : Nat × Nat) :
    SameTerms s (performOp write port s name) := by
  unfold performOp
  extract_lets p d desc cs
  split
  · split
    · exact .foldl (fun x i => sameTerms_performWrite _ _ _ _ _ _ x) _ s
    · exact sameTerms_performRead _ _ _ _ s
  · exact .refl s

theorem sameTerms_descError (s : State) (name : Nat × Nat) : SameTerms s (descError s name) := by
  have reported : ∀ p x, SameTerms x (careError p 0 0 2 (frameKey 5 p 0 0 15) (count (pavA p + 0x208) x)) := fun p x =>
    (SameTerms.of_cox (count_cox _ x)).trans (.of_reported (reported_careError (cs := [0x60028]) p 0 0 2 _ _ (by simp)))
  unfold descError
  extract_lets p
  exact .iff _ (reported p s)

theorem sameTerms_memoryOps (s : State) : SameTerms s (memoryOps s) := by
  have ops : ∀ write (names : List (Nat × Nat)) (ports : List Nat) (x : State),
      SameTerms x (ports.foldl (fun y port => names.foldl (performOp write port) y) x) := fun write names ports x =>
    .foldl (fun y port => .foldl (sameTerms_performOp write port) names y) ports x
  unfold memoryOps
  extract_lets names byTerr s0 s1 s2 s3
  have done : SameTerms s s3 := (((SameTerms.foldl sameTerms_descError names s).trans (ops false names _ s0)).trans
    (ops true names _ s1)).trans (.foldl (sameTerms_performOp true 2) byTerr s2)
  exact ⟨done.length, done.pend⟩

theorem endMessage_cox (port : BitVec 8) (inst : Nat) (cont : Bool) (s : State) : (endMessage port inst cont s).cox = s.cox := by
  unfold endMessage
  extract_lets k vs
  split <;> rfl

theorem appendInst_cox (r : LogRec) (inst : Nat) (s : State) : (appendInst r inst s).cox = s.cox := by
  unfold appendInst
  extract_lets k v trc s1
  have appended : s1.cox = s.cox := by
    unfold s1
    split <;> rfl
  split
  · exact (endMessage_cox _ _ _ _).trans appended
  · exact (iff_cox _ (endMessage_cox _ _ _ _)).trans appended

theorem appendLogs_cox (s : State) : (appendLogs s).cox = s.cox :=
  foldl_cox (f := appendLog) (fun x r => (iff_cox _ (appendInst_cox r 1 _)).trans (appendInst_cox r 0 x)) _ s

theorem applyLandings_cox (s : State) : (applyLandings s).cox = s.cox := foldl_cox (f := landOne) (fun _ _ => rfl) _ s

theorem sameTerms_retireStroke (s : State) : SameTerms s (retireStroke s) := by
  have staged := (SameTerms.of_cox (resolveWires_cox s)).trans (sameTerms_memoryOps (resolveWires s))
  unfold retireStroke
  extract_lets s1
  have landed : SameTerms s s1 := staged.trans (.of_cox ((applyLandings_cox _).trans (appendLogs_cox _)))
  clear_value s1
  exact ⟨landed.length, landed.pend⟩

/-! The record ring and the clock. -/

theorem loseRecord_cox (s : State) : (loseRecord s).cox = s.cox := (iff_cox _ (logEvent_cox _ _ _ _)).trans (count_cox _ s)

theorem drainRecords_cox (g : Nat) (l : Sparse (List (BitVec 64))) (s : State) : (drainRecords g l s).cox = s.cox := by
  induction l generalizing s with
  | nil => rfl
  | cons e r ih =>
    unfold drainRecords
    split
    · rfl
    · split
      · exact ih s
      · split
        · exact (ih _).trans (loseRecord_cox s)
        · exact ih _

/-- The stroke in progress has retired: the course length and the mode change that waits stand. -/
theorem sameTerms_passStroke (s : State) : SameTerms s (passStroke s) := by
  have retired := (sameTerms_fireTick s).trans (sameTerms_retireStroke (fireTick s))
  unfold passStroke
  extract_lets s1 s2 s3
  have written : SameTerms s s1 := retired.trans (.of_cox (drainRecords_cox _ _ _))
  have spent : SameTerms s s2 := written.trans (.of_cox (iff_cox _ (setFld_cox _ _ _)))
  clear_value s1 s2
  exact ⟨spent.length, spent.pend⟩

end Sys2Proof.Machine
end

section
/-! PROOFS. A course boundary (R77, R81): the place at the boundary, and what ends the run there. -/

namespace Sys2Proof.Machine

/-- The boundary has come: the course counted, stroke 0 next, and the budgets of the host in effect (R77, R285). -/
def atBoundary (s : State) : State :=
  let s2 := setCourse (course s + 1) (passStroke s)
  applyBudgets { s2 with cox := { s2.cox with stroke := 0, stepping := s.cox.stepping.map fun n => n - 1 },
                         fab := { s2.fab with marks := [] },
                         hif := { s2.hif with admits := s2.hif.admits.filter fun a => decide (course s + 1 ≤ a.2.2.2) } }

/-- A halt that is due, the last course of a step, or a mode change to SERVICE ends the run. -/
def endsRun (s : State) : Bool :=
  let x := atBoundary s
  let modeDue := x.cox.pend.any fun m => decide (m.course ≤ course s + 1)
  (x.cox.halts.any fun h => decide (h.before ≤ course s + 1)) || s.cox.stepping.map (fun n => n - 1) == some 0 ||
    (modeDue && x.cox.pend.any fun m => m.mode == .service)

/-- With the mode change that waits applied, where it is due or the run ends (R207). -/
def changedAtBoundary (s : State) : State :=
  let x := atBoundary s
  match x.cox.pend with
  | some m => if (x.cox.pend.any fun m => decide (m.course ≤ course s + 1)) || endsRun s then applyMode m x else x
  | none => x

theorem crossBoundary_eq (s : State) : ∃ cause, crossBoundary s =
    if endsRun s then enterHalted cause (s.cox.mode == .tethered) (changedAtBoundary s) else proceed (changedAtBoundary s) :=
  ⟨_, rfl⟩

theorem keepsRun_changedAtBoundary (s : State) : KeepsRun (atBoundary s) (changedAtBoundary s) := by
  unfold changedAtBoundary
  dsimp only
  split
  · split
    · exact keepsRun_applyMode _ _
    · exact .refl _
  · exact .refl _

theorem course_atBoundary (s : State) : course (atBoundary s) = (course s + 1) % 2 ^ 64 := by
  have written : wideReg (setCourse (course s + 1) (passStroke s)) 0xB0010 = BitVec.ofNat 64 (course s + 1) :=
    look_upd_same _ _ _ _
  exact (congrArg BitVec.toNat written).trans (BitVec.toNat_ofNat _ _)

/-- What ends the run, as the obligation reads it off the retired stroke. -/
theorem endsRun_eq (s : State) : endsRun s = ((passStroke s).cox.halts.any (fun h => decide (h.before ≤ course s + 1)) ||
    s.cox.stepping.map (· - 1) == some 0 ||
    s.cox.pend.any fun m => decide (m.course ≤ course s + 1) && m.mode == .service) := by
  have pend : (atBoundary s).cox.pend = s.cox.pend := (sameTerms_passStroke s).pend
  have halts : (atBoundary s).cox.halts = (passStroke s).cox.halts := rfl
  simp only [endsRun, pend, halts]
  cases s.cox.pend <;> rfl

/-- The controller goes on at the boundary or waits there (R79). -/
theorem proceed_goes_on (s : State) : ∃ st, (st = .run ∨ st = .easy ∨ st = .wait) ∧
    KeepsRun { s with cox := { s.cox with st := st, lead := none, tether := none } } (proceed s) := by
  unfold proceed
  split
  · refine ⟨startState s, ?_, keepsRun_goCourse s⟩
    unfold startState
    split <;> simp
  · have waits : KeepsRun { s with cox := { s.cox with st := .wait, lead := none, tether := none } }
        { s with cox := { s.cox with st := .wait, lead := none, tether := none, edge := flag s fTclkEdge } } :=
      keepsRun_outside _
    exact ⟨.wait, by simp, waits.trans (.iff _ (keepsRun_applyPins _ _))⟩

/-- Settles O16: the boundary's place stands through a halt and through the start of the next course alike. -/
theorem courseBoundaryAdvances : Obligations.CourseBoundaryAdvances := by
  unfold Obligations.CourseBoundaryAdvances
  intro s h r ends
  have hends : endsRun s = ends := endsRun_eq s
  have stands := keepsRun_changedAtBoundary s
  have length : (changedAtBoundary s).cox.length = s.cox.length := stands.length.trans (sameTerms_passStroke s).length
  have stroke : (changedAtBoundary s).cox.stroke = 0 := stands.stroke
  have count := stands.course.trans (course_atBoundary s)
  obtain ⟨cause, hx⟩ := crossBoundary_eq s
  rw [hends] at hx
  refine .of_next (whenever_true _ _ h) ?_
  cases he : ends with
  | true =>
    rw [hx, he, if_pos rfl]
    have k := keepsRun_enterHalted cause (s.cox.mode == .tethered) (changedAtBoundary s)
    exact ⟨k.stroke.trans stroke, k.length.trans length, k.course.trans count, k.slots.trans stands.slots,
      k.deep.trans stands.deep, fun _ => enterHalted_stopped _ _ _, fun hf => absurd hf (by simp)⟩
  | false =>
    obtain ⟨st, hst, k⟩ := proceed_goes_on (changedAtBoundary s)
    rw [hx, he, if_neg Bool.false_ne_true]
    exact ⟨k.stroke.trans stroke, k.length.trans length, k.course.trans count, k.slots.trans stands.slots,
      k.deep.trans stands.deep, fun hf => absurd hf (by simp), fun _ => k.st ▸ hst⟩

end Sys2Proof.Machine
end

section
/-! PROOFS. A Daxair port that leaves its state in a course (R239, R262): the state it goes to and the cause that it shows. -/

namespace Sys2Proof.Machine

/-- The port stands in its state, with its STATUS register as it was. -/
structure PortStands (n : Nat) (s t : State) : Prop where
  st : (lnkPort t n).st = (lnkPort s n).st
  shown : reg t (lnkA n + 4) = reg s (lnkA n + 4)

section
variable {n : Nat}

theorem PortStands.refl (s : State) : PortStands n s s := ⟨rfl, rfl⟩

theorem PortStands.trans {s t u : State} (h : PortStands n s t) (k : PortStands n t u) : PortStands n s u :=
  ⟨k.st.trans h.st, k.shown.trans h.shown⟩

theorem PortStands.iff {s : State} {f : State → State} (c : Bool) (h : PortStands n s (f s)) : PortStands n s (iff c f s) := by
  cases c
  · exact .refl s
  · exact h

theorem PortStands.foldl {α : Type} {f : State → α → State} (h : ∀ x a, PortStands n x (f x a)) (l : List α) (s : State) :
    PortStands n s (l.foldl f s) :=
  l.foldlRecOn f (.refl s) fun x hx a _ => hx.trans (h x a)

theorem PortStands.of_same {s t : State} (hl : t.lnk = s.lnk) (hr : t.regs = s.regs) : PortStands n s t :=
  ⟨by simp only [lnkPort, hl], reg_of_regs hr _⟩

theorem portStands_setFld {f : Fld} (v : Nat) (s : State) (h : lnkA n + 4 ≠ f.a) : PortStands n s (setFld f v s) :=
  ⟨rfl, reg_setFld_ne v s h⟩

theorem portStands_logEvent (c l d : Nat) (s : State) : PortStands n s (logEvent c l d s) :=
  ⟨by simp only [lnkPort, logEvent_lnk], reg_logEvent c l d s (by unfold lnkA; omega)⟩

theorem portStands_count (a : Nat) (s : State) : PortStands n s (count a s) :=
  ⟨by simp only [lnkPort, count_lnk], reg_count a s (by unfold lnkA; omega)⟩

theorem portStands_addHalt (h : HaltReq) (s : State) : PortStands n s (addHalt h s) := by
  obtain ⟨halts, e⟩ := addHalt_only h s
  rw [e]
  exact .of_same rfl rfl

theorem portStands_raiseHalt (cause : Nat) (s : State) : PortStands n s (raiseHalt cause s) := by
  obtain ⟨halts, out, e⟩ := raiseHalt_only cause s
  rw [e]
  exact .of_same rfl rfl

/-- A port's markers to send are none of its state. -/
theorem portStands_markers (k v : Nat) (s : State) : PortStands n s (setLnk k { lnkPort s k with markers := v } s) := by
  refine ⟨?_, rfl⟩
  by_cases h : n = k
  · rw [h, lnkPort_setLnk]
  · rw [lnkPort_setLnk_ne _ _ h]

theorem portStands_showFar (k : Nat) (s : State) : PortStands n s (showFar k s) :=
  (portStands_setFld _ s (by simp only [lnkA]; omega)).trans (portStands_setFld _ _ (by simp only [lnkA]; omega))

theorem portStands_toForming (s : State) : PortStands n s (toForming s) := by
  have board : ∀ (x : State) (c : Cox), PortStands n x { x with cox := c } := fun x c => .of_same rfl rfl
  have measures : ∀ x, PortStands n x (toMeasuring x) := fun x =>
    (board x { x.cox with board := .measuring }).trans
      (.foldl (fun y k => .iff _ ((portStands_markers k 1024 y).trans (portStands_showFar k _))) _ _)
  unfold toForming
  split
  · refine (board s { s.cox with board := .forming }).trans ?_
    unfold tryMeasure
    split
    · exact measures _
    · exact .refl _
  · exact .refl s

/-- Outside WAIT no halt is in force at once, and the port of a package that isolates itself stands. -/
theorem portStands_isolate {s : State} (h : s.cox.st ≠ .wait) : PortStands n s (isolate s) := by
  have said : ∀ m, PortStands n s (emit (.cox 5 m) (setFlag fIsolated true (logEvent evCoxIsolated locNone 0 s))) := fun m =>
    ((portStands_logEvent _ _ _ s).trans (portStands_setFld _ _ (by simp only [fIsolated, lnkA]; omega))).trans
      (.of_same rfl rfl)
  unfold isolate
  dsimp only
  split
  · rw [if_neg (by simpa using h)]
    exact (said _).trans (.iff _ (portStands_addHalt _ _))
  · exact .refl s

theorem portStands_boardLoses (k : Nat) (st : LnkState) {s : State} (h : s.cox.st ≠ .wait) :
    PortStands n s (boardLoses k st s) := by
  have inactive : PortStands n s (setPortActive k false s) := portStands_setFld _ s (by simp only [lnkA]; omega)
  unfold boardLoses
  dsimp only
  split
  · exact inactive
  · split
    · have lost := (SameCourse.of_cox (logEvent_cox evLinkLost (locUnit k 0) st.code (setPortActive k false s))).trans
        ((SameCourse.iff (s.ldr.stage != 0) (sameCourse_raiseHalt hcLinkLost _)).trans (sameCourse_toForming _))
      refine PortStands.trans ?_ (portStands_isolate (lost.1 ▸ h))
      exact inactive.trans ((portStands_logEvent _ _ _ _).trans ((PortStands.iff _ (portStands_raiseHalt _ _)).trans
        (portStands_toForming _)))
    · refine PortStands.trans ?_ (portStands_isolate ((sameCourse_toForming (setPortActive k false s)).1 ▸ h))
      exact inactive.trans (portStands_toForming _)

theorem portStands_losePkt (s : State) (pk : Packet) : PortStands n s (losePkt s pk) := by
  have answered : ∀ x, PortStands n s (queued 0 5 x s) := fun x => by
    obtain ⟨bufs, waitQ, owed, e⟩ := queued_only 0 5 x s
    rw [e]
    exact .of_same rfl rfl
  unfold losePkt ioStatus ioAnswer
  dsimp only
  split
  · exact .of_same rfl rfl
  · split
    · exact .of_same rfl rfl
    · exact answered _

end

/-- A port that leaves its state outside WAIT stands in the one it goes to, with its cause (R262). -/
theorem leavePort_goes (n : Nat) (st : LnkState) {cause : Nat} {s : State} (hc : cause < 16) (h : s.cox.st ≠ .wait) :
    (lnkPort (leavePort n st cause s) n).st = st ∧ fld (leavePort n st cause s) (fLnkCause n) = cause := by
  unfold leavePort
  extract_lets x was lost s1 s2 s3
  have gone : (lnkPort s1 n).st = st ∧ fld s1 (fLnkCause n) = cause := by
    refine ⟨?_, (fld_setFld (fLnkCause n) _ _ (by simp [fLnkCause])).trans (Nat.mod_eq_of_lt hc)⟩
    show (lnkPort (setLnk n _ s) n).st = st
    rw [lnkPort_setLnk]
  have counted : PortStands n s1 s2 := .iff _ (portStands_count _ _)
  have noted : PortStands n s2 (iff (was && rewriting s2) (logEvent evLinkLost (locUnit n 0) st.code) s2) :=
    .iff _ (portStands_logEvent _ _ _ _)
  have same : (iff (was && rewriting s2) (logEvent evLinkLost (locUnit n 0) st.code) s2).cox = s.cox :=
    (iff_cox _ (logEvent_cox _ _ _ _)).trans (iff_cox _ (count_cox _ s1))
  have stands : PortStands n s1 (((x.store.flatMap (·.2)) ++ x.txQ).foldl losePkt s3) :=
    ((counted.trans noted).trans (.iff _ (portStands_boardLoses n st (by rwa [same])))).trans (.foldl portStands_losePkt _ _)
  exact ⟨stands.st.trans gone.1, (fld_of_reg stands.shown).trans gone.2⟩

/-- A port that goes back to TRAIN in a course (R213, R262). -/
theorem toTrain_goes (n : DPort) {cause : Nat} {s : State} (hc : cause < 16) (h : s.cox.st ≠ .wait) :
    PortGoes s (toTrain n.toNat cause s) n .train cause := by
  obtain ⟨st, shown⟩ := leavePort_goes n.toNat .train hc h
  refine ⟨?_, shown, (keepsPower_toTrain n.toNat cause s).stores⟩
  unfold toTrain
  rw [lnkPort_setLnk]
  exact st

end Sys2Proof.Machine
end

section
/-! PROOFS. Requests for Easy that are not a unit's own (R83, R93, R213, R231, R267). -/

namespace Sys2Proof.Machine

section
variable {s : State}

/-- The level may move by a step. -/
def stepRoom (s : State) (up : Bool) : Prop :=
  if up then fld s fThrLevel < 16 else (if isMaster s then throttleFloor s else 8) < fld s fThrLevel

theorem exec_throttleRequest {up : Bool} {x : HeatIn} (room : stepRoom s up) (free : throttleFree up s = true)
    (hn : s.cox.throttle = none) (hd : isMaster s = true → throttleDue up x s = true) :
    exec (.throttleRequest up x) s = .next (if inCourse s then
      iff (isMaster s) (fun y => { y with cox := { y.cox with raised := y.cox.raised ++
          [sizedReq s 4 0 (gOf s + 64 + x.ahead.toNat) 32] } })
        (setFlag fThrPending true { s with cox := { s.cox with throttle := some (up, gOf s + 64 + x.ahead.toNat) } })
      else throttleStep up s) := by
  refine whenever_true _ _ ?_
  have due : (!isMaster s || throttleDue up x s) = true := by
    cases hm : isMaster s
    · rfl
    · simp [hd hm]
  unfold stepRoom at room
  cases up <;> simp_all

/-- In a course the step waits for the sized Easy that it asks for (R93). -/
theorem throttleRequest_in_course {up : Bool} {x : HeatIn} (room : stepRoom s up) (hn : s.cox.throttle = none)
    (hd : isMaster s = true → throttleDue up x s = true) (hi : inCourse s = true) (ht : s.cox.mode ≠ .tethered) :
    Answers (.throttleRequest up x) s fun t =>
      t = { s with cox := { s.cox with throttle := some (up, gOf s + 64 + x.ahead.toNat), raised := t.cox.raised },
                   regs := t.regs } ∧
      (∀ a, a ≠ 0xB0054 → reg t a = reg s a) ∧ fld t fThrPending = 1 ∧ fld t fThrLevel = fld s fThrLevel ∧
      t.cox.raised = s.cox.raised ++ if isMaster s then [sizedReq s 4 0 (gOf s + 64 + x.ahead.toNat) 32] else [] := by
  have free : throttleFree up s = true := by simp [throttleFree, ht]
  let w : State := { s with cox := { s.cox with throttle := some (up, gOf s + 64 + x.ahead.toNat) } }
  have shown : (∀ a, a ≠ 0xB0054 → reg (setFlag fThrPending true w) a = reg s a) ∧
      fld (setFlag fThrPending true w) fThrPending = 1 ∧ fld (setFlag fThrPending true w) fThrLevel = fld s fThrLevel :=
    ⟨fun a ha => reg_setFlag_ne true w ha, fld_setFld _ _ w (by decide), fld_setFld_bits _ w (by decide)⟩
  refine .of_next (exec_throttleRequest room free hn hd) ?_
  rw [if_pos hi]
  cases isMaster s with
  | true => exact ⟨rfl, shown.1, shown.2.1, shown.2.2, rfl⟩
  | false => exact ⟨rfl, shown.1, shown.2.1, shown.2.2, (List.append_nil _).symm⟩

/-- Outside a course the step is taken at once. -/
theorem throttleRequest_at_rest {up : Bool} {x : HeatIn} (room : stepRoom s up) (hn : s.cox.throttle = none)
    (hd : isMaster s = true → throttleDue up x s = true) (hi : inCourse s = false)
    (ht : s.cox.mode ≠ .tethered ∨ up = true ∨ s.cox.st ≠ .wait) : Answers (.throttleRequest up x) s fun t =>
      fld t fThrLevel = (if up then fld s fThrLevel + 1 else fld s fThrLevel - 1) ∧
      OnlyLogged [] [0xB0054] { s with cox := { s.cox with lastStep := some (trcTime s) } } t := by
  have free : throttleFree up s = true := by
    unfold throttleFree
    rcases ht with h | h | h <;> simp [h, hi]
  let n := if up then fld s fThrLevel + 1 else fld s fThrLevel - 1
  have small : n < 32 := by
    have level : fld s fThrLevel < 32 := BitVec.isLt _
    unfold stepRoom at room
    simp only [n]
    cases up <;> simp at room ⊢ <;> omega
  let w : State := { s with cox := { s.cox with throttle := none, lastStep := some (trcTime s) } }
  let v := setFlag fThrPending false (setFld fThrLevel n w)
  have level : fld v fThrLevel = n :=
    (fld_setFld_bits _ _ (by decide)).trans ((fld_setFld _ n w (by decide)).trans (Nat.mod_eq_of_lt small))
  have logged : LogOnly w (logEvent evThrottleStep locNone n v) :=
    ((logOnly_setFld _ n w).trans (logOnly_setFld _ _ _)).trans (logOnly_logEvent _ _ _ v)
  have cox : ({ s.cox with throttle := none, lastStep := some (trcTime s) } : Cox) =
      { s.cox with lastStep := some (trcTime s) } := by rw [← hn]
  refine .of_next (exec_throttleRequest room free hn hd) ?_
  rw [if_neg (by simp [hi]), show throttleStep up s = logEvent evThrottleStep locNone n v from rfl]
  refine ⟨(fld_of_reg (reg_logEvent _ _ _ v (by decide))).trans level, ?_⟩
  rw [← cox]
  refine onlyLogged_of_logOnly logged (fun a h20 ha => ?_) fun a h1 h2 _ => ctr_logEvent _ _ _ v ⟨h1, h2⟩
  have ha : a ≠ 0xB0054 := by simpa using ha
  exact (reg_logEvent _ _ _ v h20).trans ((reg_setFlag_ne _ _ ha).trans (reg_setFld_ne _ _ ha))

theorem throttleRequest_not_due {up : Bool} {x : HeatIn} (hm : isMaster s = true) (hd : throttleDue up x s = false) :
    exec (.throttleRequest up x) s = .next s := whenever_false _ _ (by simp [hm, hd])

theorem exec_bufferDrift (n : DPort) (ahead : BitVec 10) (hi : inCourse s = true)
    (ha : (lnkPort s n.toNat).st = .active) : exec (.bufferDrift n ahead) s =
    if s.cox.mode == .tethered then
      .next (if (lnkPort s n.toNat).drift = 0 then setLnk n.toNat { lnkPort s n.toNat with drift := 32 } s
        else toTrain n.toNat lcSignal s)
    else whenever (bits (reg s (lnkA n.toNat + 0x80)) 30 2 == 1 && (lnkPort s n.toNat).drift == 0) s
      (setLnk n.toNat { lnkPort s n.toNat with drift := 32 } { s with cox := { s.cox with raised := s.cox.raised ++
        [{ sizedReq s 2 n.toNat (gOf s + 64 + ahead.toNat) 0 with
          kind := .tick (wall s + (gOf s + 64 + ahead.toNat - gOf s) + 32) }] } }) :=
  if_neg (by simp [hi, ha])

end

/-- Settles O21: a step, a stretch and a drift each ask for a sized Easy; at rest a step is taken, in TETHERED a drift
recentres or faults. -/
theorem sizedRequests : Obligations.SizedRequests := by
  unfold Obligations.SizedRequests
  refine ⟨fun s up x room hn hd => ⟨throttleRequest_in_course room hn hd, throttleRequest_at_rest room hn hd⟩,
    fun s up x => throttleRequest_not_due, ?_, ?_⟩
  · intro s hm hs ht hr p hp hl hq
    have here : gOf s + 64 - s.cox.lead.getD 0 = p := by rw [hl]; rfl
    refine (whenever_true _ _ ?_).trans ?_
    · simp only [here, hr, hm, hq, hp]
      simp [hs, ht]
    · simp only [here]
      rfl
  · intro s n ahead hi ha x p r drifts
    have wait : s.cox.st ≠ .wait := by
      intro h
      simp [inCourse, h] at hi
    rw [exec_bufferDrift n ahead hi ha]
    refine ⟨fun ht hf hd => ?_, fun ht hd => ?_, fun ht hd => ?_⟩
    · rw [if_neg (by simpa using ht)]
      exact whenever_true _ _ (by simp [hf, show (lnkPort s n.toNat).drift = 0 from hd])
    · rw [if_pos (by simp [ht]), if_pos hd]
    · refine .of_next ((exec_bufferDrift n ahead hi ha).trans ?_) (toTrain_goes n (cause := 9) (by decide) wait)
      rw [if_pos (by simp [ht]), if_neg hd]
      rfl

end Sys2Proof.Machine
end

section
/-! PROOFS. Bank memory as packets and the host reach it (R125, R176, R177, R179, R192): what a bank cycle leaves
unchanged, reads of sound codewords, writes of a run of codewords, and the services of a pavilion's local port. -/

namespace Sys2Proof.Machine

/-! A bank cycle (R176). -/

theorem takeFor_only (p b rank : Nat) (s : State) :
    ∃ g, takeFor p b rank s = { s with fab := { s.fab with grants := g } } := by
  unfold takeFor takeCycle iff
  split
  · exact ⟨_, rfl⟩
  · exact ⟨s.fab.grants, rfl⟩

/-- Packets delivered, the host's queues and bank cycles granted do not say what the schedule writes. -/
theorem schedWrites_outside (s : State) (p : Nat) (i : Sparse (List Packet)) (h : Hif) (g : List Nat) :
    schedWrites { s with net := { s.net with inbox := i }, hif := h, fab := { s.fab with grants := g } } p =
      schedWrites s p := rfl

theorem clashAt_congr {s t : State} {p : Nat} (h : schedWrites t p = schedWrites s p) (n i : Nat) :
    clashAt t p n i = clashAt s p n i := by rw [clashAt, clashAt, h]

theorem bankRefuses_congr {s t : State} (h : t.regs = s.regs) (p i : Nat) : bankRefuses t p i = bankRefuses s p i := by
  rw [bankRefuses, bankRefuses, bankState, bankState, fld, fld, reg, reg, h]

theorem bankRefuses_on {s : State} {p i : Nat} (hi : i < 65536) (h : bankState s p (i / 1024) = 0) :
    bankRefuses s p i = none := by
  simp [bankRefuses, h, Nat.not_le.mpr hi]

/-- A sound codeword is read with no other effect. -/
theorem bankRead_clean {s : State} {p i : Nat} (src : Nat) (h : (check72 (bankCw s (bankKey p i))).cls = .clean) :
    bankRead p i src s = (check72 (bankCw s (bankKey p i)), s) := by
  simp [bankRead, h]

/-- Sound codewords in banks that are on are read with no other effect. -/
theorem readCws_clean (p : Nat) {s : State} : ∀ (n i : Nat),
    (∀ j, j < n → bankRefuses s p (i + j) = none ∧ (check72 (bankCw s (bankKey p (i + j)))).cls = .clean) →
    readCws p n i s =
      ((List.range n).map fun j => BitVec.ofNat 64 (check72 (bankCw s (bankKey p (i + j)))).data, none, s)
  | 0, _, _ => rfl
  | n + 1, i, h => by
    obtain ⟨hr, hc⟩ := h 0 n.succ_pos
    have ih := readCws_clean p n (i + 1) fun j hj => by
      rw [Nat.add_right_comm, Nat.add_assoc]
      exact h (j + 1) (Nat.succ_lt_succ hj)
    simp only [Nat.add_zero] at hr hc
    simp [readCws, hr, bankRead_clean 3 hc, hc, ih, List.range_succ_eq_map, Function.comp_def, Nat.add_assoc,
      Nat.add_comm 1]

/-- Codewords are written from `i` up, each under new check bits, and no other codeword changes. -/
theorem writeCws_spec (p : Nat) : ∀ (ws : List (BitVec 64)) (i : Nat) (s : State),
    (∀ j, j < ws.length → bankRefuses s p (i + j) = none) →
    ∃ t, writeCws p ws i s = (ws.length, none, t) ∧
      (∀ k, bankCw t k = if bankKey p i ≤ k ∧ k < bankKey p i + ws.length
        then encode72 (ws.getD (k - bankKey p i) 0) else bankCw s k) ∧
      t = { s with bank := t.bank, fab := { s.fab with backs := t.fab.backs, bankPast := t.fab.bankPast } }
  | [], i, s, _ => ⟨s, rfl, fun k => by rw [if_neg (by simp)], rfl⟩
  | w :: ws, i, s, h => by
    obtain ⟨hw, hs⟩ := writeFree_spec (bankKey p i) w s
    have hregs : (writeFree (bankKey p i) w s).regs = s.regs := by rw [hs]
    obtain ⟨t, ht, hcw, hst⟩ := writeCws_spec p ws (i + 1) (writeFree (bankKey p i) w s) fun j hj => by
      rw [bankRefuses_congr hregs, Nat.add_right_comm, Nat.add_assoc]
      exact h (j + 1) (Nat.succ_lt_succ hj)
    refine ⟨t, ?_, fun k => ?_, ?_⟩
    · simp [writeCws, show bankRefuses s p i = none from h 0 (by simp), ht]
    · have hkey : bankKey p (i + 1) = bankKey p i + 1 := (Nat.add_assoc _ _ _).symm
      rw [hcw, hw, hkey, List.length_cons]
      by_cases hk : k = bankKey p i
      · subst hk
        simp
      · by_cases hin : bankKey p i + 1 ≤ k ∧ k < bankKey p i + 1 + ws.length
        · obtain ⟨m, hm⟩ := Nat.exists_eq_add_of_le hin.1
          rw [if_pos hin, if_pos (by omega), hm, show bankKey p i + 1 + m - (bankKey p i + 1) = m by omega,
            show bankKey p i + 1 + m - bankKey p i = m + 1 by omega, List.getD_cons_succ]
        · rw [if_neg hin, if_neg hk, if_neg (by omega)]
    · rw [hst, hs]

/-! The services of a local port (R125). -/

theorem serves_parts {s : State} {p : Pav} {vn op : Nat} {pk : Packet} (h : serves s p vn op pk = true) :
    nextPacket s p.toNat vn = some pk ∧ pkOpcode pk.head = op ∧ pk.bad = false := by
  simpa [serves, and_assoc] using h

theorem serve_of_serves {s : State} {p : Pav} {vn op : Nat} {pk : Packet} (h : serves s p vn op pk = true)
    (f : Packet → State → State) : serve p.toNat op vn f s = f pk (takeInbox p.toNat pk s) := by
  obtain ⟨hn, ho, hb⟩ := serves_parts h
  simp [serve, hn, ho, hb]

/-- The packet has left the inbox and a bank cycle may have been taken, and nothing else has changed. -/
theorem packetCycle_takeInbox (p : Nat) (pk : Packet) (s : State) :
    ∃ g, packetCycle p pk (takeInbox p pk s) = { s with
      net := { s.net with inbox := upd [] s.net.inbox p ((look [] s.net.inbox p).erase pk) },
      fab := { s.fab with grants := g } } := takeFor_only _ _ _ _

theorem reply_only (p op addr : Nat) (data : List (BitVec 64)) (h : BitVec 64) (s : State) : ∃ bufs waitQ owed,
    reply p op addr data h s = { s with net := { s.net with bufs := bufs, waitQ := waitQ, owed := owed } } :=
  queued_only _ _ _ s

theorem wrWaits_of_serves {s : State} {p : Pav} {pk : Packet} {w : BitVec 64} (same : Bool)
    (h : serves s p 1 2 pk = true) (hd : pk.data = [w]) :
    wrWaits s p.toNat same = hostWaits s p.toNat 1 (pkAddr pk.head) same := by
  obtain ⟨hn, ho, -⟩ := serves_parts h
  simp [wrWaits, hn, ho, hd]

theorem pkAddr_lt (h : BitVec 64) : pkAddr h < 65536 := (h.extractLsb' 7 16).isLt

/-- A single codeword clashes exactly where a scheduled write of the stroke targets it. -/
theorem clashAt_one_of_contains {s : State} {p i : Nat} (h : (schedWrites s p).contains i = true) :
    clashAt s p 1 i = some 0 := by
  simpa [clashAt] using h

theorem bankWrRequest_serves {s : State} {p : Pav} {pk : Packet} {same : Bool} (he : s.cox.st ≠ .easy)
    (h : serves s p 1 2 pk = true) (hw : wrWaits s p.toNat same = false) (hb : bankBusy s p.toNat = false) :
    exec (.bankWrRequest p same) s =
      .next (bankWrService p.toNat pk (packetCycle p.toNat pk (takeInbox p.toNat pk s))) := by
  have hserve := serve_of_serves h fun pk x => bankWrService p.toNat pk (packetCycle p.toNat pk x)
  rw [← hserve]
  exact whenever_true _ _ (by simp [he, hw, hb])

/-- What a scheduled write targets in a stroke is the same after the packet has been taken. -/
theorem clashAt_packetCycle (p q n i : Nat) (pk : Packet) (s : State) :
    clashAt (packetCycle p pk (takeInbox p pk s)) q n i = clashAt s q n i := by
  obtain ⟨g, hx⟩ := packetCycle_takeInbox p pk s
  rw [hx, clashAt_congr (schedWrites_outside s q _ s.hif g)]

/-- A write that nothing refuses and no scheduled write meets puts its data at the codeword it names. -/
theorem bankWrRequest_writes {s : State} {p : Pav} {pk : Packet} {w : BitVec 64} (same : Bool) (he : s.cox.st ≠ .easy)
    (h : serves s p 1 2 pk = true) (hd : pk.data = [w]) (hon : bankState s p.toNat (pkAddr pk.head / 1024) = 0)
    (hc : clashAt s p.toNat 1 (pkAddr pk.head) = none) (hb : bankBusy s p.toNat = false) :
    Answers (.bankWrRequest p same) s fun t =>
      (∀ k, bankCw t k = if k = bankKey p.toNat (pkAddr pk.head) then encode72 w else bankCw s k) ∧
      look [] t.net.inbox p.toNat = (look [] s.net.inbox p.toNat).erase pk ∧
      t.deep = s.deep ∧ t.slots = s.slots ∧ t.regs = s.regs := by
  have hwaits : wrWaits s p.toNat same = false := by
    rw [wrWaits_of_serves same h hd, hostWaits, hc]
    rfl
  have hcx := (clashAt_packetCycle p.toNat p.toNat 1 (pkAddr pk.head) pk s).trans hc
  refine .of_next (bankWrRequest_serves he h hwaits hb) ?_
  obtain ⟨g, hx⟩ := packetCycle_takeInbox p.toNat pk s
  generalize packetCycle p.toNat pk (takeInbox p.toNat pk s) = x at hx hcx ⊢
  have hrx : bankRefuses x p.toNat (pkAddr pk.head) = none := by
    rw [bankRefuses_congr (show x.regs = s.regs by rw [hx])]
    exact bankRefuses_on (pkAddr_lt _) hon
  have hservice : bankWrService p.toNat pk x =
      reply p.toNat 9 0 [] pk.head (writeFree (bankKey p.toNat (pkAddr pk.head)) w x) := by
    simp [bankWrService, hostWrite, hd, hcx, writeCws, hrx]
  obtain ⟨hcw, hst⟩ := writeFree_spec (bankKey p.toNat (pkAddr pk.head)) w x
  obtain ⟨bufs, waitQ, owed, hreply⟩ :=
    reply_only p.toNat 9 0 [] pk.head (writeFree (bankKey p.toNat (pkAddr pk.head)) w x)
  have hnet : (writeFree (bankKey p.toNat (pkAddr pk.head)) w x).net = x.net := by rw [hst]
  rw [hservice, hreply]
  refine ⟨fun k => (hcw k).trans (by rw [hx]; rfl), ?_, ?_, ?_, ?_⟩
  · show look [] (writeFree _ w x).net.inbox _ = _
    rw [hnet, hx, look_upd_same]
  · rw [hst, hx]
  · rw [hst, hx]
  · rw [hst, hx]

/-- A write that meets a scheduled write of its codeword waits, or on bank 0 is dropped in its favour (R177, R192). -/
theorem bankWrRequest_meets {s : State} {p : Pav} {pk : Packet} {w : BitVec 64} (same : Bool) (he : s.cox.st ≠ .easy)
    (h : serves s p 1 2 pk = true) (hd : pk.data = [w])
    (hc : (schedWrites s p.toNat).contains (pkAddr pk.head) = true) :
    exec (.bankWrRequest p same) s = .next (if same ∧ pkAddr pk.head < 1024 ∧ bankBusy s p.toNat = false
      then replyStatus p.toNat ccInternal pk.head (packetCycle p.toNat pk (takeInbox p.toNat pk s)) else s) := by
  have hclash := clashAt_one_of_contains hc
  have hwaits : wrWaits s p.toNat same = !(same && decide (pkAddr pk.head < 1024)) := by
    rw [wrWaits_of_serves same h hd, hostWaits, hclash]
    rfl
  split
  next hdrop =>
    obtain ⟨hsame, haddr, hb⟩ := hdrop
    rw [bankWrRequest_serves he h (by rw [hwaits, hsame, decide_eq_true haddr]; rfl) hb]
    have hcx := (clashAt_packetCycle p.toNat p.toNat 1 (pkAddr pk.head) pk s).trans hclash
    simp [bankWrService, hostWrite, hd, hcx, writeCws]
  next hwait =>
    refine whenever_false _ _ ?_
    rw [hwaits]
    by_contra hgo
    exact hwait (by simpa [he] using hgo)

/-- A read of one sound codeword answers with its data. -/
theorem bankRdRequest_reads {s : State} {p : Pav} {pk : Packet} (h : serves s p 1 1 pk = true)
    (hn : pkCount pk.head = 1) (hon : bankState s p.toNat (pkAddr pk.head / 1024) = 0) (hb : bankBusy s p.toNat = false)
    (hc : (check72 (bankCw s (bankKey p.toNat (pkAddr pk.head)))).cls = .clean) :
    exec (.bankRdRequest p) s = .next (reply p.toNat 8 0
      [BitVec.ofNat 64 (check72 (bankCw s (bankKey p.toNat (pkAddr pk.head)))).data] pk.head
        (packetCycle p.toNat pk (takeInbox p.toNat pk s))) := by
  have hserve := serve_of_serves h fun pk x => bankRdService p.toNat pk (packetCycle p.toNat pk x)
  have hexec := whenever_true (c := !bankBusy s p.toNat) s
    (serve p.toNat 1 1 (fun pk x => bankRdService p.toNat pk (packetCycle p.toNat pk x)) s) (by simp [hb])
  refine hexec.trans ?_
  rw [hserve]
  obtain ⟨g, hx⟩ := packetCycle_takeInbox p.toNat pk s
  generalize packetCycle p.toNat pk (takeInbox p.toNat pk s) = x at hx ⊢
  have hcw : ∀ k, bankCw x k = bankCw s k := fun k => by rw [hx]; rfl
  have hread := readCws_clean p.toNat (s := x) 1 (pkAddr pk.head) fun j hj => by
    obtain rfl : j = 0 := Nat.lt_one_iff.mp hj
    rw [bankRefuses_congr (show x.regs = s.regs by rw [hx]), hcw]
    exact ⟨bankRefuses_on (pkAddr_lt _) hon, hc⟩
  simp [bankRdService, hn, hread, hcw]

/-- Settles O12: the single codeword is written or read once the packet has been taken from the inbox with its bank
cycle; a clash with a scheduled write is the guard's wait, or the write of no codeword that ends `INTERNAL`. -/
theorem packetMemoryServices : Obligations.PacketMemoryServices := by
  unfold Obligations.PacketMemoryServices
  refine ⟨fun s p pk w same he h hd hon hc hb => bankWrRequest_writes same he h hd hon hc hb,
    fun s p pk w same he h hd hc => bankWrRequest_meets same he h hd hc, fun s p same hb => ⟨?_, ?_⟩,
    fun s p same he => whenever_false _ _ (by simp [he]),
    fun s p pk h hn hon hb hc => bankRdRequest_reads h hn hon hb hc⟩
  · exact whenever_false _ _ (by simp [hb])
  · exact whenever_false _ _ (by simp [hb])

end Sys2Proof.Machine
end

section
/-! PROOFS. Results of bank and deep reads (R174, R175, R185): data bits spread over two-bit values, delivery into the
sources of a pavilion, arrival in the return buffer, and a deep result that misses its stroke. -/

namespace Sys2Proof.Machine

/-! Data bits as two-bit values (R174). -/

/-- One step of `spread`: the next bit of the data enters above the values spread before. -/
def spreadStep (n : Nat) (acc : Nat × Nat) : Nat × Nat := (acc.1 / 4 + acc.2 % 2 * 4 ^ (n - 1), acc.2 / 2)

theorem spread_eq_foldl (n x : Nat) :
    spread n 0 x = ((List.range n).foldl (fun acc _ => spreadStep n acc) (0, x)).1 := by
  simp [spread, spreadStep]

/-- After `m` steps the lowest `m` bits of the data stand in the highest `m` values, one to a value. -/
theorem foldl_spreadStep (n x : Nat) : ∀ m, m ≤ n →
    ∃ a, (List.range m).foldl (fun acc _ => spreadStep n acc) (0, x) = (a, x / 2 ^ m) ∧ a < 4 ^ n ∧
      ∀ v, v < m → a / 4 ^ (n - m + v) % 4 = x / 2 ^ v % 2
  | 0, _ => ⟨0, by simp, by positivity, by simp⟩
  | m + 1, hm => by
    obtain ⟨a, ha, hlt, hbits⟩ := foldl_spreadStep n x m (Nat.le_of_succ_le hm)
    obtain ⟨k, rfl⟩ : ∃ k, n = k + 1 := ⟨n - 1, by omega⟩
    rw [List.range_succ, List.foldl_append, ha]
    have hq : a / 4 < 4 ^ k := by rw [pow_succ] at hlt; omega
    refine ⟨a / 4 + x / 2 ^ m % 2 * 4 ^ k, ?_, ?_, fun v hv => ?_⟩
    · simp [spreadStep, pow_succ, Nat.div_div_eq_div_mul]
    · have : x / 2 ^ m % 2 * 4 ^ k ≤ 1 * 4 ^ k := Nat.mul_le_mul_right _ (by omega)
      rw [pow_succ]
      omega
    · rw [show k + 1 - (m + 1) + v = k - m + v by omega]
      rcases Nat.lt_succ_iff_lt_or_eq.mp hv with hv | rfl
      · obtain ⟨e, he⟩ : ∃ e, k = k - m + v + (e + 1) := ⟨m - v - 1, by omega⟩
        have hsplit : x / 2 ^ m % 2 * 4 ^ k = 4 ^ (k - m + v) * (4 * (x / 2 ^ m % 2 * 4 ^ e)) := by
          conv_lhs => rw [he, pow_add, pow_succ]
          ring
        rw [hsplit, Nat.add_mul_div_left _ _ (by positivity), Nat.add_mul_mod_self_left, Nat.div_div_eq_div_mul,
          ← pow_succ', ← hbits v hv, show k + 1 - m + v = k - m + v + 1 by omega]
      · rw [show k - v + v = k by omega, Nat.add_mul_div_right _ _ (by positivity), Nat.div_eq_of_lt hq]
        omega

/-- Value `v` of a spread codeword is bit `v` of the data. -/
theorem spread_value {n v : Nat} (x : Nat) (hv : v < n) : spread n 0 x / 4 ^ v % 4 = x / 2 ^ v % 2 := by
  obtain ⟨a, ha, -, hbits⟩ := foldl_spreadStep n x n le_rfl
  have hval := hbits v hv
  rw [Nat.sub_self, Nat.zero_add] at hval
  rwa [spread_eq_foldl, ha]

/-- A two-bit value of a packed word. -/
theorem extract_value {w : Nat} (x v : Nat) (hv : 2 * v + 2 ≤ w) :
    (BitVec.ofNat w x).extractLsb' (2 * v) 2 = BitVec.ofNat 2 (x / 4 ^ v) := by
  apply BitVec.eq_of_toNat_eq
  obtain ⟨e, rfl⟩ := Nat.exists_eq_add_of_le hv
  rw [BitVec.extractLsb'_toNat, BitVec.toNat_ofNat, BitVec.toNat_ofNat, Nat.shiftRight_eq_div_pow,
    show (2 : Nat) ^ (2 * v + 2 + e) = 4 ^ v * (4 * 2 ^ e) by rw [pow_add, pow_add, pow_mul]; ring,
    show (2 : Nat) ^ (2 * v) = 4 ^ v from pow_mul 2 2 v, Nat.mod_mul_right_div_self, Nat.mod_mul_right_mod]

theorem dataBit_eq (x v : Nat) : dataBit x v = BitVec.ofNat 2 (x / 2 ^ v % 2) := by
  unfold dataBit
  rw [Nat.testBit_eq_decide_div_mod_eq]
  rcases Nat.mod_two_eq_zero_or_one (x / 2 ^ v) with h | h
  · rw [h]; rfl
  · rw [h]; rfl

/-- Value `v` of a source that takes a codeword of `n` one-bit values is bit `v` of the data. -/
theorem spread_dataBit {n v w : Nat} (x : Nat) (hv : v < n) (hw : 2 * n ≤ w) :
    (BitVec.ofNat w (spread n 0 x)).extractLsb' (2 * v) 2 = dataBit x v := by
  rw [extract_value _ _ (by omega), dataBit_eq, ← spread_value x hv]
  apply BitVec.eq_of_toNat_eq
  simp

/-! BANK_READ_DELIVER (R174, R175). -/

/-- The source of a port after a bank read in a one-value mode. -/
theorem deliverBank_one {s : State} {r : BankRead} {k : Nat} (hv : valsOf s = .one) (hi : r.inst = 1)
    (hm : r.merge = false) (hk : r.cw0 = some k) (hc : (check72 r.raw0).cls = .clean) :
    deliverBank r s = { s with fab := { s.fab with
      bankRds := s.fab.bankRds.erase r,
      bankSrc := ins s.fab.bankSrc (r.pav.toNat * 2 + r.port.toNat)
        (BitVec.ofNat 128 (spread 64 0 (check72 r.raw0).data)) } } := by
  have hinst : ∀ x : State, valsOf x = .one → bankInst r r.cw0 r.raw0 0 x = (spread 64 0 (check72 r.raw0).data, x) :=
    fun x hx => by simp [bankInst, hk, hc, hx, unpack]
  have hvs : valsOf { s with fab := { s.fab with bankRds := s.fab.bankRds.erase r } } = .one := hv
  simp [deliverBank, hi, hm, hinst _ hvs, mixSource, hv]

theorem bankReadDeliver_due {s : State} {p : Pav} {port : BitVec 1} {r : BankRead}
    (hrun : (running s && s.fab.retired.isEmpty) = true) (hd : dueBank s p.toNat port.toNat = some r) :
    exec (.bankReadDeliver p port) s = .next (deliverBank r s) := by
  show execBankReadDeliver p port s = _
  rw [execBankReadDeliver, hrun, hd]

theorem dueBank_names {s : State} {p port : Nat} {r : BankRead} (h : dueBank s p port = some r) :
    r.pav.toNat = p ∧ r.port.toNat = port := by
  have hr := List.find?_some h
  simp only [Bool.and_eq_true, beq_iff_eq] at hr
  exact hr.1

/-- A due bank read of a sound codeword sets its port's source and no other. -/
theorem bankReadDeliver_sets {s : State} {p : Pav} {port : BitVec 1} {r : BankRead} {k : Nat}
    (hrun : (running s && s.fab.retired.isEmpty) = true) (hv : valsOf s = .one)
    (hd : dueBank s p.toNat port.toNat = some r) (hi : r.inst = 1) (hm : r.merge = false) (hk : r.cw0 = some k)
    (hc : (check72 r.raw0).cls = .clean) :
    Answers (.bankReadDeliver p port) s fun t =>
      (∀ v, v < 64 → bankValue t p.toNat port.toNat v = dataBit (check72 r.raw0).data v) ∧
      t = { s with fab := { s.fab with bankRds := s.fab.bankRds.erase r, bankSrc := t.fab.bankSrc } } ∧
      ∀ q, q ≠ p.toNat * 2 + port.toNat → look (blank s 64) t.fab.bankSrc q = look (blank s 64) s.fab.bankSrc q := by
  refine .of_next (bankReadDeliver_due hrun hd) ?_
  obtain ⟨hp, hport⟩ := dueBank_names hd
  rw [deliverBank_one hv hi hm hk hc, hp, hport]
  refine ⟨fun v hv64 => ?_, rfl, fun q hq => ?_⟩
  · rw [bankValue, look_ins, if_pos rfl]
    exact spread_dataBit _ hv64 le_rfl
  · rw [look_ins, if_neg hq]

/-! DMEM_RESULT_ARRIVE (R86, R185). -/

theorem dmemResultArrive_found {s : State} {t4 : BitVec 4} {r : DeepRead} (g : BitVec 288)
    (h : (s.fab.deepRds.find? fun r => r.terr == t4 && r.stage != .arrived) = some r) :
    exec (.dmemResultArrive t4 g) s = .next (arriveDeep r g s) := by
  show execDmemResultArrive t4 g s = _
  rw [execDmemResultArrive, h]

/-- A sound result waits in the return buffer with its data. -/
theorem arriveDeep_sound {s : State} {r : DeepRead} {k : Nat} (hf : fleet s = false) (hs : r.stage = .issued)
    (hk : r.cw0 = some k) (hc : deepClass (checkDeep r.raw0) = .clean) :
    arriveDeep r 0 s = setDeepRead r (some { r with
      stage := .arrived, data := BitVec.ofNat 512 (unpack (valsOf s) 256 0 (deepData (checkDeep r.raw0))) }) s := by
  have hinst : deepInst r r.cw0 r.raw0 0 0 s = (unpack (valsOf s) 256 0 (deepData (checkDeep r.raw0)), s) := by
    simp [deepInst, hk, hc]
  simp only [arriveDeep, hs, hf, reduceCtorEq, if_false, ite_self, hinst, Bool.false_eq_true]

/-! DMEM_RESULT_DELIVER (R89, R174, R185). -/

theorem dmemResultDeliver_due {s : State} {t4 : BitVec 4} {r : DeepRead}
    (hrun : (running s && s.fab.retired.isEmpty) = true) (hd : dueDeep s t4 = some r) :
    exec (.dmemResultDeliver t4) s = .next (if r.stage = .arrived then deliverDeep r s else missDeep r s) := by
  show execDmemResultDeliver t4 s = _
  rw [execDmemResultDeliver, hrun, hd]

/-- A result that has arrived moves into the source of its pavilion, value for value. -/
theorem deliverDeep_sets {s : State} {r : DeepRead} (hv : valsOf s = .one) (hm : r.merge = false) :
    (∀ v, v < 256 → deepValue (deliverDeep r s) r.pav.toNat v = r.data.extractLsb' (2 * v) 2) ∧
    deliverDeep r s = { s with fab := { s.fab with
      deepRds := s.fab.deepRds.erase r, deepSrc := (deliverDeep r s).fab.deepSrc } } := by
  have hmix : BitVec.ofNat 512 (mixSource s 256 r.inst r.merge (look (blank s 256) s.fab.deepSrc r.pav.toNat).toNat
      r.data.toNat r.data.toNat) = r.data := by
    simp [mixSource, hv, hm]
  refine ⟨fun v _ => ?_, rfl⟩
  simp only [deliverDeep, hmix, deepValue, setDeepRead, look_ins, if_true]

/-- The deep read has missed its due stroke. -/
def markMissed (r : DeepRead) (s : State) : State := setDeepRead r (some { r with stage := .missed }) s

/-- What the log and the halt of a miss leave as it was (R89, R185). -/
structure MissKeeps (s t : State) : Prop where
  bank : t.bank = s.bank
  deep : t.deep = s.deep
  slots : t.slots = s.slots
  src : t.fab.deepSrc = s.fab.deepSrc
  late : ctr t 0xC0020 = ctr s 0xC0020

theorem missKeeps_logEvent (c l d : Nat) (s : State) : MissKeeps s (logEvent c l d s) :=
  ⟨logEvent_bank _ _ _ _, logEvent_deep _ _ _ _, logEvent_slots _ _ _ _, by rw [logEvent_fab],
    ctr_logEvent _ _ _ _ (by unfold plainCtr; decide)⟩

theorem missKeeps_oncePerCourse (kind unit c l d : Nat) (s : State) :
    MissKeeps s (oncePerCourse kind unit (logEvent c l d) s) := by
  unfold oncePerCourse
  split
  · exact ⟨rfl, rfl, rfl, rfl, rfl⟩
  · obtain ⟨hb, hd, hs, hsrc, hl⟩ := missKeeps_logEvent c l d
      { s with fab := { s.fab with marks := (kind, unit) :: s.fab.marks } }
    exact ⟨hb, hd, hs, hsrc, hl⟩

theorem missKeeps_raiseHalt (cause : Nat) (s : State) : MissKeeps s (raiseHalt cause s) := by
  obtain ⟨halts, out, e⟩ := raiseHalt_only cause s
  rw [e]
  exact ⟨rfl, rfl, rfl, rfl, rfl⟩

/-- Outside TETHERED a result that is not present halts the machine with cause EASY_MISS. -/
theorem missDeep_halts {s : State} (r : DeepRead) (hrun : running s = true) (ht : (s.cox.mode == .tethered) = false) :
    MissKeeps s (missDeep r s) ∧
      (missDeep r s).cox.halts.any (fun h => h.cause == 7 && h.raised == gOf s) = true := by
  let s1 := markMissed r s
  let s2 := logEvent evEasyMiss (locPav r.pav.toNat 0) r.terr.toNat s1
  have hmiss : missDeep r s = raiseHalt hcEasyMiss s2 := by simp [missDeep, ht, s2, s1, markMissed]
  have hst : s2.cox.st = .run := by simpa [running, s2, s1, markMissed, setDeepRead] using hrun
  have hraise : raiseAt s2 = gOf s := by
    rw [raiseAt, hst]
    simp [gOf, course, wideReg, s2, s1, markMissed, setDeepRead]
  have hmem := haltNow_mem_raiseHalt hcEasyMiss (s := s2) (by simp [inCourse, hst])
  obtain ⟨hb, hd, hs, hsrc, hl⟩ := missKeeps_raiseHalt hcEasyMiss s2
  obtain ⟨hb2, hd2, hs2, hsrc2, hl2⟩ := missKeeps_logEvent evEasyMiss (locPav r.pav.toNat 0) r.terr.toNat s1
  rw [hmiss]
  refine ⟨⟨hb.trans hb2, hd.trans hd2, hs.trans hs2, hsrc.trans hsrc2, hl.trans hl2⟩,
    List.any_eq_true.mpr ⟨_, hmem, ?_⟩⟩
  simp [haltNow, hraise, hcEasyMiss]

/-- In TETHERED a result that is not present reads as 0 and is counted. -/
theorem missDeep_tethered {s : State} (r : DeepRead) (ht : (s.cox.mode == .tethered) = true) :
    (missDeep r s).bank = s.bank ∧ (missDeep r s).deep = s.deep ∧ (missDeep r s).slots = s.slots ∧
      ctr (missDeep r s) 0xC0020 = min (2 ^ 48 - 1) (ctr s 0xC0020 + 1) ∧
      find (missDeep r s).fab.deepSrc r.pav.toNat = some 0 := by
  let s1 := markMissed r s
  let s2 := { s1 with fab := { s1.fab with deepSrc := ins s1.fab.deepSrc r.pav.toNat 0 } }
  let s3 := oncePerCourse 5 r.terr.toNat (logEvent evLate (locUnit r.terr.toNat 0) r.pav.toNat) (count 0xC0020 s2)
  have hmiss : missDeep r s = iff (flag s fDmemLateHalt) (raiseHalt hcOther) s3 := by
    simp [missDeep, ht, s3, s2, s1, markMissed]
  have last : MissKeeps s3 (missDeep r s) := by
    rw [hmiss]
    unfold iff
    split
    · exact missKeeps_raiseHalt _ _
    · exact ⟨rfl, rfl, rfl, rfl, rfl⟩
  obtain ⟨hb, hd, hs, hsrc, hl⟩ := last
  obtain ⟨hb3, hd3, hs3, hsrc3, hl3⟩ := missKeeps_oncePerCourse 5 r.terr.toNat evLate (locUnit r.terr.toNat 0)
    r.pav.toNat (count 0xC0020 s2)
  refine ⟨hb.trans (hb3.trans (count_bank _ _)), hd.trans (hd3.trans (count_deep _ _)),
    hs.trans (hs3.trans (count_slots _ _)), hl.trans (hl3.trans (ctr_count _ _ (by unfold plainCtr; decide))), ?_⟩
  rw [hsrc, hsrc3, count_fab, find_ins, if_pos rfl]

/-- Settles O7: a sound codeword is delivered with no other effect than on the source that it enters, where value `v`
is bit `v` of the data; a miss is the halt of R89, or the counted 0 of R185. -/
theorem memoryReads : Obligations.MemoryReads := by
  unfold Obligations.MemoryReads
  refine ⟨fun s p port r k hrun hv hd hi hm hk hc => bankReadDeliver_sets hrun hv hd hi hm hk hc,
    ⟨fun s t4 r k hf hfound hs hk hc => ?_, fun s t4 g r hfound hs => ?_, fun s t4 r hrun hv hd hs hm => ?_⟩,
    fun s t4 r hrun hd hs => ?_⟩
  · exact .of_next (dmemResultArrive_found 0 hfound) (arriveDeep_sound hf hs hk hc)
  · exact .of_next (dmemResultArrive_found g hfound) (if_pos hs)
  · refine .of_next (dmemResultDeliver_due hrun hd) ?_
    rw [if_pos hs]
    exact deliverDeep_sets hv hm
  · have hgo := dmemResultDeliver_due hrun hd
    rw [if_neg (by simp [hs])] at hgo
    refine .of_next hgo ?_
    cases ht : s.cox.mode == .tethered
    case false =>
      obtain ⟨keeps, halts⟩ := missDeep_halts r (Bool.and_eq_true_iff.mp hrun).1 ht
      exact ⟨keeps.bank, keeps.deep, keeps.slots, fun _ => halts, fun h => absurd h (by decide)⟩
    case true =>
      obtain ⟨hb, hdp, hsl, late, src⟩ := missDeep_tethered r ht
      exact ⟨hb, hdp, hsl, fun h => absurd h (by decide), fun _ => ⟨late, src⟩⟩

end Sys2Proof.Machine
end

section
/-! PROOFS. The fetch of a submission entry (R287, R290): the entry taken, its completion committed, and the peaks that a
fetch notes (R317, R344). -/

namespace Sys2Proof.Machine

/-! What a fetch notes by itself. -/

/-- At most the registers of `peakRegs` have changed. -/
structure PeaksNoted (s t : State) : Prop where
  only : t = { s with regs := t.regs }
  regs : RegsBut peakRegs s t

theorem PeaksNoted.refl (s : State) : PeaksNoted s s := ⟨rfl, fun _ _ => rfl⟩

theorem PeaksNoted.trans {s t u : State} (h : PeaksNoted s t) (k : PeaksNoted t u) : PeaksNoted s u := by
  refine ⟨?_, fun _ ha => (k.regs _ ha).trans (h.regs _ ha)⟩
  have hk := k.only
  rw [h.only] at hk
  exact hk

theorem peaksNoted_setFld {f : Fld} (v : Nat) (s : State) (h : f.a ∈ peakRegs) : PeaksNoted s (setFld f v s) :=
  ⟨rfl, fun _ ha => reg_setFld_ne v s fun e => ha (e ▸ h)⟩

theorem peaksNoted_notes (s : State) : PeaksNoted s (notePeaks (noteTags s)) := by
  have tags : PeaksNoted s (noteTags s) := peaksNoted_setFld _ s (by decide)
  refine tags.trans ?_
  unfold notePeaks
  refine List.foldlRecOn (motive := PeaksNoted (noteTags s)) (List.range 3) _ (peaksNoted_setFld _ _ (by decide))
    fun x hx k hk => hx.trans (peaksNoted_setFld _ x ?_)
  have hk3 := List.mem_range.mp hk
  interval_cases k
  · decide
  · decide
  · decide

/-! The entry taken (R287). -/

/-- The state of a channel whose next entry has been taken. -/
def taken (s : State) (c : Chan) : ChanSt := { chan s c.toNat with sqHead := headAfter s c, bpD := false }

theorem takeEntry_only (s : State) (c : Chan) : ∃ turns, takeEntry c.toNat s = { s with
    hif := { s.hif with chans := upd ChanSt.off s.hif.chans c.toNat (taken s c), turns := turns } } := ⟨_, rfl⟩

theorem chan_setChan (s : State) (c : Nat) (x : ChanSt) (k : Nat) :
    chan (setChan c x s) k = if k = c then x else chan s k := look_upd _ _ _ _ _

theorem chan_takeEntry (s : State) (c : Chan) (k : Nat) :
    chan (takeEntry c.toNat s) k = if k = c.toNat then taken s c else chan s k := by
  obtain ⟨turns, e⟩ := takeEntry_only s c
  rw [e]
  exact look_upd _ _ _ _ _

theorem chan_congr {s t : State} (h : t.hif = s.hif) (k : Nat) : chan t k = chan s k := by rw [chan, chan, h]

/-- The parts of `fetches` (R287, R290, R295). -/
theorem fetches_parts {s : State} {c : Chan} {op : Nat} {f : FetchIn} (h : fetches s c op f = true) :
    canServe s c.toNat = true ∧ f.bus = 0 ∧ entryIs op f.entry = true ∧
      (classOf s c.toNat = 3 ∨ dataStopped s = false) ∧ entryFault s c.toNat f.entry = none := by
  simpa [fetches, and_assoc] using h

/-- A MANAGEMENT channel, or any while the data plane runs, is not answered `NOT_RUNNING` (R295). -/
theorem not_dataStopped {s : State} {c : Nat} (h : classOf s c = 3 ∨ dataStopped s = false) :
    ¬(classOf s c ≠ 3 ∧ dataStopped s = true) := by
  rcases h with h | h
  · simp [h]
  · simp [h]

/-- A sound entry is taken and performed, and the peaks are noted. -/
theorem fetchEntry_performs {s : State} {c : Chan} {op : Nat} {f : FetchIn} (h : fetches s c op f = true)
    (act : State → State) :
    fetchEntry c.toNat op f act s = notePeaks (noteTags (act (takeEntry c.toNat s))) := by
  obtain ⟨-, hbus, hop, hdata, hfault⟩ := fetches_parts h
  rw [fetchEntry, if_neg (by rw [hbus]; decide), if_neg (by simp [hop])]
  simp only [if_neg (not_dataStopped hdata), hfault]

theorem fetchesMem_parts {s : State} {c : Chan} {op : Nat} {f : FetchIn} (h : fetchesMem s c op f = true) :
    fetches s c op f = true ∧ (writingBase s && classOf s c.toNat == 3) = false := by
  rw [fetchesMem, Bool.and_eq_true, Bool.not_eq_true'] at h
  exact h

/-- A sound memory operation is taken and performed. -/
theorem fetchEntry_memory {s : State} {c : Chan} {op : Nat} {f : FetchIn} (h : fetchesMem s c op f = true)
    (act : State → State) :
    fetchEntry c.toNat op f (memStart c.toNat f act) s = notePeaks (noteTags (act (takeEntry c.toNat s))) := by
  obtain ⟨hf, hbase⟩ := fetchesMem_parts h
  obtain ⟨-, hbus, -, -, -⟩ := fetches_parts hf
  rw [fetchEntry_performs hf]
  obtain ⟨turns, e⟩ := takeEntry_only s c
  have hx : (writingBase (takeEntry c.toNat s) && classOf (takeEntry c.toNat s) c.toNat == 3) = false := by
    rw [e]
    exact hbase
  rw [memStart, hx, if_neg (by decide), if_neg (by rw [hbus]; decide)]

/-! Completions of the entry. -/

/-- A channel that is served is ACTIVE. -/
theorem active_of_canServe {s : State} {c : Nat} (h : canServe s c = true) : (chan s c).st = .active := by
  simp only [canServe, mayFetch, Bool.and_eq_true, beq_iff_eq, and_assoc] at h
  exact h.2.1

/-- The channel of a taken entry with a completion that waits last. -/
def withCompletion (s : State) (c : Chan) (e : Completion) (y : State) : State :=
  setChan c.toNat { taken s c with held := (chan s c.toNat).held ++ [e] } y

/-- A state after its entry has been taken holds the channels as the taking left them. -/
theorem entryTaken_withCompletion {s y : State} {c : Chan} (e : Completion) (hy : y.hif = (takeEntry c.toNat s).hif) :
    EntryTaken s (withCompletion s c e y) c (some e) := by
  refine ⟨by rw [withCompletion, chan_setChan, if_pos rfl]; rfl, fun k hk => ?_⟩
  rw [withCompletion, chan_setChan, if_neg hk, chan_congr hy, chan_takeEntry, if_neg hk]

section
variable {s y : State} {c : Chan} {f : FetchIn} (hs : canServe s c.toNat = true)
  (hy : y.hif = (takeEntry c.toNat s).hif) (code detail hostBytes devWords : Nat)

include hs hy in
/-- The completion of a taken entry, before its status is counted. -/
theorem complete_taken (e : Completion) : complete c.toNat e y =
    (statusCounter e.status.toNat).elim (withCompletion s c e y) fun a => count a (withCompletion s c e y) := by
  have hchan : chan y c.toNat = taken s c := by rw [chan_congr hy, chan_takeEntry, if_pos rfl]
  have hst : (taken s c).st = .active := active_of_canServe hs
  unfold complete
  simp only [hchan]
  rw [if_neg (by rw [hst]; decide)]
  cases statusCounter e.status.toNat with
  | none => rfl
  | some a => rfl

include hs hy in
theorem endEntry_taken : endEntry c.toNat f code detail hostBytes devWords y =
    (statusCounter (BitVec.ofNat 8 code).toNat).elim
      (withCompletion s c (entryEnd s c f code detail hostBytes devWords) y)
      fun a => count a (withCompletion s c (entryEnd s c f code detail hostBytes devWords) y) := by
  have hhead : (chan y c.toNat).sqHead = headAfter s c := by rw [chan_congr hy, chan_takeEntry, if_pos rfl]; rfl
  unfold endEntry
  rw [hhead]
  exact complete_taken hs hy (entryEnd s c f code detail hostBytes devWords)
end

/-- What a fetch leaves that takes its entry and makes `y` of the rest of the state: the entry's completion `e`, where it
is one, waits last, and beside the channels and the peaks nothing differs from `y`. -/
structure Fetched (s y t : State) (c : Chan) (e : Option Completion) : Prop where
  taken : EntryTaken s t c e
  only : t = { y with hif := t.hif, regs := t.regs }
  regs : RegsBut peakRegs y t

theorem entryTaken_congr {s t u : State} {c : Chan} {e : Option Completion} (h : EntryTaken s t c e) (hu : u.hif = t.hif) :
    EntryTaken s u c e := by
  obtain ⟨h1, h2⟩ := h
  exact ⟨(chan_congr hu _).trans h1, fun k hk => (chan_congr hu _).trans (h2 k hk)⟩

/-- An entry that ends with a status that no counter counts. -/
theorem fetched_endEntry {s y : State} {c : Chan} {f : FetchIn} {code : Nat} (hs : canServe s c.toNat = true)
    (hy : y.hif = (takeEntry c.toNat s).hif) (hcode : statusCounter (BitVec.ofNat 8 code).toNat = none)
    (detail hostBytes devWords : Nat) :
    Fetched s y (notePeaks (noteTags (endEntry c.toNat f code detail hostBytes devWords y))) c
      (some (entryEnd s c f code detail hostBytes devWords)) := by
  rw [endEntry_taken hs hy, hcode]
  obtain ⟨only, regs⟩ := peaksNoted_notes (withCompletion s c (entryEnd s c f code detail hostBytes devWords) y)
  refine ⟨entryTaken_congr (entryTaken_withCompletion _ hy) ?_, ?_, regs⟩
  · rw [Option.elim_none, only]
  · rw [Option.elim_none, only]
    rfl

theorem statusCounter_done : statusCounter (BitVec.ofNat 8 ccDone).toNat = none := by decide
theorem statusCounter_internal : statusCounter (BitVec.ofNat 8 ccInternal).toNat = none := by decide
theorem statusCounter_written (narrow : Bool) :
    statusCounter (BitVec.ofNat 8 (if narrow then ccNarrowWrite else ccDone)).toNat = none := by
  cases narrow
  · exact statusCounter_done
  · decide

end Sys2Proof.Machine
end

section
/-! PROOFS. Submission entries for bank memory (R176, R177, R192, R289, R290): reads, writes, writes held during Easy, and
writes that meet a scheduled write. -/

namespace Sys2Proof.Machine

theorem Fetched.regsBut {s y t : State} {c : Chan} {e : Option Completion} (h : Fetched s y t c e)
    (hr : y.regs = s.regs) : RegsBut peakRegs s t := fun a ha => (h.regs a ha).trans (by rw [reg, reg, hr])

/-- The host buffer's words that a write takes (R289). -/
theorem length_hostWords (n : Nat) (data : List (BitVec 64)) : (hostWords n data).length = n := by simp [hostWords]

theorem getD_hostWords {n i : Nat} (data : List (BitVec 64)) (h : i < n) : (hostWords n data).getD i 0 = data.getD i 0 := by
  simp [hostWords, h]

/-- A sound read brings at least one codeword (R288). -/
theorem read_length {s : State} {c : Nat} {e : BitVec 512} (h : entryFault s c e = none) (ho : enOp e = 2 ∨ enOp e = 4) :
    enWord e ≤ enLen e := by
  have hl : lengthBad e = false := by
    by_contra hb
    rw [Bool.not_eq_false] at hb
    unfold entryFault at h
    rw [hb] at h
    split at h
    · cases h
    · split at h
      · cases h
      · split at h
        · cases h
        · cases h
  rcases ho with ho | ho
  · simp [lengthBad, enMem, enNarrow, enWrites, enWord, ho] at hl ⊢
    omega
  · simp [lengthBad, enMem, enNarrow, enWrites, enWord, ho] at hl ⊢
    omega

/-! Reaching a pavilion that is on (R302). -/

theorem reachDie_on {s : State} {d : Nat} (ready : Bool) (h : dieIsOn s d = true) : reachDie d ready s = (none, s) := by
  rw [reachDie, if_pos h]

section
variable {s : State} {c : Chan} {f : FetchIn} (hp : portState s (enUnit f.entry) ≠ .dead)
  (hr : routeReconf s (enUnit f.entry) = false) (hd : dieIsOn s (dieOf (enUnit f.entry)) = true)

include hp hr hd in
theorem reachPav_taken : reachPav (enUnit f.entry) f.ready (takeEntry c.toNat s) = (none, takeEntry c.toNat s) := by
  obtain ⟨turns, e⟩ := takeEntry_only s c
  have hp' : (portState (takeEntry c.toNat s) (enUnit f.entry) == .dead) = false := by
    rw [e]
    exact beq_false_of_ne hp
  have hr' : routeReconf (takeEntry c.toNat s) (enUnit f.entry) = false := by
    rw [e]
    exact hr
  have hd' : dieIsOn (takeEntry c.toNat s) (dieOf (enUnit f.entry)) = true := by
    rw [e]
    exact hd
  simp [reachPav, hp', hr', reachDie_on f.ready hd']

/-- The entry has been taken with a cycle of its first bank (R176). -/
def bankAccess (s : State) (c : Chan) (f : FetchIn) : State :=
  takeFor (enUnit f.entry) (enDev f.entry / 1024) 3 (takeEntry c.toNat s)

theorem bankAccess_only (s : State) (c : Chan) (f : FetchIn) : ∃ g, bankAccess s c f = { s with
    hif := (takeEntry c.toNat s).hif, fab := { s.fab with grants := g } } := by
  obtain ⟨turns, e⟩ := takeEntry_only s c
  obtain ⟨g, hg⟩ := takeFor_only (enUnit f.entry) (enDev f.entry / 1024) 3 (takeEntry c.toNat s)
  refine ⟨g, hg.trans ?_⟩
  rw [e]

theorem bankAccess_regs : (bankAccess s c f).regs = s.regs := by
  obtain ⟨g, e⟩ := bankAccess_only s c f
  rw [e]

theorem bankAccess_hif : (bankAccess s c f).hif = (takeEntry c.toNat s).hif := by
  obtain ⟨g, e⟩ := bankAccess_only s c f
  rw [e]

theorem bankCw_bankAccess (k : Nat) : bankCw (bankAccess s c f) k = bankCw s k := by
  obtain ⟨g, e⟩ := bankAccess_only s c f
  rw [e]
  rfl

theorem clashAt_bankAccess (p n i : Nat) : clashAt (bankAccess s c f) p n i = clashAt s p n i := by
  obtain ⟨g, e⟩ := bankAccess_only s c f
  rw [e, clashAt_congr (schedWrites_outside s p s.net.inbox _ g)]

end

/-! BANK_RD. -/

theorem fetches_op {s : State} {c : Chan} {op : Nat} {f : FetchIn} (h : fetches s c op f = true) (hop : op ≠ 0) :
    enOp f.entry = op := by
  obtain ⟨-, -, ho, -, -⟩ := fetches_parts h
  simpa [entryIs, hop] using ho

theorem bankRd_reads {s : State} {c : Chan} {f : FetchIn} (h : fetchesMem s c 2 f = true)
    (hp : portState s (enUnit f.entry) ≠ .dead) (hr : routeReconf s (enUnit f.entry) = false)
    (hd : dieIsOn s (dieOf (enUnit f.entry)) = true) (hb : entryBusy s c.toNat f = false)
    (hcw : ∀ j, j < enLen f.entry / 8 → bankRefuses s (enUnit f.entry) (enDev f.entry + j) = none ∧
      (check72 (bankCw s (bankKey (enUnit f.entry) (enDev f.entry + j)))).cls = .clean) :
    Answers (.bankRd c f) s fun t =>
      t.out = s.out ++ [.hostWrite (enHost f.entry) ((List.range (enLen f.entry / 8)).map fun j =>
        BitVec.ofNat 64 (check72 (bankCw s (bankKey (enUnit f.entry) (enDev f.entry + j)))).data)] ∧
      EntryTaken s t c (some (entryEnd s c f ccDone 0 (8 * (enLen f.entry / 8)) 0)) ∧ RegsBut peakRegs s t ∧
      t = { s with hif := t.hif, regs := t.regs, out := t.out, fab := { s.fab with grants := t.fab.grants } } := by
  obtain ⟨hf, -⟩ := fetchesMem_parts h
  obtain ⟨hs, -, -, -, hfault⟩ := fetches_parts hf
  let ws := (List.range (enLen f.entry / 8)).map fun j =>
    BitVec.ofNat 64 (check72 (bankCw s (bankKey (enUnit f.entry) (enDev f.entry + j)))).data
  let y := emit (.hostWrite (enHost f.entry) ws) (bankAccess s c f)
  have hn : 1 ≤ enLen f.entry / 8 := by
    have hw := read_length hfault (.inl (fetches_op hf (by decide)))
    rw [enWord, if_pos (.inl (fetches_op hf (by decide)))] at hw
    omega
  have hread : readCws (enUnit f.entry) (enLen f.entry / 8) (enDev f.entry) (bankAccess s c f) =
      (ws, none, bankAccess s c f) := by
    simp only [ws, ← bankCw_bankAccess (s := s) (c := c) (f := f)]
    refine readCws_clean _ _ _ fun j hj => ?_
    rw [bankRefuses_congr bankAccess_regs, bankCw_bankAccess]
    exact hcw j hj
  have hact : bankRdEntry c.toNat f (takeEntry c.toNat s) =
      endEntry c.toNat f ccDone 0 (8 * (enLen f.entry / 8)) 0 y := by
    have hlen : ws.length = enLen f.entry / 8 := by simp [ws]
    have hne : ws.isEmpty = false := by
      rw [← Bool.not_eq_true, List.isEmpty_iff_length_eq_zero, hlen]
      omega
    unfold bankRdEntry
    simp only [reachPav_taken hp hr hd]
    rw [← bankAccess, hread]
    simp only [readEnds, hne, hlen]
    rfl
  have hdone := fetched_endEntry (f := f) (y := y) hs bankAccess_hif statusCounter_done 0 (8 * (enLen f.entry / 8)) 0
  obtain ⟨g, e⟩ := bankAccess_only s c f
  have hy : y = { s with
      hif := (takeEntry c.toNat s).hif, out := s.out ++ [.hostWrite (enHost f.entry) ws],
      fab := { s.fab with grants := g } } := by
    show emit _ (bankAccess s c f) = _
    rw [e]
    rfl
  refine .of_next ((whenever_true _ _ (by rw [hs, hb]; rfl)).trans (by rw [fetchEntry_memory h, hact]))
    ⟨?_, hdone.taken, hdone.regsBut bankAccess_regs, ?_⟩
  · rw [hdone.only, hy]
  · rw [hdone.only, hy]

/-! BANK_WR. -/

theorem writeEnds_done (c : Nat) (f : FetchIn) (n : Nat) (s : State) : writeEnds c f n none s =
    endEntry c f (if enNarrow f.entry then ccNarrowWrite else ccDone) 0 0 n s := rfl

/-- A write held during Easy (R86). -/
def heldWrite (s : State) (c : Chan) (f : FetchIn) (data : List (BitVec 64)) : HeldWrite :=
  { chan := BitVec.ofNat 13 c.toNat, pav := BitVec.ofNat 7 (enUnit f.entry), index := enDev f.entry,
    words := hostWords (enLen f.entry / 8) data, narrow := enNarrow f.entry,
    done := entryOf (enTag f.entry) ccDone 0 (headAfter s c) f.waitUs (enIrq f.entry) }

section
variable {s : State} {c : Chan} {f : FetchIn} (data : List (BitVec 64)) {same : Bool} (h : fetchesMem s c 3 f = true)
  (hp : portState s (enUnit f.entry) ≠ .dead) (hr : routeReconf s (enUnit f.entry) = false)
  (hd : dieIsOn s (dieOf (enUnit f.entry)) = true)

include h in
/-- A BANK_WR that waits for nothing is taken and performed. -/
theorem bankWr_performs (hw : entryWaits s c.toNat f same = false)
    (hb : (s.cox.st == .easy || !entryBusy s c.toNat f) = true) : exec (.bankWr c f data same) s =
      .next (notePeaks (noteTags (bankWrEntry c.toNat f data (takeEntry c.toNat s)))) := by
  obtain ⟨hs, -⟩ := fetches_parts (fetchesMem_parts h).1
  refine (whenever_true _ _ (by rw [hs, hw, hb]; rfl)).trans ?_
  rw [fetchEntry_memory h]

include hp hr hd in
/-- Outside Easy the words of a BANK_WR go to the codewords it names. -/
theorem bankWrEntry_taken (he : s.cox.st ≠ .easy) {n : Nat} {code : Option Nat} {t : State}
    (hwrite : hostWrite (enUnit f.entry) (hostWords (enLen f.entry / 8) data) (enDev f.entry) (bankAccess s c f) =
      (n, code, t)) : bankWrEntry c.toNat f data (takeEntry c.toNat s) = writeEnds c.toNat f n code t := by
  have he' : ((takeEntry c.toNat s).cox.st == .easy) = false := beq_false_of_ne he
  unfold bankWrEntry
  simp only [reachPav_taken hp hr hd, he', Bool.false_eq_true, if_false]
  rw [← bankAccess, hwrite]

include h hp hr hd in
/-- In Easy a BANK_WR is taken and held (R86). -/
theorem bankWr_held (he : s.cox.st = .easy) : Answers (.bankWr c f data same) s fun t =>
    EntryTaken s t c none ∧ RegsBut peakRegs s t ∧ t = { s with hif := t.hif, regs := t.regs } ∧
      ∃ w, t.hif.parked = s.hif.parked ++ [w] ∧ w.pav.toNat = enUnit f.entry % 128 ∧ w.index = enDev f.entry ∧
        w.words = hostWords (enLen f.entry / 8) data := by
  obtain ⟨turns, ex⟩ := takeEntry_only s c
  let y : State := { takeEntry c.toNat s with
    hif := { (takeEntry c.toNat s).hif with parked := s.hif.parked ++ [heldWrite s c f data] } }
  have hact : bankWrEntry c.toNat f data (takeEntry c.toNat s) = y := by
    have hhead : (chan (takeEntry c.toNat s) c.toNat).sqHead = headAfter s c := by rw [chan_takeEntry, if_pos rfl]; rfl
    have he' : ((takeEntry c.toNat s).cox.st == .easy) = true := beq_iff_eq.mpr he
    have hparked : (takeEntry c.toNat s).hif.parked = s.hif.parked := by rw [ex]
    unfold bankWrEntry
    simp only [reachPav_taken hp hr hd, he', if_true, hhead, hparked]
    rfl
  have hgo := bankWr_performs data (same := same) h (by simp [entryWaits, he]) (by simp [he])
  rw [hact] at hgo
  obtain ⟨only, regs⟩ := peaksNoted_notes y
  refine .of_next hgo ⟨⟨?_, fun k hk => ?_⟩, ?_, ?_, heldWrite s c f data, ?_, ?_, rfl, rfl⟩
  · rw [only, Option.toList_none, List.append_nil]
    exact (chan_takeEntry s c c.toNat).trans (if_pos rfl)
  · rw [only]
    exact (chan_takeEntry s c k).trans (if_neg hk)
  · exact fun a ha => (regs a ha).trans (by rw [reg, reg]; rfl)
  · rw [only]
    show { y with regs := _ } = _
    simp only [y, ex]
  · rw [only]
  · exact BitVec.toNat_ofNat _ _

/-- The first `m` codewords of a write hold the host's words, and beside the channels and the write's own traces in the
fabric nothing else differs. -/
theorem writeCws_bankAccess (s : State) (c : Chan) (f : FetchIn) {m : Nat} (hm : m ≤ enLen f.entry / 8)
    (hcw : ∀ j, j < m → bankRefuses s (enUnit f.entry) (enDev f.entry + j) = none) : ∃ t,
    writeCws (enUnit f.entry) ((hostWords (enLen f.entry / 8) data).take m) (enDev f.entry) (bankAccess s c f) =
      (m, none, t) ∧
    (∀ k, bankCw t k = if bankKey (enUnit f.entry) (enDev f.entry) ≤ k ∧
        k < bankKey (enUnit f.entry) (enDev f.entry) + m
      then encode72 (data.getD (k - bankKey (enUnit f.entry) (enDev f.entry)) 0) else bankCw s k) ∧
    t = { s with hif := (takeEntry c.toNat s).hif, bank := t.bank, fab := { s.fab with
      backs := t.fab.backs, bankPast := t.fab.bankPast, grants := t.fab.grants } } := by
  have hlen : ((hostWords (enLen f.entry / 8) data).take m).length = m := by
    rw [List.length_take, length_hostWords, min_eq_left hm]
  obtain ⟨t, ht, hkeys, hst⟩ := writeCws_spec (enUnit f.entry) ((hostWords (enLen f.entry / 8) data).take m)
    (enDev f.entry) (bankAccess s c f) fun j hj => by
      rw [bankRefuses_congr bankAccess_regs]
      exact hcw j (hlen ▸ hj)
  rw [hlen] at ht hkeys
  refine ⟨t, ht, fun k => ?_, ?_⟩
  · rw [hkeys k, bankCw_bankAccess]
    by_cases hk : bankKey (enUnit f.entry) (enDev f.entry) ≤ k ∧ k < bankKey (enUnit f.entry) (enDev f.entry) + m
    · rw [if_pos hk, if_pos hk]
      congr 1
      rw [List.getD_eq_getElem?_getD, List.getElem?_take_of_lt (by omega), ← List.getD_eq_getElem?_getD,
        getD_hostWords _ (by omega)]
    · rw [if_neg hk, if_neg hk]
  · obtain ⟨g, e⟩ := bankAccess_only s c f
    rw [hst, e]

include h hp hr hd in
/-- A BANK_WR that no scheduled write meets puts the host's words into the codewords it names. -/
theorem bankWr_writes (he : s.cox.st ≠ .easy)
    (hcw : ∀ j, j < enLen f.entry / 8 → bankRefuses s (enUnit f.entry) (enDev f.entry + j) = none)
    (hc : clashAt s (enUnit f.entry) (enLen f.entry / 8) (enDev f.entry) = none) (hb : entryBusy s c.toNat f = false) :
    Answers (.bankWr c f data same) s fun t =>
      (∀ k, bankCw t k = if bankKey (enUnit f.entry) (enDev f.entry) ≤ k ∧
          k < bankKey (enUnit f.entry) (enDev f.entry) + enLen f.entry / 8
        then encode72 (data.getD (k - bankKey (enUnit f.entry) (enDev f.entry)) 0) else bankCw s k) ∧
      EntryTaken s t c
        (some (entryEnd s c f (if enNarrow f.entry then ccNarrowWrite else ccDone) 0 0 (enLen f.entry / 8))) ∧
      RegsBut peakRegs s t ∧ t = { s with hif := t.hif, regs := t.regs, bank := t.bank, fab := { s.fab with
        backs := t.fab.backs, bankPast := t.fab.bankPast, grants := t.fab.grants } } := by
  obtain ⟨hs, -⟩ := fetches_parts (fetchesMem_parts h).1
  obtain ⟨t, ht, hkeys, hst⟩ := writeCws_bankAccess data s c f le_rfl hcw
  rw [List.take_of_length_le (length_hostWords _ _).le] at ht
  have hwrite : hostWrite (enUnit f.entry) (hostWords (enLen f.entry / 8) data) (enDev f.entry) (bankAccess s c f) =
      (enLen f.entry / 8, none, t) := by
    rw [hostWrite, length_hostWords, clashAt_bankAccess, hc]
    exact ht
  have hgo := bankWr_performs data (same := same) h (by simp [entryWaits, hostWaits, hc]) (by simp [hb])
  rw [bankWrEntry_taken data hp hr hd he hwrite, writeEnds_done] at hgo
  have hdone := fetched_endEntry (f := f) (y := t) hs (by rw [hst]) (statusCounter_written (enNarrow f.entry)) 0 0
    (enLen f.entry / 8)
  refine .of_next hgo ⟨fun k => ?_, hdone.taken, hdone.regsBut (by rw [hst]), ?_⟩
  · rw [← hkeys k]
    exact congrArg (fun x => look 0 x.bank k) hdone.only
  · rw [hdone.only, hst]

include h hp hr hd in
/-- A BANK_WR that meets a scheduled write on bank 0, in the cycle that the second port took, stops there (R177). -/
theorem bankWr_dropped (he : s.cox.st ≠ .easy) {j : Nat}
    (hcw : ∀ i, i < enLen f.entry / 8 → bankRefuses s (enUnit f.entry) (enDev f.entry + i) = none)
    (hc : clashAt s (enUnit f.entry) (enLen f.entry / 8) (enDev f.entry) = some j) (hsame : same = true)
    (hj : enDev f.entry + j < 1024) (hb : entryBusy s c.toNat f = false) :
    Answers (.bankWr c f data same) s fun t =>
      (∀ k, bankCw t k = if bankKey (enUnit f.entry) (enDev f.entry) ≤ k ∧
          k < bankKey (enUnit f.entry) (enDev f.entry) + j
        then encode72 (data.getD (k - bankKey (enUnit f.entry) (enDev f.entry)) 0) else bankCw s k) ∧
      EntryTaken s t c (some (entryEnd s c f ccInternal 4 0 j)) := by
  obtain ⟨hs, -⟩ := fetches_parts (fetchesMem_parts h).1
  have hjn : j < enLen f.entry / 8 := List.mem_range.mp (List.mem_of_find?_eq_some hc)
  obtain ⟨t, ht, hkeys, hst⟩ := writeCws_bankAccess data s c f hjn.le fun i hi => hcw i (hi.trans hjn)
  have hwrite : hostWrite (enUnit f.entry) (hostWords (enLen f.entry / 8) data) (enDev f.entry) (bankAccess s c f) =
      (j, some ccInternal, t) := by
    rw [hostWrite, length_hostWords, clashAt_bankAccess, hc]
    simp only [ht]
    rfl
  have hgo := bankWr_performs data (same := same) h (by simp [entryWaits, hostWaits, hc, hsame, hj]) (by simp [hb])
  rw [bankWrEntry_taken data hp hr hd he hwrite] at hgo
  have hdone := fetched_endEntry (f := f) (y := t) hs (by rw [hst]) statusCounter_internal 4 0 j
  refine .of_next hgo ⟨fun k => ?_, hdone.taken⟩
  rw [← hkeys k]
  exact congrArg (fun x => look 0 x.bank k) hdone.only

include h in
/-- Elsewhere a BANK_WR that meets a scheduled write waits (R192). -/
theorem bankWr_waits (he : s.cox.st ≠ .easy) {j : Nat}
    (hc : clashAt s (enUnit f.entry) (enLen f.entry / 8) (enDev f.entry) = some j)
    (hw : same = false ∨ 1024 ≤ enDev f.entry + j) : exec (.bankWr c f data same) s = .next s := by
  obtain ⟨-, -, -, -, hfault⟩ := fetches_parts (fetchesMem_parts h).1
  have hwaits : entryWaits s c.toNat f same = true := by
    rcases hw with hw | hw
    · simp [entryWaits, hostWaits, he, hfault, hc, hw]
    · simp [entryWaits, hostWaits, he, hfault, hc, hw]
  exact whenever_false _ _ (by simp [hwaits])

end

end Sys2Proof.Machine
end

section
/-! PROOFS. Submission entries for deep memory, entries with no operation, and entries that break a rule (R289, R290). -/

namespace Sys2Proof.Machine

/-! NOP. -/

theorem nopEntry_completes {s : State} {c : Chan} {f : FetchIn} (h : fetches s c 0 f = true) :
    Answers (.nopEntry c f) s fun t => EntryTaken s t c (some (entryEnd s c f ccDone 0 0 0)) ∧ RegsBut peakRegs s t ∧
      t = { s with hif := t.hif, regs := t.regs } := by
  obtain ⟨hs, -⟩ := fetches_parts h
  obtain ⟨turns, e⟩ := takeEntry_only s c
  have hdone := fetched_endEntry (f := f) (y := takeEntry c.toNat s) hs rfl statusCounter_done 0 0 0
  refine .of_next ((whenever_true _ _ hs).trans (by rw [fetchEntry_performs h])) ⟨hdone.taken, hdone.regsBut rfl, ?_⟩
  rw [hdone.only, e]

/-! DEEP_RD. -/

theorem length_splitWords {n : Nat} (x : BitVec n) (k : Nat) : (splitWords x k).length = k := by simp [splitWords]

/-- A sound deep codeword is read with no other effect. -/
theorem deepRead_clean {s : State} {k : Nat} (src : Nat) (h : deepClass (checkDeep (deepCw s k)) = .clean) :
    deepRead k src 0 s = (checkDeep (deepCw s k), s) := by
  have hx : deepCw s k ^^^ 0 = deepCw s k := BitVec.xor_zero
  unfold deepRead
  simp only [hx, h]

/-- Sound deep codewords are read with no other effect, four words each. -/
theorem readDeepCws_clean (d : Nat) {s : State} : ∀ (n i : Nat), i + n ≤ 2 ^ 29 →
    (∀ j, j < n → deepClass (checkDeep (deepCw s (deepKey d (i + j)))) = .clean) →
    readDeepCws d 0 n i s = ((List.range n).flatMap fun j =>
      splitWords (BitVec.ofNat 256 (deepData (checkDeep (deepCw s (deepKey d (i + j)))))) 4, none, s)
  | 0, _, _, _ => rfl
  | n + 1, i, hi, h => by
    have h0 := h 0 n.succ_pos
    rw [Nat.add_zero] at h0
    have ih := readDeepCws_clean d n (i + 1) (by omega) fun j hj => by
      rw [Nat.add_right_comm, Nat.add_assoc]
      exact h (j + 1) (Nat.succ_lt_succ hj)
    rw [readDeepCws, if_neg (by omega)]
    simp only [deepRead_clean 2 h0, h0, ih]
    simp [List.range_succ_eq_map, List.flatMap_map, Nat.add_assoc, Nat.add_comm 1]

theorem length_deepWords (n : Nat) (g : Nat → BitVec 256) :
    ((List.range n).flatMap fun j => splitWords (g j) 4).length = 4 * n := by
  simp [List.length_flatMap, length_splitWords, Nat.mul_comm]

theorem dieIsOn_takeEntry {s : State} {c : Chan} {d : Nat} (h : dieIsOn s d = true) :
    dieIsOn (takeEntry c.toNat s) d = true := by
  obtain ⟨turns, e⟩ := takeEntry_only s c
  rw [e]
  exact h

theorem deepRd_reads {s : State} {c : Chan} {f : FetchIn} (h : fetchesMem s c 4 f = true)
    (hd : dieIsOn s (enUnit f.entry) = true) (hi : enDev f.entry + enLen f.entry / 32 ≤ 2 ^ 29)
    (hcw : ∀ j, j < enLen f.entry / 32 →
      deepClass (checkDeep (deepCw s (deepKey (enUnit f.entry) (enDev f.entry + j)))) = .clean) :
    Answers (.deepRd c f 0) s fun t =>
      t.out = s.out ++ [.hostWrite (enHost f.entry) ((List.range (enLen f.entry / 32)).flatMap fun j =>
        splitWords (BitVec.ofNat 256
          (deepData (checkDeep (deepCw s (deepKey (enUnit f.entry) (enDev f.entry + j)))))) 4)] ∧
      EntryTaken s t c (some (entryEnd s c f ccDone 0 (8 * (4 * (enLen f.entry / 32))) 0)) ∧ RegsBut peakRegs s t ∧
      t = { s with hif := t.hif, regs := t.regs, out := t.out } := by
  obtain ⟨hf, -⟩ := fetchesMem_parts h
  obtain ⟨hs, -, -, -, hfault⟩ := fetches_parts hf
  obtain ⟨turns, e⟩ := takeEntry_only s c
  let ws := (List.range (enLen f.entry / 32)).flatMap fun j => splitWords (BitVec.ofNat 256
    (deepData (checkDeep (deepCw s (deepKey (enUnit f.entry) (enDev f.entry + j)))))) 4
  let y := emit (.hostWrite (enHost f.entry) ws) (takeEntry c.toNat s)
  have hn : 1 ≤ enLen f.entry / 32 := by
    have hop : enOp f.entry = 4 := fetches_op hf (by decide)
    have hw := read_length hfault (.inr hop)
    rw [enWord, if_neg (by omega)] at hw
    omega
  have hread : readDeepCws (enUnit f.entry) 0 (enLen f.entry / 32) (enDev f.entry) (takeEntry c.toNat s) =
      (ws, none, takeEntry c.toNat s) := by
    have hcws : ∀ k, deepCw (takeEntry c.toNat s) k = deepCw s k := fun k => by rw [e]; rfl
    rw [readDeepCws_clean (enUnit f.entry) (enLen f.entry / 32) (enDev f.entry) hi fun j hj => by rw [hcws]; exact hcw j hj]
    simp only [hcws, ws]
  have hact : deepRdEntry c.toNat f 0 (takeEntry c.toNat s) =
      endEntry c.toNat f ccDone 0 (8 * (4 * (enLen f.entry / 32))) 0 y := by
    have hlen : ws.length = 4 * (enLen f.entry / 32) := length_deepWords _ _
    have hne : ws.isEmpty = false := by
      rw [← Bool.not_eq_true, List.isEmpty_iff_length_eq_zero, hlen]
      omega
    unfold deepRdEntry
    simp only [reachDie_on f.ready (dieIsOn_takeEntry hd), hread, readEnds, hne, hlen]
    rfl
  have hdone := fetched_endEntry (f := f) (y := y) hs rfl statusCounter_done 0 (8 * (4 * (enLen f.entry / 32))) 0
  have hy : y = { s with
      hif := (takeEntry c.toNat s).hif, out := s.out ++ [.hostWrite (enHost f.entry) ws] } := by
    show emit _ (takeEntry c.toNat s) = _
    rw [e]
    rfl
  refine .of_next ((whenever_true _ _ hs).trans (by rw [fetchEntry_memory h, hact]))
    ⟨?_, hdone.taken, hdone.regsBut rfl, ?_⟩
  · rw [hdone.only, hy]
  · rw [hdone.only, hy]

/-! DEEP_WR. -/

theorem writeDeep_only (k : Nat) (d : BitVec 256) (s : State) : ∃ deep backs, writeDeep k d s =
    { s with deep := deep, fab := { s.fab with backs := backs } } := by
  unfold writeDeep cancelBack setDeepCw
  exact ⟨_, _, rfl⟩

/-- Deep codewords are written from `i` up, four words each under new check bits, and no other codeword changes. -/
theorem writeDeepCws_spec (d : Nat) : ∀ (n : Nat) (ws : List (BitVec 64)) (i : Nat) (s : State), i + n ≤ 2 ^ 29 →
    ws.length = 4 * n → ∃ t, writeDeepCws d n ws i s = (n, none, t) ∧
      (∀ k, deepCw t k = if deepKey d i ≤ k ∧ k < deepKey d i + n
        then encodeDeep (joinWords 256 ((List.range 4).map fun j => ws.getD (4 * (k - deepKey d i) + j) 0))
        else deepCw s k) ∧
      t = { s with deep := t.deep, fab := { s.fab with backs := t.fab.backs } }
  | 0, _, _, s, _, _ => ⟨s, rfl, fun k => by rw [if_neg (by omega)], rfl⟩
  | n + 1, ws, i, s, hi, hlen => by
    obtain ⟨t, ht, hcw, hst⟩ := writeDeepCws_spec d n (ws.drop 4) (i + 1)
      (writeDeep (deepKey d i) (joinWords 256 (ws.take 4)) s) (by omega) (by rw [List.length_drop, hlen]; omega)
    have hkey : deepKey d (i + 1) = deepKey d i + 1 := (Nat.add_assoc _ _ _).symm
    have htake : ws.take 4 = (List.range 4).map fun j => ws.getD j 0 := by
      obtain ⟨a, b, x, y, rest, rfl⟩ : ∃ a b x y rest, ws = a :: b :: x :: y :: rest := by
        match ws, hlen with
        | a :: b :: x :: y :: rest, _ => exact ⟨a, b, x, y, rest, rfl⟩
      rfl
    refine ⟨t, ?_, fun k => ?_, ?_⟩
    · rw [writeDeepCws, if_neg (by omega)]
      simp only [ht]
    · rw [hcw, deepCw_writeDeep, hkey]
      by_cases hk : k = deepKey d i
      · subst hk
        rw [if_neg (by omega), if_pos rfl, if_pos (by omega), htake]
        simp
      · by_cases hin : deepKey d i + 1 ≤ k ∧ k < deepKey d i + 1 + n
        · obtain ⟨m, hm⟩ := Nat.exists_eq_add_of_le hin.1
          rw [if_pos hin, if_pos (by omega), hm, show deepKey d i + 1 + m - (deepKey d i + 1) = m by omega,
            show deepKey d i + 1 + m - deepKey d i = m + 1 by omega]
          simp only [List.getD_eq_getElem?_getD, List.getElem?_drop]
          congr 2
          refine List.map_congr_left fun j _ => ?_
          rw [show 4 + (4 * m + j) = 4 * (m + 1) + j by omega]
        · rw [if_neg hin, if_neg hk, if_neg (by omega)]
    · obtain ⟨deep, backs, e⟩ := writeDeep_only (deepKey d i) (joinWords 256 (ws.take 4)) s
      rw [hst, e]

theorem deepWr_writes {s : State} {c : Chan} {f : FetchIn} (data : List (BitVec 64)) (h : fetchesMem s c 5 f = true)
    (hd : dieIsOn s (enUnit f.entry) = true) (hi : enDev f.entry + enLen f.entry / 32 ≤ 2 ^ 29) :
    Answers (.deepWr c f data) s fun t =>
      (∀ k, deepCw t k = if deepKey (enUnit f.entry) (enDev f.entry) ≤ k ∧
          k < deepKey (enUnit f.entry) (enDev f.entry) + enLen f.entry / 32
        then encodeDeep (joinWords 256 ((List.range 4).map fun i =>
          data.getD (4 * (k - deepKey (enUnit f.entry) (enDev f.entry)) + i) 0)) else deepCw s k) ∧
      EntryTaken s t c
        (some (entryEnd s c f (if enNarrow f.entry then ccNarrowWrite else ccDone) 0 0 (enLen f.entry / 32))) ∧
      RegsBut peakRegs s t ∧
      t = { s with hif := t.hif, regs := t.regs, deep := t.deep, fab := { s.fab with backs := t.fab.backs } } := by
  obtain ⟨hs, -⟩ := fetches_parts (fetchesMem_parts h).1
  obtain ⟨turns, e⟩ := takeEntry_only s c
  obtain ⟨t, ht, hkeys, hst⟩ := writeDeepCws_spec (enUnit f.entry) (enLen f.entry / 32)
    (hostWords (4 * (enLen f.entry / 32)) data) (enDev f.entry) (takeEntry c.toNat s) hi (length_hostWords _ _)
  have hact : deepWrEntry c.toNat f data (takeEntry c.toNat s) =
      endEntry c.toNat f (if enNarrow f.entry then ccNarrowWrite else ccDone) 0 0 (enLen f.entry / 32) t := by
    unfold deepWrEntry
    simp only [reachDie_on f.ready (dieIsOn_takeEntry hd), ht, writeEnds_done]
  have hdone := fetched_endEntry (f := f) (y := t) hs (by rw [hst]) (statusCounter_written (enNarrow f.entry)) 0 0
    (enLen f.entry / 32)
  refine .of_next ((whenever_true _ _ hs).trans (by rw [fetchEntry_memory h, hact]))
    ⟨fun k => ?_, hdone.taken, hdone.regsBut (by rw [hst]; rfl), ?_⟩
  · refine (congrArg (fun x : State => look 0 x.deep k) hdone.only).trans ((hkeys k).trans ?_)
    by_cases hk : deepKey (enUnit f.entry) (enDev f.entry) ≤ k ∧
        k < deepKey (enUnit f.entry) (enDev f.entry) + enLen f.entry / 32
    · rw [if_pos hk, if_pos hk]
      congr 2
      refine List.map_congr_left fun i hi4 => getD_hostWords _ ?_
      have := List.mem_range.mp hi4
      omega
    · rw [if_neg hk, if_neg hk, deepCw, e, deepCw]
  · rw [hdone.only, hst, e]

/-! Entries that break a rule of R290. -/

/-- A failing entry of no message is taken, its completion waits with the lowest detail, and it is counted. -/
theorem fetchEntry_bad {s : State} {c : Chan} {op d : Nat} {f : FetchIn} (hs : canServe s c.toNat = true)
    (hbus : f.bus = 0) (hop : entryIs op f.entry = true) (hdata : classOf s c.toNat = 3 ∨ dataStopped s = false)
    (hfault : entryFault s c.toNat f.entry = some d) (hfurther : furtherOf s c.toNat f.entry = none)
    (act : State → State) : fetchEntry c.toNat op f act s = notePeaks (noteTags (count 0xA0060
      (withCompletion s c (entryEnd s c f ccBadEntry d 0 0) (takeEntry c.toNat s)))) := by
  obtain ⟨turns, e⟩ := takeEntry_only s c
  have hfurther' : furtherOf (takeEntry c.toNat s) c.toNat f.entry = none := by
    rw [e]
    exact hfurther
  have hcode : statusCounter (BitVec.ofNat 8 ccBadEntry).toNat = some 0xA0060 := by decide
  rw [fetchEntry, if_neg (by rw [hbus]; decide), if_neg (by simp [hop])]
  simp only [if_neg (not_dataStopped hdata), hfault, badEntry, hfurther']
  rw [endEntry_taken hs rfl, hcode, Option.elim_some]

theorem withCompletion_only (s : State) (c : Chan) (e : Completion) :
    ∃ hif, withCompletion s c e (takeEntry c.toNat s) = { s with hif := hif } := by
  obtain ⟨turns, h⟩ := takeEntry_only s c
  rw [h]
  exact ⟨_, rfl⟩

theorem bad_completes (s : State) (c : Chan) (d : Nat) (f : FetchIn) {t : State}
    (ht : t = notePeaks (noteTags (count 0xA0060
      (withCompletion s c (entryEnd s c f ccBadEntry d 0 0) (takeEntry c.toNat s))))) :
    EntryTaken s t c (some (entryEnd s c f ccBadEntry d 0 0)) ∧
      ctr t 0xA0060 = min (2 ^ 48 - 1) (ctr s 0xA0060 + 1) ∧ SameDesign s t ∧ t.out = s.out ∧ t.dsp = s.dsp := by
  have hw := entryTaken_withCompletion (s := s) (c := c) (y := takeEntry c.toNat s)
    (entryEnd s c f ccBadEntry d 0 0) rfl
  obtain ⟨hif, hsw⟩ := withCompletion_only s c (entryEnd s c f ccBadEntry d 0 0)
  generalize withCompletion s c (entryEnd s c f ccBadEntry d 0 0) (takeEntry c.toNat s) = w at ht hw hsw
  obtain ⟨only, -⟩ := peaksNoted_notes (count 0xA0060 w)
  rw [← ht] at only
  have hctr : ctr (count 0xA0060 w) 0xA0060 = min (2 ^ 48 - 1) (ctr s 0xA0060 + 1) := by
    rw [ctr_count _ _ (by unfold plainCtr; decide), hsw]
    rfl
  have hdesign : SameDesign s (count 0xA0060 w) := by
    have design := (quiet_count 0xA0060 w).design
    rw [hsw] at design ⊢
    exact design
  refine ⟨entryTaken_congr hw (by rw [only, count_hif]), ?_, ?_, ?_, ?_⟩
  · rw [only]
    exact hctr
  · rw [only]
    exact hdesign
  · rw [only, count_out, hsw]
  · rw [only, count_dsp, hsw]

section
variable {s : State} {c : Chan} {d : Nat} {f : FetchIn} (data : List (BitVec 64)) (same : Bool)
  (hserve : canServe s c.toNat = true) (hfault : entryFault s c.toNat f.entry = some d)

include hserve hfault in
/-- Each of the commands fetches an entry that breaks a rule: it waits for no bank cycle and for no scheduled write. -/
theorem exec_bad : ∀ x ∈ [(0, Instr.nopEntry c f), (2, .bankRd c f), (3, .bankWr c f data same), (4, .deepRd c f 0),
    (5, .deepWr c f data)], ∃ act, exec x.2 s = .next (fetchEntry c.toNat x.1 f act s) := by
  have hbusy : entryBusy s c.toNat f = false := by simp [entryBusy, hfault]
  have hwaits : entryWaits s c.toNat f same = false := by simp [entryWaits, hfault]
  simp only [List.forall_mem_cons, List.not_mem_nil, false_imp_iff, implies_true, and_true]
  exact ⟨⟨_, whenever_true _ _ hserve⟩, ⟨_, whenever_true _ _ (by simp [hserve, hbusy])⟩,
    ⟨_, whenever_true _ _ (by simp [hserve, hwaits, hbusy])⟩, ⟨_, whenever_true _ _ hserve⟩,
    ⟨_, whenever_true _ _ hserve⟩⟩
end

/-- Settles O27: a fetch takes its entry, performs it on the memory with the channels moved on, commits its completion
and notes the peaks; what each operation does to the memory is the run of its codewords. -/
theorem channelEntries : Obligations.ChannelEntries := by
  unfold Obligations.ChannelEntries
  refine ⟨fun s c f h => nopEntry_completes h,
    fun s c f h hp hr hd => ⟨fun hb => whenever_false _ _ (by simp [hb]), fun hb hcw => bankRd_reads h hp hr hd hb hcw⟩,
    fun s c f data same h hp hr hd => ⟨fun he => bankWr_held data h hp hr hd he,
      fun he hcw hc hb => bankWr_writes data h hp hr hd he hcw hc hb,
      fun j he hcw hc => ⟨fun hw => bankWr_waits data h he hc hw,
        fun hsame hj hb => bankWr_dropped data h hp hr hd he hcw hc hsame hj hb⟩⟩,
    fun s c f h hd hi hcw => deepRd_reads h hd hi hcw, fun s c f data h hd hi => deepWr_writes data h hd hi,
    fun s c f data d same hgo hfault hfurther x hx hop => ?_⟩
  rw [Bool.and_eq_true, Bool.and_eq_true, beq_iff_eq] at hgo
  obtain ⟨⟨hserve, hbus⟩, hdata⟩ := hgo
  obtain ⟨act, hexec⟩ := exec_bad data same hserve hfault x hx
  exact .of_next hexec (bad_completes s c d f
    (fetchEntry_bad hserve hbus hop (by simpa using hdata) hfault hfurther act))

end Sys2Proof.Machine
end

section
/-! PROOFS. VN0 flits (R107, R111 to R116, R120 to R122, R127): the flit that a command takes, a flit that nothing opposes, its
launch, its link, its landing, and the drop of one that fails its CRC. -/

namespace Sys2Proof.Machine

/-! Counting, as `OnlyLogged` has it. -/

theorem onlyLogged_count (a : Nat) (s : State) : OnlyLogged [a] [] s (count a s) :=
  onlyLogged_of_logOnly (logOnly_count a s) (fun _ hb _ => reg_count _ _ hb)
    fun _ h1 h2 hb => ctr_countN_ne 1 s ⟨h1, h2⟩ (by simpa using hb)

theorem OnlyLogged.then_count {cs : List Nat} {s t : State} (h : OnlyLogged cs [] s t) (a : Nat) :
    OnlyLogged (a :: cs) [] s (count a t) := by
  obtain ⟨h, hr, hc⟩ := h
  obtain ⟨k, kr, kc⟩ := onlyLogged_count a t
  simp only [OnlyLogged, List.mem_cons, not_or]
  refine ⟨?_, fun b h1 h2 => (kr b h1 h2).trans (hr b h1 h2), fun b h1 h2 hb => ?_⟩
  · rw [k, h]
  · exact (kc b h1 h2 (by simpa using hb.1)).trans (hc b h1 h2 hb.2)

/-- What is counted and logged rests neither on the network nor on the fabric's working values. -/
theorem OnlyLogged.with_net {cs rs : List Nat} {s t : State} (h : OnlyLogged cs rs s t) (n : Net) :
    OnlyLogged cs rs { s with net := n } { t with net := n } := by
  obtain ⟨h, hr, hc⟩ := h
  exact ⟨congrArg (fun x : State => { x with net := n }) h, hr, hc⟩

theorem OnlyLogged.with_fab {cs rs : List Nat} {s t : State} (h : OnlyLogged cs rs s t) (g : Fabric) :
    OnlyLogged cs rs { s with fab := g } { t with fab := g } := by
  obtain ⟨h, hr, hc⟩ := h
  exact ⟨congrArg (fun x : State => { x with fab := g }) h, hr, hc⟩

theorem plainCtr_pavA (p o : Nat) : plainCtr (pavA p + o) := by
  unfold plainCtr pavA
  omega

/-! CRC-8 (R107). -/

/-- One bit enters the CRC register. -/
def crcStep (c : BitVec 8) (b : Bool) : BitVec 8 := c <<< (1 : Nat) ^^^ if c.getLsbD 7 ^^ b then 0x07 else 0

theorem crc8_eq_foldl (n x : Nat) : crc8 n x = (List.range n).foldl (fun c i => crcStep c (x.testBit (n - 1 - i))) 0 := by
  have bit : ∀ i, ((x >>> i) % 2 == 1) = x.testBit i := fun i => by
    rw [Nat.testBit_eq_decide_div_mod_eq, Nat.shiftRight_eq_div_pow]
    rfl
  have step : ∀ (c : BitVec 8) (b : Bool),
      (if c.getLsbD 7 ^^ b then c <<< (1 : Nat) ^^^ 0x07 else c <<< (1 : Nat)) = crcStep c b := fun c b => by
    unfold crcStep
    split
    · rfl
    · exact (BitVec.xor_zero).symm
  simp only [crc8, bit, step]

theorem crcStep_xor (c d : BitVec 8) (a b : Bool) : crcStep (c ^^^ d) (a ^^ b) = crcStep c a ^^^ crcStep d b := by
  have top : ((c ^^^ d).getLsbD 7 ^^ (a ^^ b)) = ((c.getLsbD 7 ^^ a) ^^ (d.getLsbD 7 ^^ b)) := by
    rw [BitVec.getLsbD_xor, Bool.xor_assoc, Bool.xor_assoc, Bool.xor_left_comm (d.getLsbD 7)]
  have taps : ∀ t u : Bool, (if t ^^ u then 0x07 else 0 : BitVec 8) = (if t then 0x07 else 0) ^^^ if u then 0x07 else 0 := by
    decide
  unfold crcStep
  rw [top, BitVec.shiftLeft_xor_distrib, taps]
  ac_rfl

theorem crc8_xor (n x y : Nat) : crc8 n (x ^^^ y) = crc8 n x ^^^ crc8 n y := by
  have run : ∀ (l : List Nat) (c d : BitVec 8),
      l.foldl (fun c i => crcStep c ((x ^^^ y).testBit (n - 1 - i))) (c ^^^ d) =
        l.foldl (fun c i => crcStep c (x.testBit (n - 1 - i))) c ^^^
          l.foldl (fun c i => crcStep c (y.testBit (n - 1 - i))) d := fun l => by
    induction l with
    | nil => exact fun _ _ => rfl
    | cons i l ih =>
      intro c d
      simp only [List.foldl_cons]
      rw [Nat.testBit_xor, crcStep_xor, ih]
  simp only [crc8_eq_foldl]
  exact run (List.range n) 0 0

/-- A transfer is refused exactly where the CRC of its data errors is not its check-bit errors. -/
theorem received_none_iff (b : BitVec 64) (err : BitVec 72) :
    received b err = none ↔ crc8 64 (err.extractLsb' 8 64).toNat ≠ err.extractLsb' 0 8 := by
  unfold received
  dsimp only
  simp [crc8_xor, BitVec.xor_right_inj]

theorem received_sound (b : BitVec 64) : received b 0 = some b := by
  simp [received]

/-- No single bit error of the 72 has the CRC that its check bits say. -/
theorem crc8_single_error : ∀ i < 72, crc8 64 ((BitVec.ofNat 72 (2 ^ i)).extractLsb' 8 64).toNat ≠
    (BitVec.ofNat 72 (2 ^ i)).extractLsb' 0 8 := by
  decide +kernel

theorem received_flipped_bit (b : BitVec 64) {i : Nat} (h : i < 72) : received b (BitVec.ofNat 72 (2 ^ i)) = none :=
  (received_none_iff b _).mpr (crc8_single_error i h)

/-! The flit that a command takes. -/

section
variable {s : State} {p : Pav} {inp : RPort} {f : Flit} {err : BitVec 72}

theorem flitAt_parts {want : Nat → Bool} (h : flitAt s p.toNat inp.toNat want = some f) :
    f.at_ = p ∧ f.inp = inp ∧ want (flitNext f.bits) = true := by
  have hf := List.find?_some h
  simp only [Bool.and_eq_true, beq_iff_eq] at hf
  obtain ⟨⟨⟨⟨at_, inp⟩, -⟩, next⟩, -⟩ := hf
  exact ⟨BitVec.eq_of_toNat_eq at_, BitVec.eq_of_toNat_eq inp, next⟩

theorem exec_flitSwitch (hr : running s = true) (hi : inp.toNat < 6)
    (h : flitAt s p.toNat inp.toNat (· != 0) = some f) :
    exec (.flitSwitch p inp err) s = .next (takeFlit switchFlit f err s) := by
  refine (forUnit_true _ (decide_eq_true hi)).trans ?_
  rw [hr, h]

theorem exec_vn0Land (hr : running s = true) (hi : inp.toNat < 6)
    (h : flitAt s p.toNat inp.toNat (· == 0) = some f) :
    exec (.vn0Land p inp err) s = .next (takeFlit landFlit f err s) := by
  refine (forUnit_true _ (decide_eq_true hi)).trans ?_
  rw [hr, h]

theorem takeFlit_sound (act : Flit → State → State) (f : Flit) (s : State) : takeFlit act f 0 s = act f s := by
  unfold takeFlit
  rw [received_sound]
  exact if_pos rfl

theorem takeFlit_broken (act : Flit → State → State) (h : received f.bits err = none) : takeFlit act f err s =
    flitCheck f.at_.toNat f.inp.toNat (cycleOf s f) (dropFlit f s) := by
  simp [takeFlit, h]

/-- A flit that nothing opposes wins its output with no other effect (R120). -/
theorem contest_unopposed (h : unopposed s f = true) : contest f s = (true, s) := by
  simp only [unopposed, Bool.and_eq_true, List.isEmpty_iff] at h
  obtain ⟨⟨hr, hp⟩, hres⟩ := h
  simp [contest, hr, hp, hres, lowestBy]

/-! Over a link (R111). -/

/-- The flit as it stands at the neighbour, with one link less to go. -/
def nextHop (s : State) (p : Pav) (f : Flit) : Flit :=
  let legs := stepLegs (flitLegs f.bits)
  { bits := put (put f.bits 18 18 legs.toNat) 36 3 (nextOf legs (flitEnd f.bits)),
    at_ := BitVec.ofNat 7 (neighbour p.toNat (flitNext f.bits)), inp := BitVec.ofNat 3 (farInput (flitNext f.bits)),
    due := cycleOf s f + linkCost p.toNat (flitNext f.bits) }

theorem switchFlit_unopposed (h : unopposed s f = true) (hk : flitNext f.bits ≤ 4) : switchFlit f s =
    let x := count (pavA f.at_.toNat + 0x560 + 8 * flitNext f.bits) (dropFlit f s)
    { x with net := { s.net with flits := s.net.flits.erase f ++ [nextHop s f.at_ f] } } := by
  have h5 : ¬ (5 < flitNext f.bits ∨ flitNext f.bits = 5 ∧ gatewayOf f.at_.toNat = none) := by omega
  have ne : flitNext f.bits ≠ 5 := by omega
  unfold switchFlit
  dsimp only
  rw [if_neg h5, contest_unopposed h]
  simp only [forward, if_true, if_neg ne, count_net]
  rfl

theorem flitSwitch_moves (hr : running s = true) (hi : inp.toNat < 6) (h : flitAt s p.toNat inp.toNat (· != 0) = some f)
    (hu : unopposed s f = true) (hk : flitNext f.bits ≤ 4) : Answers (.flitSwitch p inp 0) s fun t =>
      t.net = { s.net with flits := s.net.flits.erase f ++ [nextHop s p f] } ∧
      ctr t (pavA p.toNat + 0x560 + 8 * flitNext f.bits) =
        min (2 ^ 48 - 1) (ctr s (pavA p.toNat + 0x560 + 8 * flitNext f.bits) + 1) ∧
      OnlyLogged [pavA p.toNat + 0x560 + 8 * flitNext f.bits] [] { s with net := t.net } t := by
  obtain ⟨rfl, -, -⟩ := flitAt_parts h
  refine .of_next ((exec_flitSwitch hr hi h).trans (congrArg _ ((takeFlit_sound _ f s).trans (switchFlit_unopposed hu hk)))) ?_
  have plain : plainCtr (pavA f.at_.toNat + 0x560 + 8 * flitNext f.bits) := by
    rw [Nat.add_assoc]
    exact plainCtr_pavA _ _
  exact ⟨rfl, (ctr_of_ctrs rfl _).trans (ctr_count _ (dropFlit f s) plain),
    (onlyLogged_count (pavA f.at_.toNat + 0x560 + 8 * flitNext f.bits) (dropFlit f s)).with_net _⟩

/-! At a local port (R115, R127). -/

theorem landFlit_unopposed (h : unopposed s f = true) : landFlit f s = land f s := by
  simp [landFlit, contest_unopposed h]

/-- The fabric's working values with the write of the flit in its receive register due (R115). -/
def landedFab (s : State) (p : Pav) (f : Flit) : Fabric :=
  { s.fab with rxNext := s.fab.rxNext ++ [{
      key := p.toNat * 64 + flitRreg f.bits, mask := 0xFF, val := flitPayload f.bits, half := cycleOf s f % 2 == 1 }] }

/-- A flit of the right tag for a register that no message port writes lands at a live port. -/
theorem land_live (hl : portState s f.at_.toNat = .live) (ht : flitTag f.bits = cycleTag s (cycleOf s f))
    (hw : portWrites s f.at_.toNat (flitRreg f.bits) s.cox.stroke = false) : land f s =
    let x := count (pavA f.at_.toNat + 0x560) (dropFlit f s)
    count (pavA f.at_.toNat + 0x518) { x with fab := landedFab s f.at_ f } := by
  simp [land, hl, ht, hw]
  rfl

/-- A flit at a port that is not live is dropped. -/
theorem land_dead (hl : portState s f.at_.toNat ≠ .live) :
    land f s = count (pavA f.at_.toNat + 0x520) (count (pavA f.at_.toNat + 0x560) (dropFlit f s)) := by
  simp [land, hl]

theorem vn0Land_lands (hr : running s = true) (hi : inp.toNat < 6) (h : flitAt s p.toNat inp.toNat (· == 0) = some f)
    (hu : unopposed s f = true) (hl : portState s p.toNat = .live) (ht : flitTag f.bits = cycleTag s (cycleOf s f))
    (hw : portWrites s p.toNat (flitRreg f.bits) s.cox.stroke = false) : Answers (.vn0Land p inp 0) s fun t =>
      t.fab = landedFab s p f ∧
      t.net = { s.net with flits := s.net.flits.erase f } ∧
      ctr t (pavA p.toNat + 0x518) = min (2 ^ 48 - 1) (ctr s (pavA p.toNat + 0x518) + 1) ∧
      OnlyLogged [pavA p.toNat + 0x518, pavA p.toNat + 0x560] [] { s with net := t.net, fab := t.fab } t := by
  obtain ⟨rfl, -, -⟩ := flitAt_parts h
  refine .of_next ((exec_vn0Land hr hi h).trans (congrArg _ ((takeFlit_sound _ f s).trans
    ((landFlit_unopposed hu).trans (land_live hl ht hw))))) ?_
  have first := (onlyLogged_count (pavA f.at_.toNat + 0x560) (dropFlit f s)).with_fab
    (landedFab s f.at_ f)
  have net : (count (pavA f.at_.toNat + 0x560) (dropFlit f s)).net = { s.net with flits := s.net.flits.erase f } :=
    count_net _ _
  have ctrs : ctr (count (pavA f.at_.toNat + 0x560) (dropFlit f s)) (pavA f.at_.toNat + 0x518) =
    ctr s (pavA f.at_.toNat + 0x518) := ctr_countN_ne 1 (dropFlit f s) (plainCtr_pavA _ _) (by omega)
  generalize count (pavA f.at_.toNat + 0x560) (dropFlit f s) = x at first net ctrs
  have landed := first.then_count (pavA f.at_.toNat + 0x518)
  have hfab := count_fab (pavA f.at_.toNat + 0x518) { x with fab := landedFab s f.at_ f }
  have hnet := (count_net (pavA f.at_.toNat + 0x518)
    { x with fab := landedFab s f.at_ f }).trans net
  refine ⟨hfab, hnet, (ctr_count _ _ (plainCtr_pavA _ _)).trans (congrArg (fun c => min (2 ^ 48 - 1) (c + 1)) ctrs), ?_⟩
  rw [hfab, hnet]
  exact landed

theorem vn0Land_drops (hr : running s = true) (hi : inp.toNat < 6) (h : flitAt s p.toNat inp.toNat (· == 0) = some f)
    (hu : unopposed s f = true) (hl : portState s p.toNat ≠ .live) : Answers (.vn0Land p inp 0) s fun t =>
      t.net = { s.net with flits := s.net.flits.erase f } ∧
      ctr t (pavA p.toNat + 0x520) = min (2 ^ 48 - 1) (ctr s (pavA p.toNat + 0x520) + 1) ∧
      OnlyLogged [pavA p.toNat + 0x520, pavA p.toNat + 0x560] [] { s with net := t.net } t := by
  obtain ⟨rfl, -, -⟩ := flitAt_parts h
  refine .of_next ((exec_vn0Land hr hi h).trans (congrArg _ ((takeFlit_sound _ f s).trans
    ((landFlit_unopposed hu).trans (land_dead hl))))) ?_
  rw [count_net, count_net, ctr_count _ _ (plainCtr_pavA _ _)]
  refine ⟨rfl, ?_, (onlyLogged_count (pavA f.at_.toNat + 0x560) (dropFlit f s)).then_count _⟩
  rw [count, ctr_countN_ne 1 (dropFlit f s) (plainCtr_pavA _ _) (by omega)]
  rfl

end

/-! The launch (R112 to R114). -/

/-- The flit that a route entry launches in the stroke in progress. -/
def launched (s : State) (p : Pav) (e : BitVec 10) : Flit :=
  let r := sroute s p.toNat e.toNat
  let half := r.getLsbD 52
  let cyc := 2 * gOf s + half.toNat
  let legs := r.extractLsb' 28 18
  { bits := mkFlit (lanesOf s p.toNat e.toNat (if half then gOf s else gOf s - 1))
      (cycleTag s (cyc + routeCost p.toNat legs + if r.getLsbD 27 then 2 * Config.linkSlack else 0)) (bits r 46 6) legs
      (r.getLsbD 27) (bits r 24 3) (bits r 21 3),
    at_ := p, inp := 0, due := cyc }

theorem vn0Launch_launches {s : State} {p : Pav} {e : BitVec 10}
    (h : (running s && enabled s p.toNat && released s p 1 && launchNow s (sroute s p.toNat e.toNat) &&
      !s.fab.marks.contains (7, p.toNat * 1024 + e.toNat)) = true) : Answers (.vn0Launch p e) s fun t =>
      t.net = { s.net with flits := s.net.flits ++ [launched s p e] } ∧
      ctr t (pavA p.toNat + 0x510) = min (2 ^ 48 - 1) (ctr s (pavA p.toNat + 0x510) + 1) ∧
      OnlyLogged [pavA p.toNat + 0x510] []
        { s with net := t.net, fab := { s.fab with marks := (7, p.toNat * 1024 + e.toNat) :: s.fab.marks } } t := by
  have launches : launch p.toNat e.toNat s = count (pavA p.toNat + 0x510) { s with
      net := { s.net with flits := s.net.flits ++ [launched s p e] },
      fab := { s.fab with marks := (7, p.toNat * 1024 + e.toNat) :: s.fab.marks } } := by
    simp [launch, launched]
  refine .of_next ((whenever_true s (launch p.toNat e.toNat s) h).trans (congrArg _ launches)) ?_
  rw [count_net]
  exact ⟨rfl, ctr_count _ _ (plainCtr_pavA _ _), onlyLogged_count _ _⟩

/-- Settles O9: the launch, an unopposed flit on its link, at a live local port, and at one that is not. -/
theorem vn0Flits : Obligations.Vn0Flits := by
  unfold Obligations.Vn0Flits
  exact ⟨fun s p e h => vn0Launch_launches h, fun s p inp f hr hi h hu hk => flitSwitch_moves hr hi h hu hk,
    fun s p inp f hr hi h hu hl ht hw => vn0Land_lands hr hi h hu hl ht hw,
    fun s p inp f hr hi h hu hl => vn0Land_drops hr hi h hu hl⟩

end Sys2Proof.Machine
end

section
/-! PROOFS. VN0 flits that fail their CRC (R122), and held flits that enter by their ingress entries (R116). -/

namespace Sys2Proof.Machine

/-! A CRC mismatch (R122). -/

/-- What a CRC mismatch counts, records and logs before it raises its halt. -/
def flitNoted (p inp cyc : Nat) (s : State) : State :=
  logEvent evFlitCheck (locPav p inp) inp (recordNet p 3 inp inp inp cyc none (count (pavA p + 0x538) s))

theorem setReg_only (a : Nat) (v : Word) (s : State) : ∃ regs, setReg a v s = { s with regs := regs } := ⟨_, rfl⟩

theorem recordNet_only (p kind output winner loser cyc : Nat) (tag : Option Nat) (s : State) :
    ∃ regs, recordNet p kind output winner loser cyc tag s = { s with regs := regs } := by
  have twice : ∀ a v b w, ∃ regs, setReg b w (setReg a v s) = { s with regs := regs } := fun a v b w => ⟨_, rfl⟩
  unfold recordNet
  simp only
  split
  · exact ⟨s.regs, rfl⟩
  · cases tag
    · apply setReg_only
    · apply twice

theorem flitNoted_spec (p inp cyc : Nat) (s : State) : (flitNoted p inp cyc s).net = s.net ∧
    (flitNoted p inp cyc s).fab = s.fab ∧ (flitNoted p inp cyc s).cox = s.cox ∧ (flitNoted p inp cyc s).wide = s.wide ∧
    ctr (flitNoted p inp cyc s) (pavA p + 0x538) = min (2 ^ 48 - 1) (ctr s (pavA p + 0x538) + 1) := by
  obtain ⟨regs, recorded⟩ := recordNet_only p 3 inp inp inp cyc none (count (pavA p + 0x538) s)
  have plain := plainCtr_pavA p 0x538
  unfold flitNoted
  rw [recorded]
  refine ⟨(logEvent_net ..).trans (count_net _ s), (logEvent_fab ..).trans (count_fab _ s),
    (logEvent_cox ..).trans (count_cox _ s), (logEvent_wide ..).trans (count_wide _ s), ?_⟩
  exact (ctr_logEvent _ _ _ _ plain).trans ((ctr_of_ctrs rfl _).trans (ctr_count _ s plain))

/-- In RUN a CRC mismatch is counted and raises a halt in the stroke in progress, and moves no flit and no value. -/
theorem flitCheck_halts {s : State} (p inp cyc : Nat) (hr : running s = true) :
    (flitCheck p inp cyc s).net = s.net ∧ (flitCheck p inp cyc s).fab = s.fab ∧
    ctr (flitCheck p inp cyc s) (pavA p + 0x538) = min (2 ^ 48 - 1) (ctr s (pavA p + 0x538) + 1) ∧
    (flitCheck p inp cyc s).cox.halts.any (fun h => h.cause == 0xF && h.raised == gOf s) = true := by
  obtain ⟨net, fab, cox, wide, counted⟩ := flitNoted_spec p inp cyc s
  have raised : haltNow (flitNoted p inp cyc s) hcOther ∈ (flitCheck p inp cyc s).cox.halts := by
    refine haltNow_mem_raiseHalt hcOther (s := flitNoted p inp cyc s) ?_
    rw [inCourse, cox, show (s.cox.st == .run) = true from hr]
    rfl
  have eq : flitCheck p inp cyc s = raiseHalt hcOther (flitNoted p inp cyc s) := rfl
  refine ⟨by rw [eq, raiseHalt_net, net], by rw [eq, raiseHalt_fab, fab], ?_, List.any_eq_true.mpr ⟨_, raised, ?_⟩⟩
  · rw [eq, ctr_of_ctrs (raiseHalt_ctrs _ _), counted]
  · rw [haltNow, raiseAt_of_running hr cox wide]
    simp [hcOther]

/-- A flit with a CRC mismatch is dropped, counted and halts the run, at a router and at a local port alike. -/
theorem broken_drops {s : State} {p : Pav} {inp : RPort} {f : Flit} {land : Bool} {err : BitVec 72}
    (hr : running s = true) (hi : inp.toNat < 6)
    (h : flitAt s p.toNat inp.toNat (if land then (· == 0) else (· != 0)) = some f) (hb : received f.bits err = none) :
    Answers (if land then .vn0Land p inp err else .flitSwitch p inp err) s fun t =>
      t.net = { s.net with flits := s.net.flits.erase f } ∧ t.fab = s.fab ∧
      ctr t (pavA p.toNat + 0x538) = min (2 ^ 48 - 1) (ctr s (pavA p.toNat + 0x538) + 1) ∧
      t.cox.halts.any (fun h => h.cause == 0xF && h.raised == gOf s) = true := by
  obtain ⟨rfl, -, -⟩ := flitAt_parts h
  have next : exec (if land then .vn0Land f.at_ inp err else .flitSwitch f.at_ inp err) s =
      .next (flitCheck f.at_.toNat f.inp.toNat (cycleOf s f) (dropFlit f s)) := by
    cases land
    case false => exact (exec_flitSwitch hr hi h).trans (congrArg _ (takeFlit_broken _ hb))
    case true => exact (exec_vn0Land hr hi h).trans (congrArg _ (takeFlit_broken _ hb))
  exact .of_next next (flitCheck_halts (s := dropFlit f s) _ _ _ hr)

/-! The ingress of a held flit (R116). -/

section
variable {s : State} {h : HeldFlit}

/-- The flit that a held flit becomes at its gateway: the fields of its ingress entry, with the tag of its arrival. -/
def ingressFlit (s : State) (h : HeldFlit) : Flit :=
  let p := gatewayPav (flitFgate h.bits)
  let legs := (ingress s p (flitTag h.bits)).extractLsb' 13 18
  { bits := mkFlit (flitPayload h.bits).toNat (cycleTag s (h.due + routeCost p legs)) (flitRreg h.bits) legs false 0 0,
    at_ := BitVec.ofNat 7 p, inp := 5, due := h.due }

theorem enterGateway_valid (he : (ingress s (gatewayPav (flitFgate h.bits)) (flitTag h.bits)).getLsbD 31 = true) :
    enterGateway h s = { s with
      net := { s.net with flits := s.net.flits ++ [ingressFlit s h] },
      fab := { s.fab with marks := cycleMark (gatewayPav (flitFgate h.bits)) (flitTag h.bits) :: s.fab.marks } } := by
  simp only [enterGateway, he, Bool.not_true, Bool.false_eq_true, if_false]
  rfl

/-- A flit whose cycle has not passed, alone at its gateway in that cycle, enters. -/
theorem handOff_alone (hd : gOf s ≤ h.due / 2)
    (ha : (s.net.held.any fun x => x.port != h.port && x.due == h.due && flitFgate x.bits == flitFgate h.bits) = false) :
    handOff h s = enterGateway h { s with net := { s.net with held := s.net.held.erase h } } := by
  have alone : (s.net.held.filter fun x => x.port != h.port && x.due == h.due && flitFgate x.bits == flitFgate h.bits) = [] := by
    rw [List.filter_eq_nil_iff]
    exact List.any_eq_false.mp ha
  unfold handOff
  dsimp only
  rw [if_neg (Nat.not_lt.mpr hd), alone]
  rfl

theorem ingressHandoff_enters {n : DPort} (hr : running s = true)
    (hf : (s.net.held.find? fun h => h.port == n && decide (h.due / 2 ≤ gOf s)) = some h) (hd : gOf s ≤ h.due / 2)
    (ha : (s.net.held.any fun x => x.port != h.port && x.due == h.due && flitFgate x.bits == flitFgate h.bits) = false)
    (he : (ingress s (gatewayPav (flitFgate h.bits)) (flitTag h.bits)).getLsbD 31 = true) :
    Answers (.ingressHandoff n) s fun t => t = { s with
      fab := { s.fab with marks := cycleMark (gatewayPav (flitFgate h.bits)) (flitTag h.bits) :: s.fab.marks },
      net := { s.net with held := s.net.held.erase h, flits := s.net.flits ++ [ingressFlit s h] } } := by
  have next : exec (.ingressHandoff n) s = .next (handOff h s) := by
    show execIngressHandoff n s = _
    rw [execIngressHandoff, hr, hf]
  refine .of_next next ?_
  rw [handOff_alone hd ha]
  exact enterGateway_valid he

end

/-- Settles O10: the receiver's test with the linearity of its CRC, the drop of a broken flit, and the ingress of a held
one. -/
theorem vn0DropsAndIngress : Obligations.Vn0DropsAndIngress := by
  unfold Obligations.Vn0DropsAndIngress
  exact ⟨⟨fun b err => rfl, fun b i h => received_flipped_bit b h,
      fun s p inp f land err hr hi h hb => broken_drops hr hi h hb⟩,
    fun s n h hr hf hd ha he => ingressHandoff_enters hr hf hd ha he⟩

end Sys2Proof.Machine
end
section
/-! PROOFS. What a local port and the I/O die do with packets other than those for bank memory (R125, R330, R332, R544). -/

namespace Sys2Proof.Machine

/-! Registers and configuration words. -/

section
variable {s : State} {p : Pav} {pk : Packet} {addr : BitVec 32} {word : BitVec 9} {d : BitVec 64}

theorem regRd_answers (h : serves s p 1 3 pk = true) :
    exec (.regRd p) s = .next (regRdService p.toNat pk (takeInbox p.toNat pk s)) :=
  congrArg _ (serve_of_serves h _)

theorem regWr_answers (h : serves s p 1 4 pk = true) :
    exec (.regWr p) s = .next (regWrService p.toNat pk (takeInbox p.toNat pk s)) :=
  congrArg _ (serve_of_serves h _)

/-- A configuration word is written at its place, under new check bits, and the write is answered. -/
theorem cfgWrService_one (x : State) (hd : pk.data = [d]) (hf : framePav addr = p.toNat)
    (hs : portState x p.toNat ≠ .reconf) : cfgWrService p.toNat addr word.toNat pk x =
      reply p.toNat 9 0 [] pk.head (setCfg (cfgKey (addr.toNat / 128) word.toNat) d x) := by
  have hw : word.toNat < 512 := word.isLt
  simp [cfgWrService, hf, hd, hs, hw, writeCfgWord]

theorem cfgWr_writes (h : serves s p 3 0xC pk = true) (hd : pk.data = [d]) (hf : framePav addr = p.toNat)
    (hs : portState s p.toNat ≠ .reconf) : Answers (.cfgWr p addr word) s fun t =>
      (∀ k, look 0 t.cfg k = if k = cfgKey (addr.toNat / 128) word.toNat then encode72 d else look 0 s.cfg k) ∧
      t.bank = s.bank ∧ t.deep = s.deep ∧ t.slots = s.slots ∧ t.shadow = s.shadow ∧ t.regs = s.regs := by
  have next : exec (.cfgWr p addr word) s = .next (reply p.toNat 9 0 [] pk.head
      (setCfg (cfgKey (addr.toNat / 128) word.toNat) d (takeInbox p.toNat pk s))) :=
    congrArg _ ((serve_of_serves h _).trans (cfgWrService_one (takeInbox p.toNat pk s) hd hf hs))
  refine .of_next next ?_
  obtain ⟨bufs, waitQ, owed, answered⟩ := reply_only p.toNat 9 0 [] pk.head
    (setCfg (cfgKey (addr.toNat / 128) word.toNat) d (takeInbox p.toNat pk s))
  rw [answered]
  exact ⟨look_upd 0 s.cfg _ (encode72 d), rfl, rfl, rfl, rfl, rfl⟩

theorem cfgRd_answers (h : serves s p 3 0xD pk = true) (hf : framePav addr = p.toNat) :
    exec (.cfgRd p addr word 0) s = .next (reply p.toNat 8 0
      [BitVec.ofNat 64 (cfgData s (cfgKey (addr.toNat / 128) word.toNat))] pk.head (takeInbox p.toNat pk s)) := by
  have hw : word.toNat < 512 := word.isLt
  refine congrArg _ ((serve_of_serves h _).trans ?_)
  simp [cfgRdService, hf, hw]
  rfl

end

/-! Messages (R332). -/

theorem deliver_stages {s : State} {p : Pav} {pk : Packet} {m : Msg} (h : serves s p 1 5 pk = true)
    (hsrc : (pkSrcPos pk.head == position s && pkSrcIo pk.head) = true) (hm : sentBy s (pkTag pk.head) = some m)
    (hp : m.port.toNat = pkAddr pk.head) : Answers (.deliver p) s fun t =>
      t.dsp.msgs = s.dsp.msgs.map (fun x => if x.order = m.order then { m with stage := 3 } else x) ∧
      look [] t.dsp.staged (msgKey m) = look [] s.dsp.staged (msgKey m) ++ [m.order] ∧
      niCredits t (msgKey m) = niCredits s (msgKey m) - 1 ∧
      t.bank = s.bank ∧ t.deep = s.deep ∧ t.fab = s.fab ∧ t.regs = s.regs := by
  rw [Bool.and_eq_true, beq_iff_eq] at hsrc
  have staged : deliverService p.toNat pk (takeInbox p.toNat pk s) =
      reply p.toNat 9 0 [] pk.head (stageMsg m (takeInbox p.toNat pk s)) := by
    have hm' : sentBy (takeInbox p.toNat pk s) (pkTag pk.head) = some m := hm
    have hpos : pkSrcPos pk.head = position (takeInbox p.toNat pk s) ∧ pkSrcIo pk.head = true := hsrc
    rw [deliverService, if_pos hpos, hm']
    exact if_pos hp
  have next : exec (.deliver p) s = .next (reply p.toNat 9 0 [] pk.head (stageMsg m (takeInbox p.toNat pk s))) :=
    congrArg _ ((serve_of_serves h _).trans staged)
  refine .of_next next ?_
  obtain ⟨bufs, waitQ, owed, answered⟩ := reply_only p.toNat 9 0 [] pk.head (stageMsg m (takeInbox p.toNat pk s))
  rw [answered]
  exact ⟨rfl, look_upd_same .., look_upd_same .., rfl, rfl, rfl, rfl⟩

/-! Responses (R125). -/

/-- The tag of a response at pavilion `p` is completed: the response is consumed, and its place there is free (R108). -/
def tagCompleted (s : State) (p : Pav) (pk : Packet) (code : Nat) : State :=
  { s with
    net := { s.net with inbox := upd [] s.net.inbox p.toNat ((look [] s.net.inbox p.toNat).erase pk),
                        owed := upd 0 s.net.owed p.toNat (look 0 s.net.owed p.toNat - 1) },
    out := s.out ++ [.tagDone false p (BitVec.ofNat 10 (pkTag pk.head)) (BitVec.ofNat 8 code) pk.data] }

theorem respond_completes {s : State} {p : Pav} {pk : Packet} {op : Nat} (h : nextReply s false p.toNat = some pk)
    (hb : pk.bad = false) (ho : pkOpcode pk.head = op) : respond op false p.toNat s =
      tagCompleted s p pk (if op = 0xA then pkAddr pk.head % 256 else ccDone) := by
  simp [respond, h, hb, ho, takeReply, takeInbox, setOwed, emit, tagCompleted]

/-! MGMT (R125, R330). -/

/-- The head of an RESP_ACK of the I/O die says its opcode. -/
theorem pkOpcode_ioAck {pos dst src : Nat} (tag : Nat) (hp : pos < 16) (hd : dst < 128) (hs : src < 16) :
    pkOpcode (mkHead 9 pos false dst src true 0 tag 0 0 0) = 9 := by
  unfold pkOpcode mkHead
  rw [bits_eq, BitVec.toNat_ofNat]
  simp only [Bool.toNat_false, Bool.toNat_true]
  omega

theorem routed_vn {s : State} {p : Nat} {h : BitVec 64} {data : List (BitVec 64)} {x : Packet}
    (hx : routed s p h data = some x) : x.vn = BitVec.ofNat 2 (vnOf (pkOpcode h)) ∧ x.data = data := by
  unfold routed at hx
  dsimp only at hx
  split at hx
  · obtain rfl := Option.some.inj hx
    exact ⟨rfl, rfl⟩
  · exact absurd hx (Option.some_ne_none x).symm

/-- A response of the I/O die enters its gateway's buffer, where none waits before it and there is room. -/
theorem buf_enqueuePacket_io {s : State} {r : Nat} {x : Packet} (hv : x.vn = 2) (hw : waiting s (bufKey r 5 2) = [])
    (hroom : hasRoom s (bufKey r 5 2) 2 (pkSize x) = true) :
    buf (enqueuePacket r 5 x s) (bufKey r 5 2) = buf s (bufKey r 5 2) ++ [x] := by
  have key : bufKey r 5 x.vn.toNat = bufKey r 5 2 := by rw [hv]; rfl
  have takes : inputTakes s r 5 x = true := by simp [inputTakes, heldBy, ownRequest, hv, hroom]
  simp [enqueuePacket, enter, key, hw, takes, ownRequest, buf, setBuf]

/-- The I/O die's acknowledgement of a MGMT packet of this package. -/
def noticeAck (s : State) (pk : Packet) : BitVec 64 :=
  mkHead 9 (pkSrcPos pk.head) false (pkSrcPav pk.head) (position s) true 0 (pkTag pk.head) 0 0 0

/-- The I/O die has taken a packet. -/
def ioTaken (s : State) (pk : Packet) : State := { s with net := { s.net with ioIn := s.net.ioIn.erase pk } }

/-- The key, as `piKey` makes it, that a notice names. -/
def noticeKey (pk : Packet) : Nat := piKey (bits (pk.data.headD 0) 0 12) (bits (pk.data.headD 0) 12 1)

/-- The unclaimed credits after a notice: a credit is one more, a landing none (R330, R333). -/
def noticed (s : State) (pk : Packet) : Sparse Nat :=
  if (pk.data.headD 0).getLsbD 13 then upd 0 s.dsp.unclaimed (noticeKey pk) (look 0 s.dsp.unclaimed (noticeKey pk) + 1)
  else s.dsp.unclaimed

section
variable {s : State} {pk : Packet} (h : (s.net.ioIn.find? fun pk => pk.vn == 3) = some pk)
  (hn : noticeOf s (fun _ => true) pk = true)
include h hn

theorem exec_mgmt : exec .mgmt s = .next
    { queued 0 5 (routed s 0 (noticeAck s pk) []) (ioTaken s pk) with dsp := { s.dsp with unclaimed := noticed s pk } } := by
  have own : pkSrcIo pk.head = false := by
    simp only [noticeOf, Bool.and_eq_true, Bool.not_eq_true'] at hn
    exact hn.1.2
  have answer : ioAnswer 9 0 pk.head (ioTaken s pk) = queued 0 5 (routed s 0 (noticeAck s pk) []) (ioTaken s pk) := by
    unfold ioAnswer
    dsimp only
    rw [own, if_neg (by simp)]
    rfl
  have taken : takeNotice s = iff (noticeOf s (fun _ => true) pk && (pk.data.headD 0).getLsbD 13)
      (setUnclaimed (noticeKey pk) (unclaimed (ioAnswer 9 0 pk.head (ioTaken s pk)) (noticeKey pk) + 1))
      (ioAnswer 9 0 pk.head (ioTaken s pk)) := by
    rw [takeNotice, h]
    rfl
  obtain ⟨bufs, waitQ, owed, only⟩ := queued_only 0 5 (routed s 0 (noticeAck s pk) []) (ioTaken s pk)
  refine congrArg Host.Outcome.next ?_
  rw [taken, answer, hn, only]
  unfold noticed
  cases (pk.data.headD 0).getLsbD 13 <;> rfl

/-- A notice of this package is taken and acknowledged, and a credit enters the matching store. -/
theorem mgmt_takes : Answers .mgmt s fun t =>
    t = { s with net := t.net, dsp := { s.dsp with unclaimed := noticed s pk } } ∧
    t.net.ioIn = s.net.ioIn.erase pk ∧ t.net.inbox = s.net.inbox ∧ t.net.flits = s.net.flits ∧
    (∀ x, routed s 0 (noticeAck s pk) [] = some x → waiting s (bufKey 0 5 2) = [] →
      hasRoom s (bufKey 0 5 2) 2 1 = true → buf t (bufKey 0 5 2) = buf s (bufKey 0 5 2) ++ [x]) := by
  refine .of_next (exec_mgmt h hn) ?_
  have acked : ∀ x, routed s 0 (noticeAck s pk) [] = some x → waiting s (bufKey 0 5 2) = [] →
      hasRoom s (bufKey 0 5 2) 2 1 = true →
      buf (queued 0 5 (routed s 0 (noticeAck s pk) []) (ioTaken s pk)) (bufKey 0 5 2) = buf s (bufKey 0 5 2) ++ [x] :=
    fun x hx hw hr => by
      obtain ⟨hv, hd⟩ := routed_vn hx
      have hop : pkOpcode (noticeAck s pk) = 9 :=
        pkOpcode_ioAck _ (BitVec.isLt _) (BitVec.isLt _) (BitVec.isLt _)
      rw [hop] at hv
      have size : pkSize x = 1 := by simp [pkSize, hd]
      rw [hx]
      exact buf_enqueuePacket_io (s := ioTaken s pk) hv hw (size ▸ hr)
  obtain ⟨bufs, waitQ, owed, only⟩ := queued_only 0 5 (routed s 0 (noticeAck s pk) []) (ioTaken s pk)
  rw [only] at acked ⊢
  exact ⟨rfl, rfl, rfl, rfl, acked⟩

end

/-- Settles O13: each service is performed on the packet taken from its inbox, a response completes its tag, and the I/O
die's acknowledgement enters at gateway 0. -/
theorem packetOtherServices : Obligations.PacketOtherServices := by
  unfold Obligations.PacketOtherServices
  refine ⟨⟨fun s p pk h => regRd_answers h, fun s p pk h => regWr_answers h,
      fun s p pk addr word d h hd hf hs => cfgWr_writes h hd hf hs, fun s p pk addr word h hf => cfgRd_answers h hf,
      fun s p pk m h hsrc hm hp => deliver_stages h hsrc hm hp⟩,
    fun s p pk h hb => ⟨fun ho => ?_, fun ho => ?_, fun ho => ?_⟩, fun s pk h hn => mgmt_takes h hn⟩
  · exact congrArg _ (respond_completes h hb ho)
  · exact congrArg _ (respond_completes h hb ho)
  · exact congrArg _ (respond_completes h hb ho)

end Sys2Proof.Machine
end

section
/-! PROOFS. POWER_DOMAIN as a command of the mailbox (R305, R464): what its start and its completion leave to the operation
between them. -/

namespace Sys2Proof.Machine

/-! What the mailbox leaves alone. -/

section
variable {s x : State} (h : Mailed s x)
include h

theorem Mailed.design : SameDesign s x := by
  obtain ⟨⟨_, _, _, _, _, rfl⟩, -⟩ := h
  exact .refl s

theorem Mailed.units : x.net = s.net ∧ x.lnk = s.lnk ∧ x.hlt = s.hlt ∧ x.fuses = s.fuses := by
  obtain ⟨⟨_, _, _, _, _, rfl⟩, -⟩ := h
  exact ⟨rfl, rfl, rfl, rfl⟩

theorem Mailed.fld {f : Fld} (hf : 0x10040 ≤ f.a) : fld x f = fld s f := fld_of_reg (h.2 f.a (.inr hf))

theorem Mailed.domDie (d : Nat) : Machine.fld x (fDomDie d) = Machine.fld s (fDomDie d) :=
  h.fld (show 0x10040 ≤ 0x20004 by decide)

theorem Mailed.domStore (d : Nat) : Machine.fld x (fDomStore d) = Machine.fld s (fDomStore d) :=
  h.fld (show 0x10040 ≤ 0x20004 by decide)

theorem Mailed.domLnk (n : Nat) : Machine.fld x (fDomLnk n) = Machine.fld s (fDomLnk n) :=
  h.fld (show 0x10040 ≤ 0x20008 by decide)

theorem Mailed.portState (p : Nat) : portState x p = portState s p := by
  obtain ⟨hn, -, hh, hf⟩ := h.units
  exact portState_of_same (congrArg Net.ports hn) hf hh p

theorem Mailed.enabled (p : Nat) : enabled x p = enabled s p := by
  obtain ⟨-, -, hh, hf⟩ := h.units
  exact enabled_of_same hf hh p

theorem Mailed.usedPav (p : Nat) : usedPav x p = usedPav s p := by
  obtain ⟨-, -, -, -, hl⟩ := h.keeps
  simp only [Machine.usedPav, header, hl]

theorem Mailed.haltNow (cause : Nat) : haltNow x cause = haltNow s cause := by
  obtain ⟨-, hc, -, hw, -⟩ := h.keeps
  exact haltNow_of_same cause hc hw (h.2 0xB0050 (by decide))

end

/-! A command begun and completed. -/

/-- The state in which a short command performs its operation (R305). -/
def begunShort (cmd : Nat) (m : MbxArgs) (s : State) : State :=
  mbxBegin cmd false m.irq m.seq (setFlag ⟨0x10000, 31, 1⟩ m.irq (setFld ⟨0x10000, 8, 8⟩ m.seq.toNat
    (setFld ⟨0x10000, 0, 8⟩ cmd (writeArgs m (keeperUp s)))))

theorem mbxShort_eq {s : State} (cmd : Nat) (m : MbxArgs) (f : State → State × MbxRes) (h : mbxFree s = true) :
    mbxShort cmd m f s = mbxEnd (f (begunShort cmd m s)).2 (f (begunShort cmd m s)).1 := by
  simp only [mbxFree, Bool.and_eq_true, Bool.not_eq_true', beq_iff_eq] at h
  obtain ⟨⟨ho, hb⟩, hu⟩ := h
  unfold mbxShort mbxWrite
  rw [ho, hb, hu]
  rfl

theorem mailed_begunShort (cmd : Nat) (m : MbxArgs) (s : State) : Mailed s (begunShort cmd m s) := by
  have words := ((mailed_setFld (f := ⟨0x10000, 0, 8⟩) cmd (writeArgs m (keeperUp s)) (by decide) (by decide)).trans
    (mailed_setFld (f := ⟨0x10000, 8, 8⟩) m.seq.toNat _ (by decide) (by decide))).trans
      (mailed_setFld (f := ⟨0x10000, 31, 1⟩) m.irq.toNat _ (by decide) (by decide))
  exact (((mailed_keeperUp s).trans (mailed_writeArgs m _)).trans words).trans (mailed_mbxBegin _ _ _ _ _)

/-- A command wakes the Keeper, and the power state is else as it was (R476). -/
theorem begunShort_pwr (cmd : Nat) (m : MbxArgs) (s : State) :
    ∃ asleep, (begunShort cmd m s).pwr = { s.pwr with asleep := asleep } := by
  have begun : (begunShort cmd m s).pwr = (keeperUp s).pwr := commit_pwr ..
  rw [begun, keeperUp]
  split
  · exact ⟨false, by simp⟩
  · exact ⟨s.pwr.asleep, rfl⟩

/-- A completion shows its first result word, none waits any more, and the power state is as it was (R305). -/
theorem mbxEnd_shows (r : MbxRes) (s : State) : reg (mbxEnd r s) 0x10030 = r.r0 ∧ (mbxEnd r s).hif.due = none ∧
    (mbxEnd r s).pwr = s.pwr := by
  have served : ∀ (c : Bool) (x : State), (iff c (interrupt 0 0) x).regs = x.regs ∧
      (iff c (interrupt 0 0) x).hif.due = x.hif.due ∧ (iff c (interrupt 0 0) x).pwr = x.pwr := fun c x => by
    cases c
    · exact ⟨rfl, rfl, rfl⟩
    · rw [iff_yes, interrupt_frame]
      exact ⟨rfl, rfl, rfl⟩
  let s1 := setReg 0x10030 r.r0 (setReg 0x10034 r.r1 (setReg 0x10038 r.r2 (setReg 0x1003C r.r3 s)))
  let s2 := commandPacket r.code.toNat true (setFld fMbxCode r.code.toNat s1)
  have word : reg s2 0x10030 = r.r0 :=
    (reg_commit ..).trans ((reg_setFld_ne _ s1 (by decide)).trans (reg_setReg_same _ _ _))
  have pwr : s2.pwr = s.pwr := commit_pwr ..
  obtain ⟨regs, due, same⟩ := served s.hif.irq { s2 with hif := { s2.hif with busy := false, irq := false, due := none } }
  exact ⟨(reg_of_regs regs _).trans word, due, same.trans pwr⟩

theorem mbxDone_mbxEnd {code : Nat} (r0 : Nat) (s : State) (h : code < 256) :
    MbxDone (mbxEnd (mbxRes code r0) s) code r0 := by
  obtain ⟨-, shown, free⟩ := mbxEnd_completes (mbxRes code r0) s
  obtain ⟨word, due, -⟩ := mbxEnd_shows (mbxRes code r0) s
  exact ⟨shown.trans (Nat.mod_eq_of_lt h), word, free, due⟩

/-- A POWER_DOMAIN command that obeys R464: what its operation makes of the state in which it is performed is what it
answers, but for the mailbox. -/
theorem Answers.of_powerDomain {s : State} {m : MbxArgs} {c : Instr} {op : Nat} {f : State → State × MbxRes}
    {P : State → Prop} (hc : exec c s = .next (powerDomain op m f s)) (free : mbxFree s = true)
    (ok : powerArgOk m.a0 = true) (hop : bits m.a0 0 3 = op)
    (hf : ∀ x, Mailed s x → (∃ asleep, x.pwr = { s.pwr with asleep := asleep }) → ∃ y code r0, f x = (y, mbxRes code r0) ∧
      code < 256 ∧ ∀ t, Mailed y t → t.pwr = y.pwr → MbxDone t code r0 → P t) : Answers c s P := by
  obtain ⟨y, code, r0, performed, hcode, hP⟩ := hf _ (mailed_begunShort 0x13 m s) (begunShort_pwr 0x13 m s)
  have runs : powerDomain op m f s = mbxEnd (mbxRes code r0) y := by
    rw [powerDomain, if_pos (.inl hop.symm), mbxShort_eq _ _ _ free, ok, if_pos rfl, performed]
  obtain ⟨mailed, -⟩ := mbxEnd_completes (mbxRes code r0) y
  obtain ⟨-, -, pwr⟩ := mbxEnd_shows (mbxRes code r0) y
  exact .of_next (hc.trans (congrArg _ runs)) (hP _ mailed pwr (mbxDone_mbxEnd r0 y hcode))

end Sys2Proof.Machine
end

section
/-! PROOFS. The operations of POWER_DOMAIN (R130, R464, R465): an entry accepted, dies and ports that go down and come up. -/

namespace Sys2Proof.Machine

theorem bits_lt {n : Nat} (x : BitVec n) (lo w : Nat) : bits x lo w < 2 ^ w := BitVec.isLt _

/-! An entry to a package state (R464). -/

/-- The entry that ARG[0] asks for. -/
def entryOf0 (v : Word) : Entry := { target := argState v, resume := v.getLsbD 16, tclkWake := v.getLsbD 17 }

section
variable {s : State} {v : Word}

theorem packageState_accepts (htw : v.getLsbD 17 = false ∨ (argState v = .p2 ∧ s.cox.mode = .tethered))
    (hne : argState v ≠ s.pwr.st) (h0 : argState v ≠ .p0) (he : s.pwr.entry = none) (hn : s.pwr.entering = false)
    (hb : s.cox.board = .formed ∨ s.cox.board = .none) (hw : s.cox.st ≠ .wait) : ∃ r0, packageState v s =
      (iff (inCourse s) (raiseHalt hcCommand) { s with pwr := { s.pwr with entry := some (entryOf0 v), resuming := false } },
        mbxRes ccDone r0) := by
  have mode : (v.getLsbD 17 && (argState v != .p2 || s.cox.mode != .tethered)) = false := by
    rcases htw with h | ⟨h, hm⟩
    · rw [h, Bool.false_and]
    · rw [h, hm]
      exact Bool.and_false _
  have board : (s.cox.board != .formed && s.cox.board != .none) = false := by
    rcases hb with h | h <;> simp [h]
  unfold packageState
  simp only [mode, beq_eq_false_iff_ne.mpr hne, beq_eq_false_iff_ne.mpr h0, he, hn, board, beq_eq_false_iff_ne.mpr hw,
    Option.isSome_none, Bool.or_self, Bool.false_eq_true, if_false]
  cases inCourse s
  · exact ⟨_, rfl⟩
  · exact ⟨_, rfl⟩

/-- An entry accepted raises a halt where a course runs, and touches no value of the design. -/
theorem entryAccepted_spec (x : State) (e : Entry) (h : x = { s with pwr := { s.pwr with entry := some e, resuming := false } }) :
    SameDesign s (iff (inCourse s) (raiseHalt hcCommand) x) ∧
    (iff (inCourse s) (raiseHalt hcCommand) x).pwr.entry = some e ∧
    (inCourse s = true → haltNow s hcCommand ∈ (iff (inCourse s) (raiseHalt hcCommand) x).cox.halts) ∧
    (inCourse s = false → (iff (inCourse s) (raiseHalt hcCommand) x).cox = s.cox) := by
  subst h
  cases hi : inCourse s
  case false => exact ⟨.refl s, rfl, fun h => (Bool.noConfusion h), fun _ => rfl⟩
  case true =>
    have raised := haltNow_mem_raiseHalt hcCommand
      (s := { s with pwr := { s.pwr with entry := some e, resuming := false } }) (by
        rw [show inCourse { s with pwr := { s.pwr with entry := some e, resuming := false } } = inCourse s from rfl, hi]
        rfl)
    obtain ⟨halts, out, only⟩ := raiseHalt_only hcCommand { s with pwr := { s.pwr with entry := some e, resuming := false } }
    rw [only] at raised
    rw [iff_yes, only]
    exact ⟨.refl s, rfl, fun _ => raised, fun h => Bool.noConfusion h⟩

end

/-! Dies (R130, R465). -/

section
variable {d : Nat}

theorem dieBit (hd : d < 4) : (BitVec.ofNat 4 (2 ^ d)).getLsbD d = true := by
  rw [BitVec.getLsbD_ofNat, Nat.testBit_two_pow_self]
  simpa using hd

theorem quiet_portsDown (l : List Nat) (s : State) : Quiet s (l.foldl (fun x p => iff (enabled x p) (portDowns p) x) s) :=
  .foldl (fun x p => .iff _ (quiet_outside x : Quiet x (portDowns p x))) l s

theorem quiet_portsUp (d : Nat) (s : State) : Quiet s (portsUp d s) :=
  .foldl (fun x p => .iff _ (quiet_outside x : Quiet x (portUps p x))) _ s

theorem portState_portsDown {s : State} {p : Nat} (hp : p ∈ pavsOfDie d) (he : enabled s p = true) :
    portState ((pavsOfDie d).foldl (fun x q => iff (enabled x q) (portDowns q) x) s) p = .down := by
  have same : ∀ x q, enabled (iff (enabled x q) (portDowns q) x) p = enabled x p := fun x q =>
    enabled_of_same (by rw [iff_proj State.fuses]; exact ite_self _) (by rw [iff_proj State.hlt]; exact ite_self _) p
  refine (foldl_at (P := fun x => enabled x p = true) (Q := fun x => enabled x p = true ∧ portState x p = .down)
    (pavsOfDie_nodup d) hp (fun x q _ _ hx => (same x q).trans hx) (fun x hx => ⟨(same x p).trans hx, ?_⟩)
    (fun x q _ hne ⟨hx, hq⟩ => ⟨(same x q).trans hx, ?_⟩) he).2
  · rw [portState, same, hx, iff, if_pos rfl, if_pos rfl, portDowns, look_ports_setPort]
  · rw [portState, hx, if_pos rfl] at hq
    rw [portState, same, hx, if_pos rfl, iff]
    split
    · exact (look_ports_setPort_ne _ _ hne.symm).trans hq
    · exact hq

theorem dieDown_free {s : State} (h : ((pavsOfDie d).any fun p => usedPav s p || portState s p == .reconf) = false)
    (hd : d < 4) : ∃ y, dieDown d s = (y, mbxRes ccDone 0) ∧ SameDesign s y ∧ fld y (fDomDie d) = 3 ∧
      fld y (fDomStore d) = 3 ∧ y.pwr.dieOff.getLsbD d = true ∧
      ∀ p ∈ pavsOfDie d, enabled s p = true → portState y p = .down := by
  unfold dieDown
  rw [h, if_neg Bool.false_ne_true]
  extract_lets bit net s1 s2 pwr
  have ports : Quiet s s1 := (quiet_outside s).trans (quiet_portsDown _ _)
  have down : ∀ p ∈ pavsOfDie d, enabled s p = true → portState s1 p = .down := fun p hp he =>
    portState_portsDown (s := { s with net := { s.net with fenced := s.net.fenced ||| bit } }) hp he
  clear_value s1
  obtain ⟨hdie, hstore⟩ := fld_die_both d 3 s1 hd (by decide)
  refine ⟨_, rfl, (ports.toKeepsDesign.trans (keepsDesign_regs s1)).design, hdie, hstore, ?_, down⟩
  simp only [BitVec.getLsbD_or, bit, dieBit hd, Bool.or_true]

/-- A die comes on, whether packets wait in its wake latch or not (R126, R465). -/
theorem dieOn_on (hd : d < 4) (s : State) : dieIsOn (dieOn d s) d = true ∧ (dieOn d s).pwr.dieOff.getLsbD d = false ∧
    KeepsDesign s (dieOn d s) := by
  unfold dieOn
  extract_lets bit s1 net pwr s2
  have k1 : KeepsDesign s s1 := (KeepsDesign.iff _ (keepsDesign_regs s)).trans (keepsDesign_regs _)
  obtain ⟨hdie, hstore⟩ : fld s2 (fDomDie d) = 0 ∧ fld s2 (fDomStore d) = 0 := fld_die_both d 0 _ hd (by decide)
  have ups : Quiet s2 (iff ((look [] s.net.latch d).isEmpty) (portsUp d) s2) :=
    .iff _ (quiet_portsUp d s2)
  have off : s2.pwr.dieOff.getLsbD d = false := by
    rw [show s2.pwr.dieOff = s1.pwr.dieOff &&& ~~~bit from rfl, BitVec.getLsbD_and, BitVec.getLsbD_not, dieBit hd]
    simp
  have k2 : KeepsDesign s s2 := k1.trans (keepsDesign_regs s1)
  clear_value s2
  refine ⟨?_, by rw [ups.pwr]; exact off, k2.trans ups.toKeepsDesign⟩
  rw [dieIsOn, ups.fld (fDomDie d) (show PwrReg 0x20004 by decide), ups.fld (fDomStore d) (show PwrReg 0x20004 by decide),
    hdie, hstore]
  rfl

/-- A die that fails to wake (R130, R471). -/
theorem dieFails_dead (hd : d < 4) (s : State) : (dieFails d s).pwr.dieDead.getLsbD d = true ∧
    (∀ p ∈ pavsOfDie d, portState (dieFails d s) p = .dead) ∧ KeepsDesign s (dieFails d s) := by
  obtain ⟨dead, -, ports⟩ := diePavsDead_spec hd (setFld (fDomDie d) 3 (setFld (fDomStore d) 3 s))
  exact ⟨dead, ports, (keepsDesign_regs s).trans (keepsDesign_diePavsDead d _)⟩

end

/-! Ports (R465). -/

section
variable {n : Nat}

/-- The master of a board loses no way to its parent (R240). -/
theorem isolate_of_master {s : State} (h : isMaster s = true) : isolate s = s := by
  unfold isolate
  rw [h]
  simp

/-- A package that belongs to no board has none to lose. -/
theorem quiet_boardLoses_alone {s : State} (st : LnkState) (h : s.cox.board = .none) : Quiet s (boardLoses n st s) := by
  have inactive := quiet_setPortActive n false s
  have none : (setPortActive n false s).cox.board = .none := h
  have alone : toForming (setPortActive n false s) = setPortActive n false s := by
    rw [toForming, none]
    rfl
  have master : isMaster (setPortActive n false s) = true := by
    rw [isMaster, none]
    rfl
  unfold boardLoses
  dsimp only
  split
  · exact inactive
  · rw [h, if_neg (by decide), alone, isolate_of_master master]
    exact inactive

/-- A port that the board does not expect, or of a package that belongs to none, is OFF without a loss. -/
theorem quiet_portOff {s : State} (h : (portExpected s n && s.cox.board != .none) = false) : Quiet s (portOff n s) := by
  rcases Bool.and_eq_false_iff.mp h with h | h
  · exact quiet_portOff_unexpected h
  refine Quiet.trans ?_ ((quiet_lnkReset n _).trans (quiet_setDomLnk n 3 _))
  split
  · exact .refl s
  · obtain ⟨x, y, hx, -, rfl | rfl, hy⟩ := leavePort_factors n .off lcCommand s
    · exact hx.trans hy
    · have alone : x.cox.board = .none := by simpa [hx.cox] using h
      exact (hx.trans (quiet_boardLoses_alone .off alone)).trans hy

theorem portOff_shows (hn : n < 8) (s : State) : fld (portOff n s) (fDomLnk n) = 3 ∧ (lnkPort (portOff n s) n).st = .off :=
  ⟨fld_setFld _ _ _ (by simp only [fDomLnk]; omega), congrArg LnkPort.st (lnkPort_setLnk n LnkPort.off _)⟩

/-- A port that has gone through reset is enabled (R272). -/
theorem flag_enable_lnkReset (hn : n < 8) (s : State) : flag (lnkReset n s) (fLnkEnable n) = true := by
  have one : ∀ k, k < 8 → regReset (lnkA k) = 1 := by decide
  have word : reg (lnkReset n s) (lnkA n) = 1 := by
    unfold lnkReset
    rw [setFlag, reg_setFld_ne _ _ (by simp [fLnkExpected])]
    rw [reg, setLnk_regs, look_filter (keep := fun a => !decide (lnkA n ≤ a ∧ a < lnkA n + 0x10000)), one n hn]
    simp
  rw [flag, fld, show (fLnkEnable n).a = lnkA n from rfl, word]
  rfl

/-- A port in OFF that is enabled and whose domain is on leaves for DETECT once the links are open (R16, R262). -/
theorem leaveOff_st {s : State} (off : (lnkPort s n).st = .off) (en : flag s (fLnkEnable n) = true)
    (dom : fld s (fDomLnk n) = 0) : (lnkPort (leaveOff s n) n).st = (if s.pwr.linksOpen then .detect else .off) ∧
      fld (leaveOff s n) (fDomLnk n) = 0 := by
  unfold leaveOff
  rw [off, en, dom]
  cases ho : s.pwr.linksOpen
  · exact ⟨off, dom⟩
  · have same : ∀ x, reg (setFld (fLnkCause n) lcCommand x) 0x20008 = reg x 0x20008 := fun x =>
      reg_setFld_ne _ x (by simp only [fLnkCause, lnkA]; omega)
    have left : ∀ (c : Bool) (x : State), (iff c (setFld (fLnkCause n) lcCommand) x).lnk = x.lnk ∧
        reg (iff c (setFld (fLnkCause n) lcCommand) x) 0x20008 = reg x 0x20008 := fun c x => by
      cases c
      · exact ⟨rfl, rfl⟩
      · exact ⟨rfl, same x⟩
    obtain ⟨hl, hr⟩ := left (flag s (fLnkTest n)) (setLnkState n .detect s)
    rw [if_pos (by rfl), lnkPort, hl]
    exact ⟨congrArg LnkPort.st (lnkPort_setLnk n _ s), (fld_of_reg hr).trans dom⟩

theorem portUp_shows (hn : n < 8) {s : State} (h : fld s (fDomLnk n) = 3) : ∃ y, portUp n s = (y, mbxRes ccDone 0) ∧
    Quiet s y ∧ fld y (fDomLnk n) = 0 ∧ (lnkPort y n).st = (if s.pwr.linksOpen then .detect else .off) := by
  have quiet := (quiet_lnkReset n s).trans (quiet_setDomLnk n 0 (lnkReset n s))
  have enabled : flag (setFld (fDomLnk n) 0 (lnkReset n s)) (fLnkEnable n) = true :=
    (congrArg (· != 0) (fld_of_reg <| reg_setFld_ne 0 _ (by simp only [fLnkEnable, fDomLnk, lnkA]; omega))).trans
      (flag_enable_lnkReset hn s)
  obtain ⟨st, dom⟩ := leaveOff_st (n := n) (s := setFld (fDomLnk n) 0 (lnkReset n s))
    (congrArg LnkPort.st (lnkPort_setLnk n LnkPort.off _)) enabled
    (fld_setFld _ 0 _ (by simp only [fDomLnk]; omega))
  rw [quiet.pwr] at st
  exact ⟨_, by rw [portUp, if_pos h], quiet.trans (quiet_leaveOff _ n), dom, st⟩

end

end Sys2Proof.Machine
end

section
/-! PROOFS. What POWER_DOMAIN answers, operation by operation (R130, R464, R465). -/

namespace Sys2Proof.Machine

section
variable {s : State} {m : MbxArgs}

theorem packageState_answers (free : mbxFree s = true) (ok : powerArgOk m.a0 = true) (hop : bits m.a0 0 3 = 0)
    (htw : m.a0.getLsbD 17 = false ∨ (argState m.a0 = .p2 ∧ s.cox.mode = .tethered)) (hne : argState m.a0 ≠ s.pwr.st)
    (h0 : argState m.a0 ≠ .p0) (he : s.pwr.entry = none) (hn : s.pwr.entering = false)
    (hb : s.cox.board = .formed ∨ s.cox.board = .none) (hw : s.cox.st ≠ .wait) : Answers (.packageState m) s fun t =>
      t.pwr.entry = some (entryOf0 m.a0) ∧ fld t fMbxCode = ccDone ∧ SameDesign s t ∧
      (inCourse s = true → haltRaised s t hcCommand) ∧ (inCourse s = false → t.cox = s.cox) := by
  refine .of_powerDomain rfl free ok hop fun x hx ⟨_, pwr⟩ => ?_
  obtain ⟨-, cox, -⟩ := hx.keeps
  obtain ⟨r0, done⟩ := packageState_accepts (s := x) (v := m.a0) (by rwa [cox]) (by rwa [pwr]) h0 (by rwa [pwr])
    (by rwa [pwr]) (by rwa [cox]) (by rwa [cox])
  obtain ⟨design, entry, raised, rests⟩ := entryAccepted_spec (s := x) _ (entryOf0 m.a0) rfl
  rw [hx.inCourse] at raised rests design entry done
  refine ⟨_, ccDone, r0, done, by decide, fun t ht hp ⟨code, _⟩ => ?_⟩
  obtain ⟨-, tcox, -⟩ := ht.keeps
  refine ⟨hp ▸ entry, code, (hx.design.trans design).trans ht.design, fun h => ?_, fun h => ?_⟩
  · exact haltRaised_of_mem (by decide) (tcox ▸ hx.haltNow hcCommand ▸ raised h)
  · exact tcox.trans ((rests h).trans cox)

section
variable {d : Nat} (free : mbxFree s = true) (ok : powerArgOk m.a0 = true) (hd : bits m.a0 8 2 = d)
include free ok hd

theorem dieDown_refuses (hop : bits m.a0 0 3 = 1)
    (h : ((pavsOfDie d).any fun p => usedPav s p || portState s p == .reconf) = true) :
    Answers (.dieDown m) s fun t => MbxDone t ccBusyInUse 0 ∧ t.pwr.dieOff = s.pwr.dieOff ∧ t.net = s.net := by
  subst hd
  refine .of_powerDomain rfl free ok hop fun x hx ⟨_, pwr⟩ => ?_
  have used : ((pavsOfDie (bits m.a0 8 2)).any fun p => usedPav x p || portState x p == .reconf) = true := by
    simpa only [hx.usedPav, hx.portState] using h
  obtain ⟨net, -⟩ := hx.units
  refine ⟨x, ccBusyInUse, 0, by rw [dieDown, if_pos used], by decide, fun t ht hp done => ⟨done, ?_, ?_⟩⟩
  · rw [hp, pwr]
  · exact ht.units.1.trans net

theorem dieDown_goesDown (hop : bits m.a0 0 3 = 1)
    (h : ((pavsOfDie d).any fun p => usedPav s p || portState s p == .reconf) = false) :
    Answers (.dieDown m) s fun t => MbxDone t ccDone 0 ∧ fld t (fDomDie d) = 3 ∧ fld t (fDomStore d) = 3 ∧
      t.pwr.dieOff.getLsbD d = true ∧ (∀ p ∈ pavsOfDie d, enabled s p = true → portState t p = .down) ∧
      SameDesign s t := by
  subst hd
  refine .of_powerDomain rfl free ok hop fun x hx _ => ?_
  obtain ⟨y, performed, design, die, store, off, down⟩ := dieDown_free (s := x) (d := bits m.a0 8 2)
    (by simpa only [hx.usedPav, hx.portState] using h) (bits_lt m.a0 8 2)
  refine ⟨y, ccDone, 0, performed, by decide, fun t ht hp done => ⟨done, (ht.domDie _).trans die,
    (ht.domStore _).trans store, hp ▸ off, fun p hm he => ?_, (hx.design.trans design).trans ht.design⟩⟩
  exact (ht.portState p).trans (down p hm ((hx.enabled p).trans he))

/-- A die that is off, after a clock self-test that has passed, is woken (R465, R522). -/
theorem dieUp_wakes (hop : bits m.a0 0 3 = 2) (hc : s.hlt.clocksBad = false) (off : dieIsOn s d = false) :
    (Answers (.dieUp m true) s fun t => MbxDone t ccDone 0 ∧ dieIsOn t d = true ∧ t.pwr.dieOff.getLsbD d = false ∧
      SameDesign s t) ∧
    Answers (.dieUp m false) s fun t => MbxDone t ccWakeTimeout 0 ∧ t.pwr.dieDead.getLsbD d = true ∧
      (∀ p ∈ pavsOfDie d, portState t p = .dead) ∧ SameDesign s t := by
  subst hd
  have same : ∀ u v, Mailed u v → dieIsOn v (bits m.a0 8 2) = dieIsOn u (bits m.a0 8 2) := fun u v h => by
    rw [dieIsOn, dieIsOn, h.domDie, h.domStore]
  have wakes : ∀ x, Mailed s x → ∀ ready, dieUp (bits m.a0 8 2) ready x =
      if ready then (dieOn (bits m.a0 8 2) x, mbxRes ccDone 0) else (dieFails (bits m.a0 8 2) x, mbxRes ccWakeTimeout 0) :=
    fun x hx ready => by
      obtain ⟨-, -, hlt, -⟩ := hx.units
      rw [dieUp, hlt, hc, same s x hx, off]
      rfl
  constructor
  · refine .of_powerDomain rfl free ok hop fun x hx _ => ?_
    obtain ⟨on, held, kept⟩ := dieOn_on (bits_lt m.a0 8 2) x
    exact ⟨_, ccDone, 0, wakes x hx true, by decide, fun t ht hp done =>
      ⟨done, (same _ t ht).trans on, hp ▸ held, (hx.design.trans kept.design).trans ht.design⟩⟩
  · refine .of_powerDomain rfl free ok hop fun x hx _ => ?_
    obtain ⟨dead, ports, kept⟩ := dieFails_dead (bits_lt m.a0 8 2) x
    exact ⟨_, ccWakeTimeout, 0, wakes x hx false, by decide, fun t ht hp done =>
      ⟨done, hp ▸ dead, fun p h => (ht.portState p).trans (ports p h), (hx.design.trans kept.design).trans ht.design⟩⟩

end

section
variable {n : Nat} (free : mbxFree s = true) (ok : powerArgOk m.a0 = true) (hn : bits m.a0 12 3 = n)
include free ok hn

theorem portDown_goesDown (hop : bits m.a0 0 3 = 3) (h : (portExpected s n && s.cox.board != .none) = false) :
    Answers (.portDown m) s fun t =>
      MbxDone t ccDone 0 ∧ fld t (fDomLnk n) = 3 ∧ (lnkPort t n).st = .off ∧ SameDesign s t := by
  subst hn
  refine .of_powerDomain rfl free ok hop fun x hx _ => ?_
  obtain ⟨-, cox, -⟩ := hx.keeps
  have spared : (portExpected x (bits m.a0 12 3) && x.cox.board != .none) = false := by
    rw [portExpected_of_reg (hx.2 0xB008C (by decide)), cox]
    exact h
  obtain ⟨dom, st⟩ := portOff_shows (bits_lt m.a0 12 3) x
  refine ⟨_, ccDone, 0, by rw [portDown, spared, if_neg Bool.false_ne_true], by decide, fun t ht _ done =>
    ⟨done, (ht.domLnk _).trans dom, ?_, (hx.design.trans (quiet_portOff spared).design).trans ht.design⟩⟩
  obtain ⟨-, lnk, -⟩ := ht.units
  rw [lnkPort, lnk]
  exact st

theorem portUp_comesUp (hop : bits m.a0 0 3 = 4) (h : fld s (fDomLnk n) = 3) : Answers (.portUp m) s fun t =>
    MbxDone t ccDone 0 ∧ fld t (fDomLnk n) = 0 ∧ (lnkPort t n).st = (if s.pwr.linksOpen then .detect else .off) ∧
    SameDesign s t := by
  subst hn
  refine .of_powerDomain rfl free ok hop fun x hx ⟨_, pwr⟩ => ?_
  obtain ⟨y, performed, quiet, dom, st⟩ := portUp_shows (bits_lt m.a0 12 3) ((hx.domLnk _).trans h)
  rw [pwr] at st
  refine ⟨y, ccDone, 0, performed, by decide, fun t ht _ done =>
    ⟨done, (ht.domLnk _).trans dom, ?_, (hx.design.trans quiet.design).trans ht.design⟩⟩
  obtain ⟨-, lnk, -⟩ := ht.units
  rw [lnkPort, lnk]
  exact st

end

end

/-- Settles O33: the mailbox takes a command and completes it without touching what the operation between reads or
writes, so that each clause is what the operation makes of the state. -/
theorem powerDomains : Obligations.PowerDomains := by
  unfold Obligations.PowerDomains
  intro s m free ok
  exact ⟨fun hop htw hne h0 he hn hb hw => packageState_answers free ok hop htw hne h0 he hn hb hw,
    fun hop h => dieDown_refuses free ok rfl hop h, fun hop h => dieDown_goesDown free ok rfl hop h,
    fun hop hc off => dieUp_wakes free ok rfl hop hc off, fun hop h => portDown_goesDown free ok rfl hop h,
    fun hop h => portUp_comesUp free ok rfl hop h⟩

end Sys2Proof.Machine
end

section
/-! PROOFS. The board as a halt leaves it (R79, R90, R216, R239): no halt, mode change or event moves a port or the board. -/

namespace Sys2Proof.Machine

/-- The ports, COX.BOARD_PORTS and the board's state are as they were. -/
structure BoardStands (s t : State) : Prop where
  lnk : t.lnk = s.lnk
  ports : reg t 0xB008C = reg s 0xB008C
  board : t.cox.board = s.cox.board

theorem BoardStands.refl (s : State) : BoardStands s s := ⟨rfl, rfl, rfl⟩

theorem BoardStands.trans {s t u : State} (h : BoardStands s t) (k : BoardStands t u) : BoardStands s u :=
  ⟨k.lnk.trans h.lnk, k.ports.trans h.ports, k.board.trans h.board⟩

theorem BoardStands.iff {s : State} {f : State → State} (c : Bool) (h : BoardStands s (f s)) : BoardStands s (iff c f s) := by
  cases c
  · exact .refl s
  · exact h

theorem BoardStands.foldl {α : Type} {f : State → α → State} (h : ∀ x a, BoardStands x (f x a)) (l : List α) (s : State) :
    BoardStands s (l.foldl f s) :=
  l.foldlRecOn f (.refl s) fun x hx a _ => hx.trans (h x a)

theorem BoardStands.of_same {s t : State} (hl : t.lnk = s.lnk) (hr : t.regs = s.regs) (hb : t.cox.board = s.cox.board) :
    BoardStands s t := ⟨hl, reg_of_regs hr _, hb⟩

/-- A change of the fields that the relation does not speak of. -/
theorem boardStands_outside (s : State) {pins net hif dsp ldr scb trg trc out free throttle lastStep reqs raised stops} :
    BoardStands s { s with
      pins := pins, net := net, hif := hif, dsp := dsp, ldr := ldr, scb := scb, trg := trg, trc := trc, out := out,
      free := free, cox := { s.cox with
        throttle := throttle, lastStep := lastStep, reqs := reqs, raised := raised, stops := stops } } :=
  ⟨rfl, rfl, rfl⟩

theorem boardStands_setReg {a : Nat} (v : Word) (s : State) (h : 0xB008C ≠ a) : BoardStands s (setReg a v s) :=
  ⟨rfl, reg_setReg_ne v s h, rfl⟩

theorem boardStands_setFld {f : Fld} (v : Nat) (s : State) (h : 0xB008C ≠ f.a) : BoardStands s (setFld f v s) :=
  boardStands_setReg _ s h

theorem boardStands_setFlag {f : Fld} (b : Bool) (s : State) (h : 0xB008C ≠ f.a) : BoardStands s (setFlag f b s) :=
  boardStands_setReg _ s h

theorem boardStands_logEvent (c l d : Nat) (s : State) : BoardStands s (logEvent c l d s) :=
  ⟨logEvent_lnk c l d s, reg_logEvent c l d s (by decide), by rw [logEvent_cox]⟩

theorem boardStands_count (a : Nat) (s : State) : BoardStands s (count a s) :=
  ⟨count_lnk a s, reg_count a s (by decide), by rw [count_cox]⟩

theorem boardStands_commit (t f o : BitVec 8) (ws : List (BitVec 64)) (s : State) : BoardStands s (commit t f o ws s) :=
  .of_same (commit_lnk ..) (commit_regs ..) (by rw [commit_cox])

theorem boardStands_emit (o : Out) (s : State) : BoardStands s (emit o s) := boardStands_outside s

/-! The data plane ends its operations, and capture stops. -/

theorem boardStands_complete (c : Nat) (e : Completion) (s : State) : BoardStands s (complete c e s) := by
  have held : ∀ x, BoardStands s (setChan c x s) := fun _ => .of_same rfl rfl rfl
  unfold complete
  dsimp only
  split
  · exact .refl s
  · split
    · exact (held _).trans (boardStands_count _ _)
    · exact held _

theorem boardStands_tooLate (c : Nat) (tag : BitVec 16) (s : State) : BoardStands s (tooLate c tag s) := by
  unfold tooLate
  exact boardStands_complete _ _ s

theorem boardStands_endMsg (m : Msg) (status detail crs dev : Nat) (s : State) :
    BoardStands s (endMsg m status detail crs dev s) := by
  have removed : BoardStands s (removeMsg m.order s) := .of_same rfl rfl rfl
  have dropped : ∀ x, BoardStands x (dropRest m.chan.toNat m.tag (restOfMsg m) x) := fun x => .of_same rfl rfl rfl
  unfold endMsg
  dsimp only
  split
  · exact removed
  · exact ((removed.trans (dropped _)).trans (boardStands_complete _ _ _)).trans
      (.foldl (fun x _ => boardStands_tooLate _ _ x) _ _)

theorem boardStands_cancelMsg (status detail : Nat) (s : State) (m : Msg) : BoardStands s (cancelMsg status detail s m) := by
  have credited : BoardStands s (returnCredit m s) :=
    (BoardStands.iff (s := s) _ (boardStands_outside s : BoardStands s (setUnclaimed _ _ s))).trans
      (.iff _ (boardStands_outside _ : BoardStands _ (setCredits _ _ _)))
  exact credited.trans (boardStands_endMsg _ _ _ _ _ _)

theorem boardStands_endHeld (w : HeldWrite) (status detail dev : Nat) (s : State) :
    BoardStands s (endHeld w status detail dev s) :=
  (boardStands_outside s).trans (boardStands_complete _ _ _)

theorem boardStands_stopDataPlane (s : State) : BoardStands s (stopDataPlane s) :=
  (BoardStands.foldl (fun x m => boardStands_cancelMsg _ _ x m) _ s).trans
    (.foldl (fun x w => boardStands_endHeld w _ _ _ x) _ _)

theorem boardStands_densEnd (cut : Bool) (s : State) : BoardStands s (densEnd cut s) := by
  have written : ∀ p i x, BoardStands x (densWrite p i cut x) := fun p i x => by
    unfold densWrite
    dsimp only
    split
    · exact .refl x
    · split
      · exact (boardStands_count _ x).trans (.iff _ (boardStands_logEvent _ _ _ _))
      · exact (boardStands_emit _ x).trans (boardStands_setFld _ _ (by decide))
  unfold densEnd
  dsimp only
  split
  · exact (BoardStands.foldl (fun x p => .foldl (fun y i => written p i y) _ x) _ s).trans (.of_same rfl rfl rfl)
  · exact .of_same rfl rfl rfl

theorem boardStands_triggerStop (s : State) : BoardStands s (triggerStop s) :=
  ((boardStands_densEnd true s).trans (boardStands_outside _)).trans (boardStands_setFlag _ _ (by decide))

/-! A mode change, and the halt of a package that waits. -/

theorem boardStands_applyMode (m : ModeSet) (s : State) : BoardStands s (applyMode m s) := by
  have service : ∀ x, BoardStands x (serviceEffects x) := fun x =>
    (boardStands_outside x : BoardStands x (pinsOff x)).trans
      ((boardStands_triggerStop _).trans (boardStands_stopDataPlane _))
  have logged : ∀ old new x, BoardStands x (logMode old new x) := fun old new x =>
    (boardStands_setFld (f := fModeAt) _ x (by decide)).trans (boardStands_logEvent _ _ _ _)
  have tethered : ∀ x : State, BoardStands x (setFlag fThrPending false (setFlag fTclkSeen false
      { x with cox := { x.cox with throttle := none, reqs := [], raised := [], stops := [] } })) := fun x =>
    (boardStands_outside x).trans ((boardStands_setFlag (f := fTclkSeen) _ _ (by decide)).trans
      (boardStands_setFlag (f := fThrPending) _ _ (by decide)))
  have pulls : ∀ x, BoardStands x (pullsOn x) := fun x => boardStands_outside x
  have released : ∀ x, BoardStands x (releasePins x) := fun x => boardStands_outside x
  unfold applyMode
  dsimp only
  refine BoardStands.trans ?_ (.iff _ (logged _ _ _))
  refine BoardStands.trans ?_ (.iff _ (released _))
  refine BoardStands.trans ?_ (.iff _ (pulls _))
  refine BoardStands.trans ?_ (.iff _ (service _))
  refine BoardStands.trans ?_ (.iff _ (tethered _))
  refine BoardStands.trans ?_ (.iff _ (boardStands_setFld 0 _ (by decide)))
  exact (BoardStands.iff _ (boardStands_densEnd true s)).trans (.of_same rfl rfl rfl)

theorem boardStands_throttleNow (s : State) : BoardStands s (throttleNow s) := by
  unfold throttleNow throttleStep
  split
  · exact (boardStands_outside s).trans ((boardStands_setFld (f := fThrLevel) _ _ (by decide)).trans
      ((boardStands_setFlag (f := fThrPending) _ _ (by decide)).trans (boardStands_logEvent _ _ _ _)))
  · exact .refl s

theorem boardStands_toLoader (st : LdState) (s : State) : BoardStands s (toLoader st s) := by
  have shown : ∀ x a b, BoardStands x (setFld fMbxStep a (setFld fMbxPct b { x with free := x.free + 1 })) := fun x a b =>
    (boardStands_outside x).trans ((boardStands_setFld (f := fMbxPct) b _ (by decide)).trans
      (boardStands_setFld (f := fMbxStep) a _ (by decide)))
  unfold toLoader showStep
  refine (boardStands_outside s : BoardStands s { s with ldr := { s.ldr with st := st } }).trans ?_
  dsimp only
  split
  · exact shown _ _ _
  · exact (shown _ _ _).trans (boardStands_commit _ _ _ _ _)

theorem boardStands_enterHalted (cause : Nat) (teth : Bool) (s : State) : BoardStands s (enterHalted cause teth s) := by
  have released : ∀ x : State, BoardStands x
      ((if flag x fHaltPins then releasePins else fun y => { y with pins := { y.pins with due := [] } }) x) := fun x => by
    split <;> exact .of_same rfl rfl rfl
  have recovers : ∀ x, BoardStands x (recoverStart x) := fun x =>
    (boardStands_outside x).trans (boardStands_setFlag (f := fRecHost) _ _ (by decide))
  unfold enterHalted
  dsimp only
  refine BoardStands.trans ?_ (boardStands_throttleNow _)
  refine BoardStands.trans ?_ (.iff _ (boardStands_toLoader _ _))
  refine BoardStands.trans ?_ (.iff _ (recovers _))
  refine BoardStands.trans ?_ (.iff _ (released _))
  exact (boardStands_setFld cause s (by decide)).trans (.of_same rfl rfl rfl)

theorem boardStands_haltHere (cause : Nat) (s : State) : BoardStands s (haltHere cause s) := by
  unfold haltHere
  dsimp only
  refine BoardStands.trans ?_ (boardStands_enterHalted _ _ _)
  split
  · exact boardStands_applyMode _ s
  · exact .refl s

/-! A halt raised, a package that isolates itself, and a packet lost with its port. -/

theorem boardStands_addHalt (h : HaltReq) (s : State) : BoardStands s (addHalt h s) := by
  obtain ⟨halts, e⟩ := addHalt_only h s
  rw [e]
  exact .of_same rfl rfl rfl

theorem boardStands_raiseHalt (cause : Nat) (s : State) : BoardStands s (raiseHalt cause s) := by
  obtain ⟨halts, out, e⟩ := raiseHalt_only cause s
  rw [e]
  exact .of_same rfl rfl rfl

theorem boardStands_isolate (s : State) : BoardStands s (isolate s) := by
  have said : ∀ m, BoardStands s (emit (.cox 5 m) (setFlag fIsolated true (logEvent evCoxIsolated locNone 0 s))) := fun m =>
    ((boardStands_logEvent _ _ _ s).trans (boardStands_setFlag _ _ (by decide))).trans (.of_same rfl rfl rfl)
  unfold isolate
  dsimp only
  split
  · split
    · exact (said _).trans (boardStands_haltHere _ _)
    · exact (said _).trans (.iff _ (boardStands_addHalt _ _))
  · exact .refl s

theorem boardStands_losePkt (s : State) (pk : Packet) : BoardStands s (losePkt s pk) := by
  have answered : ∀ x, BoardStands s (queued 0 5 x s) := fun x => by
    obtain ⟨bufs, waitQ, owed, e⟩ := queued_only 0 5 x s
    rw [e]
    exact .of_same rfl rfl rfl
  unfold losePkt ioStatus ioAnswer
  dsimp only
  split
  · exact .of_same rfl rfl rfl
  · split
    · exact .of_same rfl rfl rfl
    · exact answered _

end Sys2Proof.Machine
end

section
/-! PROOFS. A formed board loses a port (R229, R239), and measures again (R229, R230, R235). -/

namespace Sys2Proof.Machine

section
variable {s : State} {n : Nat}

/-! COX.BOARD_PORTS, bit by bit. -/

theorem testBit_bits {w : Nat} (x : BitVec w) (lo len i : Nat) :
    (bits x lo len).testBit i = (decide (i < len) && x.getLsbD (lo + i)) := BitVec.getLsbD_extractLsb' lo len x i

theorem portActive_setPortActive (hn : n < 8) (b : Bool) (s : State) : portActive (setPortActive n b s) n = b := by
  have word : reg (setPortActive n b s) 0xB008C = put (reg s 0xB008C) (8 + n) 1 b.toNat := reg_setReg_same _ _ _
  have shown : portActive (setPortActive n b s) n = (bits (reg (setPortActive n b s) 0xB008C) 8 8).testBit n := rfl
  have here : 8 + n < 32 := by omega
  rw [shown, word, testBit_bits, getLsbD_put, if_pos (by omega)]
  cases b <;> simp [hn, here]

theorem portExpected_setPortActive (b : Bool) (s : State) (m : Nat) :
    portExpected (setPortActive n b s) m = portExpected s m :=
  congrArg (Nat.testBit · m) (fld_setFld_bits _ s (.inl (Nat.le_add_right 8 n)))

theorem portActive_of_reg {s t : State} (h : reg t 0xB008C = reg s 0xB008C) (n : Nat) : portActive t n = portActive s n :=
  congrArg (Nat.testBit · n) (fld_of_reg (f := fPortsActive) h)

/-- An expected port that is not active is missing (R229). -/
theorem missingPorts_ne_zero (hn : n < 8) (he : portExpected s n = true) (ha : portActive s n = false) :
    missingPorts s ≠ 0 := by
  have inactive : (2 ^ 8 - (fld s fPortsActive + 1)).testBit n = true := by
    have off : (fld s fPortsActive).testBit n = false := ha
    have small : fld s fPortsActive < 2 ^ 8 := bits_lt _ 8 8
    rw [Nat.testBit_two_pow_sub_succ small, off]
    simp [hn]
  have missing : (missingPorts s).testBit n = true := by
    have expected : (fld s fPortsExpected).testBit n = true := he
    have others : 255 - fld s fPortsActive = 2 ^ 8 - (fld s fPortsActive + 1) := by omega
    rw [missingPorts, Nat.testBit_and, others, expected, inactive]
    rfl
  intro none
  simp [none] at missing

/-- A formed board that loses a port forms again without it, and the ports stand (R229, R239, R240). -/
theorem boardLoses_formed (st : LnkState) (hn : n < 8) (hb : s.cox.board = .formed) (he : portExpected s n = true)
    (ha : portActive s n = true) : (boardLoses n st s).cox.board = .forming ∧ portActive (boardLoses n st s) n = false ∧
      (boardLoses n st s).lnk = s.lnk := by
  let gone := setPortActive n false s
  let told := iff (s.ldr.stage != 0) (raiseHalt hcLinkLost) (logEvent evLinkLost (locUnit n 0) st.code gone)
  have stands : BoardStands gone told := (boardStands_logEvent _ _ _ _).trans (.iff _ (boardStands_raiseHalt _ _))
  have lost : portActive told n = false := (portActive_of_reg stands.ports n).trans (portActive_setPortActive hn false s)
  have expected : portExpected told n = true :=
    (portExpected_of_reg stands.ports n).trans ((portExpected_setPortActive false s n).trans he)
  have forms : boardLoses n st s = isolate { told with cox := { told.cox with board := .forming } } := by
    rw [← (toForming_of_formed (stands.board.trans hb)).2 (missingPorts_ne_zero hn expected lost)]
    simp only [boardLoses, he, ha, hb, Bool.and_self, Bool.not_true, Bool.false_eq_true, if_false, beq_self_eq_true, if_true]
    rfl
  have alone := boardStands_isolate { told with cox := { told.cox with board := .forming } }
  rw [forms]
  exact ⟨alone.board, (portActive_of_reg alone.ports n).trans lost, alone.lnk.trans stands.lnk⟩

/-- An active port of a formed board that leaves for a state is lost to the board. -/
theorem leavePort_formed (st : LnkState) (cause : Nat) (hn : n < 8) (hb : s.cox.board = .formed)
    (he : portExpected s n = true) (ha : portActive s n = true) (hs : (lnkPort s n).st = .active) :
    (leavePort n st cause s).cox.board = .forming ∧ portActive (leavePort n st cause s) n = false ∧
      (lnkPort (leavePort n st cause s) n).st = st := by
  unfold leavePort
  extract_lets x was lost s1 s2 s3
  have active : was = true := beq_iff_eq.mpr hs
  let noted := iff (was && rewriting s2) (logEvent evLinkLost (locUnit n 0) st.code) s2
  have gone : (lnkPort s1 n).st = st := congrArg LnkPort.st (lnkPort_setLnk n _ s)
  have told : BoardStands s1 noted := (BoardStands.iff _ (boardStands_count _ _)).trans (.iff _ (boardStands_logEvent _ _ _ _))
  have ports : reg noted 0xB008C = reg s 0xB008C :=
    told.ports.trans (reg_setFld_ne cause _ (by simp only [fLnkCause, lnkA]; omega))
  have loses : s3 = boardLoses n st noted := by
    rw [show s3 = iff (was || _) (boardLoses n st) noted from rfl, active]
    rfl
  obtain ⟨forming, inactive, lnk⟩ := boardLoses_formed (s := noted) st hn (told.board.trans hb)
    ((portExpected_of_reg ports n).trans he) ((portActive_of_reg ports n).trans ha)
  have packets : BoardStands (boardLoses n st noted) (((x.store.flatMap (·.2)) ++ x.txQ).foldl losePkt s3) := by
    rw [loses]
    exact .foldl boardStands_losePkt _ _
  refine ⟨packets.board.trans forming, (portActive_of_reg packets.ports n).trans inactive, ?_⟩
  rw [lnkPort, packets.lnk, lnk, told.lnk]
  exact gone

/-! Measuring again. -/

/-- One port's share of the entry to MEASURING (R229, R230). -/
def markPort (s : State) (n : Nat) : State :=
  iff (portExpected s n) (fun y => showFar n (setLnk n { lnkPort y n with markers := 1024 } y)) s

theorem toMeasuring_eq (s : State) :
    toMeasuring s = (List.range 8).foldl markPort { s with cox := { s.cox with board := .measuring } } := rfl

theorem reg_markPort (s : State) (n : Nat) {a : Nat} (h : a < 0x100000) : reg (markPort s n) a = reg s a := by
  have apart : a ≠ lnkA n + 0x80 := by unfold lnkA; omega
  unfold markPort iff
  split
  · exact (reg_setFld_ne _ _ apart).trans (reg_setFld_ne _ _ apart)
  · rfl

theorem reg_marks (k : Nat) (s : State) {a : Nat} (h : a < 0x100000) :
    reg ((List.range k).foldl markPort s) a = reg s a :=
  (List.range k).foldlRecOn (motive := fun x => reg x a = reg s a) markPort rfl fun x hx n _ => (reg_markPort x n h).trans hx

/-- No register below those of the ports changes with the entry to MEASURING. -/
theorem reg_toMeasuring (s : State) {a : Nat} (h : a < 0x100000) : reg (toMeasuring s) a = reg s a := by
  rw [toMeasuring_eq]
  exact reg_marks 8 _ h

theorem markers_markPort_same (h : portExpected s n = true) : (lnkPort (markPort s n) n).markers = 1024 := by
  unfold markPort
  rw [h]
  exact congrArg LnkPort.markers (lnkPort_setLnk n _ s)

theorem lnkPort_markPort_ne {m : Nat} (h : m ≠ n) : lnkPort (markPort s n) m = lnkPort s m := by
  unfold markPort iff
  split
  · exact lnkPort_setLnk_ne _ s h
  · rfl

theorem markers_marks (k : Nat) (s : State) (hn : n < k) (h : portExpected s n = true) :
    (lnkPort ((List.range k).foldl markPort s) n).markers = 1024 := by
  induction k with
  | zero => exact absurd hn (Nat.not_lt_zero n)
  | succ k ih =>
    rw [List.range_succ, List.foldl_append, List.foldl_cons, List.foldl_nil]
    by_cases here : n = k
    · subst here
      exact markers_markPort_same ((portExpected_of_reg (reg_marks _ s (by decide)) _).trans h)
    · rw [lnkPort_markPort_ne here]
      exact ih (by omega)

/-- Each expected port has its 1,024 latency markers to send (R230). -/
theorem markers_toMeasuring (s : State) (hn : n < 8) (h : portExpected s n = true) :
    (lnkPort (toMeasuring s) n).markers = 1024 := by
  rw [toMeasuring_eq]
  exact markers_marks 8 _ hn h

theorem PortsShown.design {s t : State} (h : PortsShown s t) : SameDesign s t := by
  obtain ⟨_, _, rfl⟩ := h
  exact .refl s

theorem PortsShown.cox {s t : State} (h : PortsShown s t) : t.cox = s.cox := by
  obtain ⟨_, _, rfl⟩ := h
  rfl

theorem PortsShown.hif {s t : State} (h : PortsShown s t) : t.hif = s.hif := by
  obtain ⟨_, _, rfl⟩ := h
  rfl

/-- The board measures, under the master that the register names, and the design stands. -/
theorem toMeasuring_spec (s : State) : (toMeasuring s).cox = { s.cox with board := .measuring } ∧
    SameDesign s (toMeasuring s) ∧ (toMeasuring s).hif = s.hif ∧
    fld (toMeasuring s) fBoardMaster = fld s fBoardMaster := by
  have shown := toMeasuring_only s
  exact ⟨shown.cox, shown.design, shown.hif, fld_of_reg (reg_toMeasuring s (show (0xB0080 : Nat) < 0x100000 by decide))⟩

/-- The measurement of a formed board for another package's sake, with the master that the package names (R235). -/
theorem remeasure_spec {m : Nat} (hm : m < 16) (s : State) : (remeasure m s).cox.board = .measuring ∧
    SameDesign s (remeasure m s) ∧ (∀ n, n < 8 → portExpected s n = true → (lnkPort (remeasure m s) n).markers = 1024) ∧
    fld (remeasure m s) fBoardMaster = if onShape s m then m else fld s fBoardMaster := by
  unfold remeasure
  split
  · rename_i moves
    obtain ⟨on, -⟩ := Bool.and_eq_true _ _ ▸ moves
    obtain ⟨cox, design, -⟩ := toMeasuring_spec { s with cox := { s.cox with carried := true } }
    refine ⟨congrArg Cox.board cox, design, fun n hn he => markers_toMeasuring _ hn he, ?_⟩
    rw [fld_setFld _ _ _ (by decide), if_pos on]
    exact Nat.mod_eq_of_lt hm
  · rename_i stays
    obtain ⟨cox, design, -, master⟩ := toMeasuring_spec s
    refine ⟨congrArg Cox.board cox, design, fun n hn he => markers_toMeasuring s hn he, master.trans ?_⟩
    split
    · rename_i on
      rw [on, Bool.true_and, bne_iff_ne, not_not] at stays
      exact stays.symm
    · rfl

/-! The commands. -/

/-- An expected port that loses its signal trains again, and the board forms again (R239). -/
theorem linkLost_here {pos : BitVec 4} (n : DPort) (hb : s.cox.board = .formed) (hp : pos.toNat = position s)
    (he : portExpected s n.toNat = true) (ha : portActive s n.toNat = true) (hs : (lnkPort s n.toNat).st = .active) :
    Answers (.linkLost ⟨pos, n⟩) s fun t => (lnkPort t n.toNat).st = .train ∧ t.cox.board = .forming ∧
      portActive t n.toNat = false ∧ t.bank = s.bank ∧ t.deep = s.deep ∧ t.slots = s.slots := by
  have trains : exec (.linkLost ⟨pos, n⟩) s = .next (toTrain n.toNat lcSignal s) :=
    (if_neg (by simpa using hp)).trans (whenever_true _ _ (by simp [hb, he, ha, hs]))
  obtain ⟨board, inactive, st⟩ := leavePort_formed .train lcSignal n.isLt hb he ha hs
  obtain ⟨bank, deep, slots, -⟩ := (keepsPower_toTrain n.toNat lcSignal s).stores
  refine .of_next trains ⟨?_, board, inactive, bank, deep, slots⟩
  unfold toTrain
  rw [lnkPort_setLnk]
  exact st

/-- Where the port is another package's, the board forms again, and measures at once with no port missing here (R229). -/
theorem linkLost_elsewhere {pos : BitVec 4} (n : DPort) (hb : s.cox.board = .formed) (hp : pos.toNat ≠ position s) :
    exec (.linkLost ⟨pos, n⟩) s = .next
      (if missingPorts s = 0 then toMeasuring s else { s with cox := { s.cox with board := .forming } }) := by
  have forms : exec (.linkLost ⟨pos, n⟩) s = .next (toForming s) := (if_pos hp).trans (whenever_true _ _ (by simp [hb]))
  have same : missingPorts { s with cox := { s.cox with board := .forming } } = missingPorts s := rfl
  rw [forms]
  split
  · rename_i none
    simp only [toForming, tryMeasure, hb, same, none, beq_self_eq_true, Bool.true_or, Bool.and_self, if_true]
    rfl
  · rename_i missing
    rw [(toForming_of_formed hb).2 missing]

theorem boardFormed_again (b : BoardMeas) (hb : s.cox.board = .formed) (hi : inCourse s = false) (hw : s.cox.st ≠ .wait) :
    Answers (.boardFormed b) s fun t => t.cox.board = .measuring ∧ SameDesign s t ∧
      (∀ n, n < 8 → portExpected s n = true → (lnkPort t n).markers = 1024) ∧
      fld t fBoardMaster = if onShape s b.master.toNat then b.master.toNat else fld s fBoardMaster := by
  have again : exec (.boardFormed b) s = .next (remeasure b.master.toNat s) :=
    (if_neg (by simp [hb])).trans (whenever_true _ _ (by simp [hb, hi, hw]))
  exact .of_next again (remeasure_spec b.master.isLt s)

/-- The link timeout (R229). -/
theorem boardIncomplete_logs (hb : (s.cox.board == .forming || s.cox.board == .measuring) = true)
    (ht : bits (reg s 0xB0088) 0 16 ≠ 0) :
    Answers .boardIncomplete s (OnlyLogged [] [] { s with cox := { s.cox with board := .incomplete } }) :=
  .of_next (whenever_true _ _ (by rw [hb]; simpa using ht)) (onlyLogged_logEvent _ _ _ _)

/-! MOVE_MASTER as a command of the mailbox (R235, R305). -/

theorem mbxWrite_begun (cmd : Nat) (m : MbxArgs) (body : State → State) (h : mbxFree s = true) :
    mbxWrite cmd false false m body s = body (begunShort cmd m s) := by
  simp only [mbxFree, Bool.and_eq_true, Bool.not_eq_true', beq_iff_eq] at h
  obtain ⟨⟨ho, hb⟩, hu⟩ := h
  unfold mbxWrite
  rw [ho, hb, hu]
  rfl

theorem begunShort_busy (cmd : Nat) (m : MbxArgs) (s : State) : (begunShort cmd m s).hif.busy = true :=
  congrArg Hif.busy (commit_hif ..)

theorem onShape_eq (s : State) (m : Nat) : onShape s m = (header s).any fun h => h.positions.getLsbD m := by
  unfold onShape
  split <;> simp_all

/-- A word that names a position names nothing else. -/
theorem bits_of_position {v : Word} (h : v.toNat < 16) : bits v 0 4 = v.toNat ∧ bits v 4 28 = 0 := by
  rw [bits_eq, bits_eq]
  omega

/-- A formed board at rest goes back to measuring, under another master of its positions. -/
theorem moveMaster_moves {v : Word} (hb : s.cox.board = .formed) (hi : inCourse s = false) (hw : s.cox.st ≠ .wait)
    (hv : v.toNat < 16) (hm : fld s fBoardMaster ≠ v.toNat) (hp : onShape s v.toNat = true) : moveMaster v s =
      setFld fBoardMaster v.toNat (toMeasuring { s with cox := { s.cox with moving := true } }) := by
  obtain ⟨low, high⟩ := bits_of_position hv
  simp [moveMaster, low, high, hb, hi, hw, hp, hm]

theorem moveMaster_answers {m : MbxArgs} (free : mbxFree s = true) (hb : s.cox.board = .formed) (hi : inCourse s = false)
    (hw : s.cox.st ≠ .wait) (hv : m.a0.toNat < 16) (hm : fld s fBoardMaster ≠ m.a0.toNat)
    (hp : (header s).any (fun h => h.positions.getLsbD m.a0.toNat) = true) :
    Answers (.moveMaster m) s fun t => t.cox = { s.cox with board := .measuring, moving := true } ∧
      fld t fBoardMaster = m.a0.toNat ∧ t.hif.busy = true ∧ SameDesign s t := by
  have begun : Mailed s (begunShort 0x11 m s) := mailed_begunShort 0x11 m s
  have busy := begunShort_busy 0x11 m s
  have runs : exec (.moveMaster m) s = .next (moveMaster m.a0 (begunShort 0x11 m s)) :=
    congrArg _ (mbxWrite_begun 0x11 m (moveMaster m.a0) free)
  generalize begunShort 0x11 m s = x at begun busy runs
  obtain ⟨-, cox, -, -, ldr⟩ := begun.keeps
  rw [moveMaster_moves (by rwa [cox]) (by rwa [begun.inCourse]) (by rwa [cox]) hv
    (by rwa [begun.fld (f := fBoardMaster) (by decide)]) (by rwa [onShape_eq, header, ldr])] at runs
  obtain ⟨tcox, design, hif, -⟩ := toMeasuring_spec { x with cox := { x.cox with moving := true } }
  refine .of_next runs ⟨?_, ?_, ?_, begun.design.trans design⟩
  · exact tcox.trans (by rw [cox])
  · exact (fld_setFld _ _ _ (by decide)).trans (Nat.mod_eq_of_lt hv)
  · exact (congrArg Hif.busy hif).trans busy

end

end Sys2Proof.Machine
end

section
/-! PROOFS. The end of a measurement (R156, R227, R230, R240): what keeps the reach, the master and COX.WALL as the board forms. -/

namespace Sys2Proof.Machine

/-- The reach of the cox line, and the register of the board's master. -/
abbrev BoardReg (a : Nat) : Prop := a = 0xB0050 ∨ a = 0xB0080

/-- The controller, the memories, the 64-bit registers, the reach and the board's master are as they were. -/
structure KeepsBoard (s t : State) : Prop where
  cox : t.cox = s.cox
  bank : t.bank = s.bank
  deep : t.deep = s.deep
  slots : t.slots = s.slots
  wide : t.wide = s.wide
  regs : ∀ a, BoardReg a → reg t a = reg s a

theorem KeepsBoard.refl (s : State) : KeepsBoard s s := ⟨rfl, rfl, rfl, rfl, rfl, fun _ _ => rfl⟩

theorem KeepsBoard.trans {s t u : State} (h : KeepsBoard s t) (k : KeepsBoard t u) : KeepsBoard s u :=
  ⟨k.cox.trans h.cox, k.bank.trans h.bank, k.deep.trans h.deep, k.slots.trans h.slots, k.wide.trans h.wide,
    fun a ha => (k.regs a ha).trans (h.regs a ha)⟩

theorem KeepsBoard.iff {s : State} {f : State → State} (c : Bool) (h : KeepsBoard s (f s)) : KeepsBoard s (iff c f s) := by
  cases c
  · exact .refl s
  · exact h

theorem KeepsBoard.foldl {α : Type} {f : State → α → State} (h : ∀ x a, KeepsBoard x (f x a)) (l : List α) (s : State) :
    KeepsBoard s (l.foldl f s) :=
  l.foldlRecOn f (.refl s) fun x hx a _ => hx.trans (h x a)

theorem KeepsBoard.of_logOnly {s t : State} (h : LogOnly s t) (k : ∀ a, BoardReg a → reg t a = reg s a) :
    KeepsBoard s t := by
  obtain ⟨⟨bank, deep, slots, -⟩, cox, -, wide⟩ := h.keeps
  exact ⟨cox, bank, deep, slots, wide, k⟩

theorem keepsBoard_setReg {a : Nat} (v : Word) (s : State) (h : ¬ BoardReg a) : KeepsBoard s (setReg a v s) :=
  .of_logOnly (logOnly_setReg a v s) fun _ hb => reg_setReg_ne v s fun e => h (e ▸ hb)

theorem keepsBoard_setFld {f : Fld} (v : Nat) (s : State) (h : ¬ BoardReg f.a) : KeepsBoard s (setFld f v s) :=
  keepsBoard_setReg _ s h

theorem keepsBoard_logEvent (c l d : Nat) (s : State) : KeepsBoard s (logEvent c l d s) :=
  .of_logOnly (logOnly_logEvent c l d s) fun _ _ => reg_logEvent c l d s (by omega)

theorem keepsBoard_count (a : Nat) (s : State) : KeepsBoard s (count a s) :=
  .of_logOnly (logOnly_count a s) fun _ _ => reg_count a s (by omega)

theorem KeepsBoard.of_mailed {s t : State} (h : Mailed s t) : KeepsBoard s t := by
  obtain ⟨⟨bank, deep, slots, -⟩, cox, -, wide, -⟩ := h.keeps
  exact ⟨cox, bank, deep, slots, wide, fun a ha => h.2 a (by omega)⟩

theorem keepsBoard_setLnk (n : Nat) (x : LnkPort) (s : State) : KeepsBoard s (setLnk n x s) :=
  ⟨rfl, rfl, rfl, rfl, rfl, fun _ _ => rfl⟩

theorem not_boardReg_lnkA (n o : Nat) : ¬ BoardReg (lnkA n + o) := by
  simp only [BoardReg, lnkA]
  omega

/-! A port that the shape does not use goes off (R227). -/

theorem keepsBoard_losePkt (s : State) (pk : Packet) : KeepsBoard s (losePkt s pk) := by
  have quiet := quiet_losePkt s pk
  obtain ⟨bank, deep, slots, -⟩ := quiet.stores
  obtain ⟨wide, regs⟩ : (losePkt s pk).wide = s.wide ∧ (losePkt s pk).regs = s.regs := by
    have answered : ∀ x, (queued 0 5 x s).wide = s.wide ∧ (queued 0 5 x s).regs = s.regs := fun x => by
      obtain ⟨bufs, waitQ, owed, e⟩ := queued_only 0 5 x s
      rw [e]
      exact ⟨rfl, rfl⟩
    unfold losePkt ioStatus ioAnswer
    dsimp only
    split
    · exact ⟨rfl, rfl⟩
    · split
      · exact ⟨rfl, rfl⟩
      · exact answered _
  exact ⟨quiet.cox, bank, deep, slots, wide, fun a _ => reg_of_regs regs a⟩

theorem keepsBoard_boardLoses_unexpected {n : Nat} {s : State} (st : LnkState) (h : portExpected s n = false) :
    KeepsBoard s (boardLoses n st s) := by
  simp only [boardLoses, h, Bool.false_and, Bool.not_false, if_true]
  exact keepsBoard_setFld (f := ⟨0xB008C, 8 + n, 1⟩) _ s (show ¬ BoardReg 0xB008C by decide)

theorem keepsBoard_leavePort_unexpected {n : Nat} (st : LnkState) (cause : Nat) {s : State} (h : portExpected s n = false) :
    KeepsBoard s (leavePort n st cause s) := by
  unfold leavePort
  extract_lets x was lost s1 s2 s3
  let noted := iff (was && rewriting s2) (logEvent evLinkLost (locUnit n 0) st.code) s2
  have gone : KeepsBoard s s1 := (keepsBoard_setLnk n _ s).trans (keepsBoard_setFld _ _ (not_boardReg_lnkA n 4))
  have told : KeepsBoard s1 noted := (KeepsBoard.iff _ (keepsBoard_count _ _)).trans (.iff _ (keepsBoard_logEvent _ _ _ _))
  have stands : BoardStands s1 noted := (BoardStands.iff _ (boardStands_count _ _)).trans (.iff _ (boardStands_logEvent _ _ _ _))
  have ports : reg noted 0xB008C = reg s 0xB008C :=
    stands.ports.trans (reg_setFld_ne cause _ (by simp only [fLnkCause, lnkA]; omega))
  have unexpected : portExpected noted n = false := (portExpected_of_reg ports n).trans h
  exact (gone.trans told).trans ((KeepsBoard.iff lost (keepsBoard_boardLoses_unexpected st unexpected)).trans
    (.foldl keepsBoard_losePkt _ _))

/-- The block of a port stands apart from COX. -/
theorem keepsBoard_lnkReset (n : Nat) (s : State) : KeepsBoard s (lnkReset n s) := by
  have kept : ∀ a, BoardReg a → (!decide (lnkA n ≤ a ∧ a < lnkA n + 0x10000)) = true := fun a ha => by
    have below : a < lnkA n := by unfold lnkA; omega
    simp
    omega
  have cleared : ∀ ctrs snaps, KeepsBoard s { s with
      regs := s.regs.filter fun e => !decide (lnkA n ≤ e.1 ∧ e.1 < lnkA n + 0x10000), ctrs := ctrs, snaps := snaps } :=
    fun _ _ => ⟨rfl, rfl, rfl, rfl, rfl, fun a ha =>
      reg_of_filter (s := s) (keep := fun a => !decide (lnkA n ≤ a ∧ a < lnkA n + 0x10000)) rfl (kept a ha)⟩
  unfold lnkReset
  exact (cleared _ _).trans ((keepsBoard_setLnk n _ _).trans
    (keepsBoard_setFld (f := fLnkExpected n) _ _ (not_boardReg_lnkA n _)))

theorem keepsBoard_portOff_unexpected {n : Nat} {s : State} (h : portExpected s n = false) : KeepsBoard s (portOff n s) := by
  unfold portOff
  refine KeepsBoard.trans ?_ ((keepsBoard_lnkReset n _).trans
    (keepsBoard_setFld (f := fDomLnk n) 3 _ (show ¬ BoardReg 0x20008 by decide)))
  split
  · exact .refl s
  · exact keepsBoard_leavePort_unexpected _ _ h

theorem keepsBoard_unusedOff (s : State) : KeepsBoard s (unusedOff s) :=
  .foldl (fun x n => by
    split
    · exact .refl x
    · rename_i unexpected
      exact keepsBoard_portOff_unexpected (Bool.eq_false_iff.mpr unexpected)) _ s

theorem keepsBoard_setDroutes (ds : Sparse (BitVec 32)) (s : State) : KeepsBoard s (setDroutes ds s) :=
  .foldl (fun x e => by split <;> exact ⟨rfl, rfl, rfl, rfl, rfl, fun _ _ => rfl⟩) _ s

/-! The measurement (R230). -/

/-- The reach that the reports give (R230). -/
def boardReach (b : BoardMeas) (s : State) : Nat :=
  reachOf (allReports b (masterOf s) s) (shape s).1 (shape s).2 (masterOf s)

/-- The master's report, with which every other must agree (R156). -/
def masterReport (b : BoardMeas) (s : State) : PkgReport :=
  ((allReports b (masterOf s) s).find? fun x => x.position.toNat == masterOf s).getD (ownReport b (masterOf s) s)

/-- The latency class of the board's worst port (R231). -/
def boardSlack (b : BoardMeas) (s : State) : Nat :=
  latencyClass (match worstOf (allReports b (masterOf s) s) with
    | some w => w.worstDelta.toNat
    | none => 0)

/-- A report that agrees with the master's, as one of `count` (R156). -/
def agrees (ref : PkgReport) (count : Nat) (x : PkgReport) : Bool :=
  x.courseLength == ref.courseLength && (fieldDiffers ref x count).isNone && x.course == ref.course

/-- Reach and slack suffice, and every report agrees with the master's (R156, R230). -/
def measurementPasses (b : BoardMeas) (s : State) : Bool :=
  decide (2 * boardReach b s ≤ 56) &&
    (worstOf (allReports b (masterOf s) s)).all (fun w => latencyClass w.worstDelta.toNat != 3) &&
    (allReports b (masterOf s) s).all (agrees (masterReport b s) (allReports b (masterOf s) s).length)

/-- The state once the ports have been measured and the reach is set, from which the checks of R156 and R230 go on. -/
def measured (b : BoardMeas) (s : State) : State :=
  setFld ⟨0xB0060, 8, 8⟩ (boardReach b s + 4) (setFld fReachUp (boardReach b s) (setFld fReachDown (boardReach b s)
    ((List.range 8).foldl (measurePort b) s)))

/-- The checks of R156, each failing the board where a report differs, and the board aligned where none does. -/
def comparedReports (b : BoardMeas) (s : State) : State :=
  let rs := allReports b (masterOf s) s
  let ref := masterReport b s
  let field := fun x => fieldDiffers ref x rs.length
  (failsAt evCourseMismatch (rs.filter fun x => x.courseLength != ref.courseLength) (·.courseLength.toNat) (measured b s) <|>
   failsAt evBoardMismatch (rs.filter fun x => (field x).isSome) (fun x => (field x).getD 0) (measured b s) <|>
   failsAt evCourseSplit (rs.filter fun x => x.course != ref.course) (·.position.toNat) (measured b s)).getD
    (boardAligned b (masterOf s) rs (boardReach b s) (if boardSlack b s = 2 then 32 else 0) (measured b s))

theorem boardFormed_eq (b : BoardMeas) (s : State) : boardFormed b s =
    if 56 < 2 * boardReach b s then boardFails (logEvent evCoxReachFail locNone (2 * boardReach b s) (measured b s))
    else if boardSlack b s = 3 then boardFails (measured b s) else comparedReports b s := rfl

theorem measurePort_shows (b : BoardMeas) (s : State) (n : Nat) : LogOnly s (measurePort b s n) ∧
    ∀ a, a < 0x100000 → a ≠ 0x20 → reg (measurePort b s n) a = reg s a := by
  unfold measurePort
  split
  · refine ⟨(((logOnly_setFld _ _ s).trans (logOnly_setFld _ _ _)).trans (logOnly_setFld _ _ _)).trans
      (.iff _ (logOnly_logEvent _ _ _ _)), fun a ha h20 => ?_⟩
    have apart : a ≠ lnkA n + 0x80 := by unfold lnkA; omega
    dsimp only
    rw [iff_proj (reg · a), reg_logEvent _ _ _ _ h20, ite_self]
    exact ((reg_setFld_ne _ _ apart).trans (reg_setFld_ne _ _ apart)).trans (reg_setFld_ne _ _ apart)
  · exact ⟨.refl s, fun _ _ _ => rfl⟩

theorem measured_shows (b : BoardMeas) (s : State) : LogOnly s (measured b s) ∧
    position (measured b s) = position s := by
  let ports := (List.range 8).foldl (measurePort b) s
  obtain ⟨logged, kept⟩ : LogOnly s ports ∧ ∀ a, a < 0x100000 → a ≠ 0x20 → reg ports a = reg s a := by
    refine (List.range 8).foldlRecOn (motive := fun x => LogOnly s x ∧ ∀ a, a < 0x100000 → a ≠ 0x20 → reg x a = reg s a)
      _ ⟨.refl s, fun _ _ _ => rfl⟩ fun x ⟨hl, hr⟩ n _ => ?_
    obtain ⟨kl, kr⟩ := measurePort_shows b x n
    exact ⟨hl.trans kl, fun a h h20 => (kr a h h20).trans (hr a h h20)⟩
  refine ⟨((logged.trans (logOnly_setFld _ _ _)).trans (logOnly_setFld _ _ _)).trans (logOnly_setFld _ _ _), ?_⟩
  refine fld_of_reg (Eq.trans ?_ (kept 0x100 (by decide) (by decide)))
  exact ((reg_setFld_ne _ _ (by decide)).trans (reg_setFld_ne _ _ (by decide))).trans (reg_setFld_ne _ _ (by decide))

/-- COX.REACH shows the reach of the measurement in both directions (R230). -/
theorem fld_measured_reach (b : BoardMeas) (s : State) : fld (measured b s) fReachUp = boardReach b s % 256 ∧
    fld (measured b s) fReachDown = boardReach b s % 256 := by
  have apart : ∀ f v x, f = fReachUp ∨ f = fReachDown → fld (setFld ⟨0xB0060, 8, 8⟩ v x) f = fld x f := fun f v x h => by
    rcases h with rfl | rfl <;> exact fld_setFld_reg _ _ (by decide)
  unfold measured
  rw [apart _ _ _ (.inl rfl), apart _ _ _ (.inr rfl), fld_setFld _ _ _ (by decide), fld_setFld_bits _ _ (by decide),
    fld_setFld _ _ _ (by decide)]
  exact ⟨rfl, rfl⟩

/-! A measurement that fails (R156, R230). -/

theorem boardFails_fails (s : State) : (boardFails s).cox.board = .failed ∧ SameStores s (boardFails s) := by
  have released : ∀ (c : Bool) (x : State), x.cox.board = .failed → SameStores s x →
      (iff c (fun x => { x with cox := { x.cox with st := .ready, started := false, lead := none, stepping := none } })
        x).cox.board = .failed ∧ SameStores s (iff c
          (fun x => { x with cox := { x.cox with st := .ready, started := false, lead := none, stepping := none } }) x) :=
    fun c x hb hs => by cases c <;> exact ⟨hb, hs⟩
  unfold boardFails
  extract_lets _ s1 s2
  obtain ⟨failed, stores⟩ : s2.cox.board = .failed ∧ SameStores s s2 := released _ s1 rfl (.refl s)
  split
  · obtain ⟨mailed, -⟩ := mbxEnd_completes (mbxRes ccBusyInUse 0) s2
    obtain ⟨kept, cox, -⟩ := mailed.keeps
    exact ⟨(congrArg Cox.board cox).trans failed, stores.trans kept⟩
  · exact ⟨failed, stores⟩

/-- A check of R156 passes where its list of offenders is empty, and fails the board otherwise. -/
theorem failsAt_cases (ev : Nat) (rs : List PkgReport) (detail : PkgReport → Nat) (s : State) :
    (rs = [] ∧ failsAt ev rs detail s = none) ∨ ∃ y, LogOnly s y ∧ failsAt ev rs detail s = some (boardFails y) := by
  cases rs with
  | nil => exact .inl ⟨rfl, rfl⟩
  | cons r rs => exact .inr ⟨_, logOnly_logEvent _ _ _ _, rfl⟩

theorem boardSlack_fails (b : BoardMeas) (s : State) : boardSlack b s = 3 ↔
    (worstOf (allReports b (masterOf s) s)).all (fun w => latencyClass w.worstDelta.toNat != 3) = false := by
  unfold boardSlack
  cases worstOf (allReports b (masterOf s) s) with
  | none => decide
  | some w => simp

/-- The reports all agree with the master's where each check of R156 finds no offender. -/
theorem all_agrees_iff (ref : PkgReport) (count : Nat) (rs : List PkgReport) : rs.all (agrees ref count) = true ↔
    (rs.filter fun x => x.courseLength != ref.courseLength) = [] ∧
    (rs.filter fun x => (fieldDiffers ref x count).isSome) = [] ∧ (rs.filter fun x => x.course != ref.course) = [] := by
  simp only [List.all_eq_true, agrees, Bool.and_eq_true, List.filter_eq_nil_iff, beq_iff_eq, bne_iff_ne, not_not,
    Bool.not_eq_true, Option.isNone_iff_eq_none, Option.isSome_eq_false_iff, forall_and, and_assoc]

theorem comparedReports_agree {b : BoardMeas} {s : State} (h : (allReports b (masterOf s) s).all
    (agrees (masterReport b s) (allReports b (masterOf s) s).length) = true) : comparedReports b s =
      boardAligned b (masterOf s) (allReports b (masterOf s) s) (boardReach b s) (if boardSlack b s = 2 then 32 else 0)
        (measured b s) := by
  obtain ⟨lengths, fields, courses⟩ := (all_agrees_iff _ _ _).mp h
  unfold comparedReports
  dsimp only
  rw [lengths, fields, courses]
  rfl

theorem comparedReports_differ {b : BoardMeas} {s : State} (h : (allReports b (masterOf s) s).all
    (agrees (masterReport b s) (allReports b (masterOf s) s).length) = false) :
    ∃ y, LogOnly (measured b s) y ∧ comparedReports b s = boardFails y := by
  unfold comparedReports
  extract_lets rs ref field
  rcases failsAt_cases evCourseMismatch (rs.filter fun x => x.courseLength != ref.courseLength) (·.courseLength.toNat)
    (measured b s) with ⟨lengths, e⟩ | ⟨y, hy, e⟩
  · rcases failsAt_cases evBoardMismatch (rs.filter fun x => (field x).isSome) (fun x => (field x).getD 0)
      (measured b s) with ⟨fields, e'⟩ | ⟨y, hy, e'⟩
    · rcases failsAt_cases evCourseSplit (rs.filter fun x => x.course != ref.course) (·.position.toNat)
        (measured b s) with ⟨courses, -⟩ | ⟨y, hy, e''⟩
      · exact absurd ((all_agrees_iff _ _ _).mpr ⟨lengths, fields, courses⟩) (Bool.eq_false_iff.mp h)
      · exact ⟨y, hy, by rw [e, e', e'']; rfl⟩
    · exact ⟨y, hy, by rw [e, e']; rfl⟩
  · exact ⟨y, hy, by rw [e]; rfl⟩

/-- A measurement that fails a step fails the board, with the events of the ports and of the check logged at most. -/
theorem boardFormed_fails {b : BoardMeas} {s : State} (h : measurementPasses b s = false) :
    ∃ y, LogOnly s y ∧ boardFormed b s = boardFails y := by
  obtain ⟨logged, -⟩ := measured_shows b s
  rw [boardFormed_eq]
  by_cases far : 56 < 2 * boardReach b s
  · exact ⟨_, logged.trans (logOnly_logEvent _ _ _ _), if_pos far⟩
  rw [if_neg far]
  by_cases slack : boardSlack b s = 3
  · exact ⟨_, logged, if_pos slack⟩
  rw [if_neg slack]
  have enough := mt (boardSlack_fails b s).mpr slack
  rw [Bool.not_eq_false] at enough
  rw [measurementPasses, decide_eq_true (Nat.not_lt.mp far), enough, Bool.true_and, Bool.true_and] at h
  obtain ⟨y, hy, e⟩ := comparedReports_differ h
  exact ⟨y, logged.trans hy, e⟩

/-- A measurement that passes every step aligns the board. -/
theorem boardFormed_passes {b : BoardMeas} {s : State} (h : measurementPasses b s = true) : 2 * boardReach b s ≤ 56 ∧
    boardFormed b s = boardAligned b (masterOf s) (allReports b (masterOf s) s) (boardReach b s)
      (if boardSlack b s = 2 then 32 else 0) (measured b s) := by
  simp only [measurementPasses, Bool.and_eq_true, decide_eq_true_eq] at h
  obtain ⟨⟨near, slack⟩, agree⟩ := h
  refine ⟨near, ?_⟩
  rw [boardFormed_eq, if_neg (Nat.not_lt.mpr near), if_neg (fun e => by simp [(boardSlack_fails b s).mp e] at slack),
    comparedReports_agree agree]

/-! The board aligned (R161, R230, R240). -/

/-- The master of a board is one of its sixteen positions (R234). -/
theorem masterOf_lt (s : State) : masterOf s < 16 := by
  unfold masterOf
  split
  · exact bits_lt _ 24 4
  · decide

/-- The board is formed under a master, with COX.WALL the master's in a package that follows, and the rest as it was. -/
structure FormedUnder (b : BoardMeas) (m : Nat) (s t : State) : Prop where
  board : t.cox.board = .formed
  st : t.cox.st = s.cox.st
  reach : reg t 0xB0050 = reg s 0xB0050
  master : fld t fBoardMaster = m
  wall : wideReg t 0xB0018 = if m = position s then wideReg s 0xB0018 else b.wall
  bank : t.bank = s.bank
  deep : t.deep = s.deep
  slots : t.slots = s.slots

theorem FormedUnder.trans {b : BoardMeas} {m : Nat} {s t u : State} (h : FormedUnder b m s t) (k : KeepsBoard t u) :
    FormedUnder b m s u where
  board := (congrArg Cox.board k.cox).trans h.board
  st := (congrArg Cox.st k.cox).trans h.st
  reach := (k.regs _ (.inl rfl)).trans h.reach
  master := (fld_of_reg (k.regs _ (.inr rfl))).trans h.master
  wall := (congrArg (look 0 · 0xB0018) k.wide).trans h.wall
  bank := k.bank.trans h.bank
  deep := k.deep.trans h.deep
  slots := k.slots.trans h.slots

/-- COX.WALL aligned to the master's (R161, R230). -/
def wallAligned (b : BoardMeas) (m : Nat) (s : State) : State := iff (m != position s) (setWide 0xB0018 b.wall) s

/-- What step 6 of R230 shows before anything is logged: the master, the worst port `v`, the shape and the rate. -/
def boardShown (b : BoardMeas) (m : Nat) (v : Word) (packages cols rows rate : Nat) (s : State) : State :=
  setFld fBoardCols cols (setFld fBoardRows rows (setFlag fIsolated false (setFld fBoardRate rate (setReg 0xB0084 v
    (setFld fPackages packages (setFld fBoardMaster m (wallAligned b m s)))))))

section
variable (b : BoardMeas) (m : Nat) (v : Word) (packages cols rows rate : Nat) (s : State)

theorem wallAligned_eq : ∃ wide, wallAligned b m s = { s with wide := wide } ∧
    look 0 wide 0xB0018 = if m = position s then wideReg s 0xB0018 else b.wall := by
  unfold wallAligned
  by_cases here : m = position s
  · exact ⟨s.wide, by simp [here], by rw [if_pos here, wideReg]⟩
  · rw [bne_iff_ne.mpr here, if_neg here]
    exact ⟨_, rfl, look_upd_same _ _ _ _⟩

theorem logOnly_boardShown : LogOnly (wallAligned b m s) (boardShown b m v packages cols rows rate s) :=
  ((((logOnly_setFld _ _ _).trans (logOnly_setFld _ _ _)).trans (logOnly_setReg _ _ _)).trans (logOnly_setFld _ _ _)).trans
    (((logOnly_setFld _ _ _).trans (logOnly_setFld _ _ _)).trans (logOnly_setFld _ _ _))

theorem reach_boardShown :
    reg (boardShown b m v packages cols rows rate s) 0xB0050 = reg (wallAligned b m s) 0xB0050 := by
  have field : ∀ f w x, f.a ≠ 0xB0050 → reg (setFld f w x) 0xB0050 = reg x 0xB0050 := fun f w x h => reg_setFld_ne w x h.symm
  unfold boardShown setFlag
  rw [field _ _ _ (by decide), field _ _ _ (by decide), field _ _ _ (by decide), field _ _ _ (by decide),
    reg_setReg_ne _ _ (by decide), field _ _ _ (by decide), field _ _ _ (by decide)]

theorem master_boardShown (hm : m < 16) : fld (boardShown b m v packages cols rows rate s) fBoardMaster = m := by
  have field : ∀ f w x, (fBoardMaster.lo + fBoardMaster.w ≤ f.lo ∨ f.lo + f.w ≤ fBoardMaster.lo) →
      fld (setFld f w x) fBoardMaster = fld x fBoardMaster := fun f w x h => fld_setFld_bits w x h
  have word : ∀ x, fld (setReg 0xB0084 v x) fBoardMaster = fld x fBoardMaster := fun x =>
    fld_of_reg (reg_setReg_ne v x (by decide))
  have packed : ∀ x, fld (setFld fPackages packages x) fBoardMaster = fld x fBoardMaster := fun x =>
    fld_setFld_reg packages x (by decide)
  unfold boardShown setFlag
  rw [field fBoardCols _ _ (by decide), field fBoardRows _ _ (by decide), field fIsolated _ _ (by decide),
    field fBoardRate _ _ (by decide), word, packed, fld_setFld _ _ _ (by decide)]
  exact Nat.mod_eq_of_lt hm

end

/-- With the board's state set, the board is formed under the master that is shown. -/
theorem boardShown_formed (b : BoardMeas) {m : Nat} (hm : m < 16) (v : Word) (packages cols rows rate : Nat) (s : State)
    {t : State} (ht : t = boardShown b m v packages cols rows rate s) {f g h : Bool} :
    FormedUnder b m s { t with cox := { t.cox with board := .formed, formedOnce := f, moving := g, carried := h } } := by
  obtain ⟨⟨bank, deep, slots, -⟩, cox, -, wide⟩ := (logOnly_boardShown b m v packages cols rows rate s).keeps
  have reach := reach_boardShown b m v packages cols rows rate s
  have master := master_boardShown b m v packages cols rows rate s hm
  rw [← ht] at bank deep slots cox wide reach master
  obtain ⟨aligned, e, wall⟩ := wallAligned_eq b m s
  rw [e] at bank deep slots cox wide reach
  have st : t.cox.st = s.cox.st := congrArg Cox.st cox
  exact ⟨rfl, st, reach, master, (congrArg (look 0 · 0xB0018) wide).trans wall, bank, deep, slots⟩

/-- Step 6 of R230 outside WAIT: what follows the board's state logs, powers off unused ports, writes routes and completes
a MOVE_MASTER, and nothing starts. -/
theorem boardAligned_formed (b : BoardMeas) {m : Nat} (hm : m < 16) (rs : List PkgReport) (reach stretch : Nat) {s : State}
    (hw : s.cox.st ≠ .wait) : FormedUnder b m s (boardAligned b m rs reach stretch s) := by
  unfold boardAligned
  extract_lets old moved v s1 s2 again
  split
  rename_i c r _
  extract_lets s3 _ s5 s6 s7 s8 s9
  have shown : FormedUnder b m s { s3 with cox := { s3.cox with
      board := .formed, formedOnce := true, moving := false, carried := false } } :=
    boardShown_formed b hm v (rs.length - 1) c r (if rs.any (·.slow) then 8 else 10) s rfl
  have logged : KeepsBoard s5 s7 := (KeepsBoard.iff _ (keepsBoard_logEvent _ _ _ _)).trans (.iff _ (keepsBoard_logEvent _ _ _ _))
  have routed : KeepsBoard s7 s8 := ((keepsBoard_unusedOff s7).trans (keepsBoard_setDroutes b.droutes _)).trans
    (.iff _ (keepsBoard_logEvent _ _ _ _))
  have ended : KeepsBoard s8 s9 := .iff _ (.of_mailed (mbxEnd_completes _ s8).1)
  have formed : FormedUnder b m s s9 :=
    shown.trans ((keepsBoard_logEvent _ _ _ _).trans ((logged.trans routed).trans ended))
  have rests : s9.cox.st ≠ .wait := by rw [formed.st]; exact hw
  rw [if_neg (by simp [rests]), retryStart_of_not_wait rests]
  exact formed

/-! The command. -/

section
variable {s : State} (b : BoardMeas) (hb : s.cox.board = .measuring) (hi : inCourse s = false)
include hb hi

theorem exec_boardFormed_measuring : exec (.boardFormed b) s = .next (boardFormed b s) :=
  (if_pos (by simp [hb])).trans (whenever_true _ _ (by simp [hi]))

/-- A measurement that fails a step leaves the board FAILED (R156, R230). -/
theorem boardFormed_answers_failed (h : measurementPasses b s = false) : Answers (.boardFormed b) s fun t =>
    t.cox.board = .failed ∧ t.bank = s.bank ∧ t.deep = s.deep ∧ t.slots = s.slots := by
  obtain ⟨y, logged, e⟩ := boardFormed_fails h
  obtain ⟨failed, stores⟩ := boardFails_fails y
  obtain ⟨bank, deep, slots, -⟩ := logged.keeps.1.stores.trans stores
  exact .of_next ((exec_boardFormed_measuring b hb hi).trans (congrArg _ e)) ⟨failed, bank, deep, slots⟩

/-- A measurement that passes every step forms the board with its reach, its master and COX.WALL (R161, R230). -/
theorem boardFormed_answers_formed (h : measurementPasses b s = true) (hs : s.cox.st = .ready) :
    Answers (.boardFormed b) s fun t => t.cox.board = .formed ∧ fld t fReachUp = boardReach b s ∧
      fld t fReachDown = boardReach b s ∧ fld t fBoardMaster = masterOf s ∧
      wideReg t 0xB0018 = (if masterOf s = position s then wideReg s 0xB0018 else b.wall) ∧ t.bank = s.bank ∧
      t.deep = s.deep ∧ t.slots = s.slots := by
  obtain ⟨near, e⟩ := boardFormed_passes h
  obtain ⟨logged, position⟩ := measured_shows b s
  obtain ⟨up, down⟩ := fld_measured_reach b s
  obtain ⟨⟨bank, deep, slots, -⟩, cox, -, wide⟩ := logged.keeps
  have fits : boardReach b s % 256 = boardReach b s := Nat.mod_eq_of_lt (by omega)
  have t := boardAligned_formed b (masterOf_lt s) (allReports b (masterOf s) s) (boardReach b s)
    (if boardSlack b s = 2 then 32 else 0) (s := measured b s) (by simp [cox, hs])
  refine .of_next ((exec_boardFormed_measuring b hb hi).trans (congrArg _ e)) ⟨t.board, ?_, ?_, t.master, ?_,
    t.bank.trans bank, t.deep.trans deep, t.slots.trans slots⟩
  · exact (fld_of_reg t.reach).trans (up.trans fits)
  · exact (fld_of_reg t.reach).trans (down.trans fits)
  · rw [t.wall, position, wideReg, wide, wideReg]

end

/-- Settles O23: the measurement by whether it passes, the link timeout, MOVE_MASTER, a lost port here and elsewhere, and
a formed board that measures again. -/
theorem boardsForm : Obligations.BoardsForm := by
  unfold Obligations.BoardsForm
  exact ⟨fun s b hb hi => ⟨boardFormed_answers_failed b hb hi, boardFormed_answers_formed b hb hi⟩,
    fun s hb ht => boardIncomplete_logs hb ht,
    fun s m free _ hb hi hw hv hm hp => moveMaster_answers free hb hi hw hv hm hp,
    fun s pos n hb => ⟨linkLost_here n hb, linkLost_elsewhere n hb⟩,
    fun s b hb hi hw => boardFormed_again b hb hi hw⟩

end Sys2Proof.Machine
end

section
/-! PROOFS. What the package's two memories list, through every operation and command that leaves them alone: one equation
for each, used as a rewriting rule. -/

namespace Sys2Proof.Machine

/-- What bank memory and deep memory list. -/
def memory (s : State) : Sparse (BitVec 72) × Sparse (BitVec 288) := (s.bank, s.deep)

/-- The command answers no state whose memories list anything else. -/
def KeepsMemory (s : State) (r : Res) : Prop := ∀ t, r = .next t → memory t = memory s

variable {s : State}

/-! The forms that operations and commands are built from. -/

@[simp] theorem memory_mk {regs ctrs wide snaps evlog evTick evIn satDue cfg shadow slots groups winLow fab cox net lnk hif
    dsp ldr scb trg trc pwr pins jtag hlt fuses out free pending} :
    memory ⟨regs, ctrs, wide, snaps, evlog, evTick, evIn, satDue, cfg, shadow, slots, groups, s.bank, s.deep, winLow, fab,
      cox, net, lnk, hif, dsp, ldr, scb, trg, trc, pwr, pins, jtag, hlt, fuses, out, free, pending⟩ = memory s := by
  cases s; rfl

@[simp] theorem memory_ite (c : Prop) [Decidable c] (a b : State) :
    memory (if c then a else b) = if c then memory a else memory b := apply_ite ..

@[simp] theorem memory_iff (c : Bool) (f : State → State) :
    memory (iff c f s) = if c then memory (f s) else memory s := iff_proj memory c f s

@[simp] theorem memory_foldl {α : Type} {f : State → α → State} {l : List α} (h : ∀ x a, memory (f x a) = memory x) :
    memory (l.foldl f s) = memory s :=
  l.foldlRecOn (motive := fun x => memory x = memory s) f rfl fun x hx a _ => (h x a).trans hx

@[simp] theorem keepsMemory_next {t : State} : KeepsMemory s (.next t) ↔ memory t = memory s :=
  ⟨fun h => h t rfl, fun h _ e => by cases e; exact h⟩

@[simp] theorem keepsMemory_fault (f : Fault) : KeepsMemory s (.fault f) := fun _ e => by cases e

@[simp] theorem keepsMemory_refused (f : Refusal) : KeepsMemory s (.refused f) := fun _ e => by cases e

@[simp] theorem keepsMemory_ite (c : Prop) [Decidable c] (a b : Res) :
    KeepsMemory s (if c then a else b) ↔ (c → KeepsMemory s a) ∧ (¬ c → KeepsMemory s b) := by split <;> simp [*]

@[simp] theorem keepsMemory_whenever {c : Bool} {x t : State} :
    KeepsMemory s (whenever c x t) ↔ (c = true → memory t = memory s) ∧ (c = false → memory x = memory s) := by
  cases c <;> simp [whenever]

@[simp] theorem keepsMemory_forUnit {c : Bool} {r : Res} :
    KeepsMemory s (forUnit c r) ↔ (c = true → KeepsMemory s r) := by
  cases c <;> simp [forUnit]

/-- The state after a command that leaves the memories alone. -/
@[simp] theorem memory_after {r : Res} (k : KeepsMemory s r) : memory (after r s) = memory s := by
  cases r with
  | next t => exact k t rfl
  | fault f => rfl
  | refused f => rfl

theorem memory_of_stores {t : State} (h : SameStores s t) : memory t = memory s := by
  obtain ⟨bank, deep, -⟩ := h
  exact Prod.ext bank deep

/-! Registers. -/

@[simp] theorem memory_setReg {a v} : memory (setReg a v s) = memory s := by simp [setReg]
@[simp] theorem memory_setFld {f v} : memory (setFld f v s) = memory s := by simp [setFld]
@[simp] theorem memory_setFlag {f b} : memory (setFlag f b s) = memory s := by simp [setFlag]
@[simp] theorem memory_setWide {a v} : memory (setWide a v s) = memory s := by simp [setWide]
@[simp] theorem memory_setCourse {n} : memory (setCourse n s) = memory s := by simp [setCourse]
@[simp] theorem memory_addWall {n} : memory (addWall n s) = memory s := by simp [addWall]

/-! Counting, logging and halts. -/

@[simp] theorem memory_emit {o} : memory (emit o s) = memory s := by simp [emit]
@[simp] theorem memory_interrupt {fn vec} : memory (interrupt fn vec s) = memory s := by simp [interrupt]
@[simp] theorem memory_setPort {p st} : memory (setPort p st s) = memory s := by simp [setPort]
@[simp] theorem memory_bump {a n} : memory (bump a n s) = memory s := by simp [bump]

@[simp] theorem memory_commit {type flags source words} : memory (commit type flags source words s) = memory s := by
  simp [commit]

@[simp] theorem memory_commitSecure {flags words} : memory (commitSecure flags words s) = memory s := by simp [commitSecure]
@[simp] theorem memory_secureStep {stage code} : memory (secureStep stage code s) = memory s := by simp [secureStep]
@[simp] theorem memory_showStep {st} : memory (showStep st s) = memory s := by simp [showStep]
@[simp] theorem memory_toLoader {st} : memory (toLoader st s) = memory s := by simp [toLoader]
@[simp] theorem memory_log0 {code loc detail} : memory (log0 code loc detail s) = memory s := by simp [log0]
@[simp] theorem memory_settle {k} : memory (settle k s) = memory s := by simp [memory]
@[simp] theorem memory_logEvent {code loc detail} : memory (logEvent code loc detail s) = memory s := by simp [logEvent]
@[simp] theorem memory_countN {a n} : memory (countN a n s) = memory s := by simp [countN]
@[simp] theorem memory_count {a} : memory (count a s) = memory s := by simp [count]

@[simp] theorem memory_oncePerCourse {k u} {f : State → State} (h : ∀ x, memory (f x) = memory x) :
    memory (oncePerCourse k u f s) = memory s := by
  unfold oncePerCourse
  split <;> simp [h]

@[simp] theorem memory_alert {i} : memory (alert i s) = memory s := by simp [alert]
@[simp] theorem memory_addHalt {x} : memory (addHalt x s) = memory s := by simp [addHalt]
@[simp] theorem memory_raiseHalt {cause} : memory (raiseHalt cause s) = memory s := by simp [raiseHalt]
@[simp] theorem memory_draw : memory (draw s) = memory s := by simp [draw]

/-! The loaded image. -/

@[simp] theorem memory_setCfg {k d} : memory (setCfg k d s) = memory s := by simp [setCfg]
@[simp] theorem memory_setSlot {p c b j v} : memory (setSlot p c b j v s) = memory s := by simp [setSlot]
@[simp] theorem memory_setBank {p b st} : memory (setBank p b st s) = memory s := by simp [setBank]
@[simp] theorem memory_setDroute {p i v} : memory (setDroute p i v s) = memory s := by simp [setDroute]
@[simp] theorem memory_setDroutes {ds} : memory (setDroutes ds s) = memory s := by simp [setDroutes]

/-! The directory. -/

@[simp] theorem memory_writeDir {d} : memory (writeDir d s) = memory s := by simp [writeDir]

/-! Pads. -/

@[simp] theorem memory_pullsOn : memory (pullsOn s) = memory s := by simp [pullsOn]
@[simp] theorem memory_releasePins : memory (releasePins s) = memory s := by simp [releasePins]
@[simp] theorem memory_pinsOff : memory (pinsOff s) = memory s := by simp [pinsOff]
@[simp] theorem memory_setPod {b st} : memory (setPod b st s) = memory s := by simp [setPod, bankDrop]
@[simp] theorem memory_freeReadings {b} : memory (freeReadings b s) = memory s := by simp [freeReadings]
@[simp] theorem memory_podCheck {b} : memory (podCheck b s) = memory s := by simp [podCheck]
@[simp] theorem memory_revolt {old} : memory (revolt old s) = memory s := by simp [revolt]

/-! Configuration errors and recovery. -/

@[simp] theorem memory_fullEnd {code f} : memory (fullEnd code f s) = memory s := by simp [fullEnd]

@[simp] theorem memory_recoverFail {code} : memory (recoverFail code s) = memory s := by
  unfold recoverFail
  split <;> simp

@[simp] theorem memory_recoverStart : memory (recoverStart s) = memory s := by simp [recoverStart]
@[simp] theorem memory_queueFrame {a} : memory (queueFrame a s) = memory s := by simp [queueFrame, enqueue]

@[simp] theorem memory_recordSched {p c b st synd ue} : memory (recordSched p c b st synd ue s) = memory s := by
  simp [recordSched]

@[simp] theorem memory_schedCorrected {p c b st e injected} : memory (schedCorrected p c b st e injected s) = memory s := by
  simp [schedCorrected]

@[simp] theorem memory_careError {p c b area frame} : memory (careError p c b area frame s) = memory s := by simp [careError]
@[simp] theorem memory_careMapBad {p c k} : memory (careMapBad p c k s) = memory s := by simp [careMapBad]
@[simp] theorem memory_careRewritten {f} : memory (careRewritten f s) = memory s := by simp [careRewritten]

/-! The BP operations. -/

@[simp] theorem memory_writeSlot {p c b v} : memory (writeSlot p c b v s) = memory s := by simp [writeSlot]
@[simp] theorem memory_markRetired {i} : memory (markRetired i s) = memory s := by simp [markRetired]
@[simp] theorem memory_addSend {p tt v} : memory (addSend p tt v s) = memory s := by simp [addSend]
@[simp] theorem memory_addContrib {p tt v lat} : memory (addContrib p tt v lat s) = memory s := by simp [addContrib]

@[simp] theorem memory_badWord {p c b e inj} : memory (badWord p c b e inj s) = memory s := by
  simp [badWord, schedBad, absentEffect]

@[simp] theorem memory_bpStep {p c b} {eff : Nat → State → State} (h : ∀ w x, memory (eff w x) = memory x) :
    memory (bpStep p c b eff s) = memory s := by
  unfold bpStep
  dsimp only
  split <;> simp [h]

@[simp] theorem keepsMemory_execBp {op p c b} {eff : Nat → State → State} (h : ∀ w x, memory (eff w x) = memory x) :
    KeepsMemory s (execBp op p c b eff s) := by
  simp [execBp, h]

@[simp] theorem memory_evalEffect {p c b w} : memory (evalEffect p c b w s) = memory s := by simp [evalEffect]

@[simp] theorem memory_wideEffect {p c b w} : memory (wideEffect p c b w s) = memory s := by
  unfold wideEffect
  split
  · split <;> simp
  · simp

@[simp] theorem memory_memEffect {lat p c b w} : memory (memEffect lat p c b w s) = memory s := by simp [memEffect]

@[simp] theorem memory_pinEffect {p entry act} : memory (pinEffect p entry act s) = memory s := by
  unfold pinEffect
  split <;> simp

@[simp] theorem memory_trapEffect {p c b w} : memory (trapEffect p c b w s) = memory s := by
  unfold trapEffect
  dsimp only
  (repeat' split) <;> simp [trapHit]

@[simp] theorem keepsMemory_execNop {p c b} : KeepsMemory s (execNop p c b s) := by simp [execNop]
@[simp] theorem keepsMemory_execEval {p c b} : KeepsMemory s (execEval p c b s) := by simp [execEval]
@[simp] theorem keepsMemory_execEvalHold {p c b} : KeepsMemory s (execEvalHold p c b s) := by simp [execEvalHold, holdEffect]
@[simp] theorem keepsMemory_execWide {p c b} : KeepsMemory s (execWide p c b s) := by simp [execWide]
@[simp] theorem keepsMemory_execSend {p c b} : KeepsMemory s (execSend p c b s) := by simp [execSend, sendEffect]
@[simp] theorem keepsMemory_execDrive {p c b} : KeepsMemory s (execDrive p c b s) := by simp [execDrive, driveEffect]
@[simp] theorem keepsMemory_execMemrd {p c b lat} : KeepsMemory s (execMemrd p c b lat s) := by simp [execMemrd]
@[simp] theorem keepsMemory_execMemwr {p c b} : KeepsMemory s (execMemwr p c b s) := by simp [execMemwr]
@[simp] theorem keepsMemory_execPinout {p c b} : KeepsMemory s (execPinout p c b s) := by simp [execPinout, pinoutEffect]
@[simp] theorem keepsMemory_execLog {p c b} : KeepsMemory s (execLog p c b s) := by simp [execLog, logEffect]
@[simp] theorem keepsMemory_execTrapchk {p c b} : KeepsMemory s (execTrapchk p c b s) := by simp [execTrapchk]

/-! Design memory. -/

@[simp] theorem memory_recordBank {p i src e ue} : memory (recordBank p i src e ue s) = memory s := by simp [recordBank]

@[simp] theorem memory_bankCorrected {p i src raw e} : memory (bankCorrected p i src raw e s) = memory s := by
  simp [bankCorrected]

@[simp] theorem memory_recordDeep {k src port es ue} : memory (recordDeep k src port es ue s) = memory s := by
  simp [recordDeep]

@[simp] theorem memory_deepCorrected {k src port pav raw es} :
    memory (deepCorrected k src port pav raw es s) = memory s := by
  simp [deepCorrected]

@[simp] theorem memory_outOfAlloc {p d desc inst} : memory (outOfAlloc p d desc inst s) = memory s := by
  simp [outOfAlloc, recordFirst]

@[simp] theorem memory_dmemAsk {terr tick} : memory (dmemAsk terr tick s) = memory s := by simp [dmemAsk]

@[simp] theorem memory_readInst {p d desc cs inst idx x} :
    memory (readInst s p d desc cs inst idx x).2.2 = memory x := by
  unfold readInst
  dsimp only
  (repeat' split) <;> simp

set_option exponentiation.threshold 512 in
@[simp] theorem memory_performRead {p d desc cs} : memory (performRead p d desc cs s) = memory s := by
  have second : ∀ (c : Bool) i x,
      memory (if c then readInst s p d desc cs 1 i x else (false, none, x)).2.2 = memory x := by
    intro c i x
    cases c <;> simp
  simp [performRead, second]

@[simp] theorem memory_descError {name} : memory (descError s name) = memory s := by simp [descError]
@[simp] theorem memory_poisonHalt : memory (poisonHalt s) = memory s := by simp [poisonHalt]
@[simp] theorem memory_setDeepRead {old new} : memory (setDeepRead old new s) = memory s := by simp [setDeepRead]

set_option exponentiation.threshold 512 in
@[simp] theorem keepsMemory_execDmemResultDeliver {t} : KeepsMemory s (execDmemResultDeliver t s) := by
  unfold execDmemResultDeliver
  split <;> simp [missDeep, deliverDeep]

@[simp] theorem memory_memPass {lo} : memory (memPass lo s) = memory s := by simp [memPass]

/-! Triggers and capture. -/

@[simp] theorem memory_armReceived {a} : memory (armReceived a s) = memory s := by simp [armReceived]
@[simp] theorem memory_disarmReceived : memory (disarmReceived s) = memory s := by simp [disarmReceived]

@[simp] theorem memory_armTakesEffect : memory (armTakesEffect s) = memory s := by
  unfold armTakesEffect
  split <;> simp

@[simp] theorem memory_raiseFire {hits c forced haltAfter} : memory (raiseFire hits c forced haltAfter s) = memory s := by
  simp [raiseFire]

@[simp] theorem memory_tryDone : memory (tryDone s) = memory s := by
  unfold tryDone
  split <;> simp

@[simp] theorem memory_fireReceived {m} : memory (fireReceived m s) = memory s := by
  unfold fireReceived
  split
  · dsimp only
    rw [memory_tryDone, memory_logEvent, memory_mk, memory_setReg]
  · rfl

@[simp] theorem memory_sendFire {m} : memory (sendFire m s) = memory s := by simp [sendFire]

@[simp] theorem memory_fireAtMaster {m} : memory (fireAtMaster m s) = memory s := by
  unfold fireAtMaster
  dsimp only
  (repeat' split) <;> simp

@[simp] theorem memory_fireTick : memory (fireTick s) = memory s := by
  unfold fireTick
  split <;> simp

@[simp] theorem memory_condAction {c} : memory (condAction c s) = memory s := by
  unfold condAction
  dsimp only
  split <;> simp

@[simp] theorem memory_decide8 : memory (decide8 s) = memory s := by
  unfold decide8
  dsimp only
  (repeat' split) <;> simp

@[simp] theorem memory_densEnd {cut} : memory (densEnd cut s) = memory s := by simp [densEnd, densWrite]

@[simp] theorem memory_measRun {u m} : memory (measRun u m s) = memory s := by
  unfold measRun
  split <;> simp

@[simp] theorem memory_measEdge {u up m} : memory (measEdge u up m s) = memory s := by
  unfold measEdge
  split <;> simp

@[simp] theorem memory_measSample {u} : memory (measSample s u) = memory s := by
  unfold measSample
  dsimp only
  (repeat' split) <;> simp

@[simp] theorem memory_dropWrite {w} : memory (dropWrite s w) = memory s := by simp [dropWrite]

@[simp] theorem keepsMemory_execProbeSample : KeepsMemory s (execProbeSample s) := by
  simp [execProbeSample, probeSample, evalConds, densSample, captureSample]

@[simp] theorem keepsMemory_execSequencerDecision : KeepsMemory s (execSequencerDecision s) := by
  simp [execSequencerDecision]

@[simp] theorem memory_sendArm {on} : memory (sendArm on s) = memory s := by simp [sendArm]
@[simp] theorem keepsMemory_execArm : KeepsMemory s (execArm s) := by simp [execArm]
@[simp] theorem keepsMemory_execDisarm : KeepsMemory s (execDisarm s) := by simp [execDisarm]
@[simp] theorem keepsMemory_execForce : KeepsMemory s (execForce s) := by simp [execForce]
@[simp] theorem keepsMemory_execArmMessage {m} : KeepsMemory s (execArmMessage m s) := by simp [execArmMessage]
@[simp] theorem keepsMemory_execFire {m} : KeepsMemory s (execFire m s) := by simp [execFire]
@[simp] theorem keepsMemory_execTriggerTimeout : KeepsMemory s (execTriggerTimeout s) := by simp [execTriggerTimeout]
@[simp] theorem keepsMemory_execDensityWindowEnd : KeepsMemory s (execDensityWindowEnd s) := by simp [execDensityWindowEnd]
@[simp] theorem memory_writeMeas {u v} : memory (writeMeas u v s) = memory s := by simp [writeMeas]
@[simp] theorem keepsMemory_execMeasEnable {u v} : KeepsMemory s (execMeasEnable u v s) := by simp [execMeasEnable]
@[simp] theorem memory_writeDens {v} : memory (writeDens v s) = memory s := by simp [writeDens]
@[simp] theorem keepsMemory_execDensEnable {v} : KeepsMemory s (execDensEnable v s) := by simp [execDensEnable]

/-! Completions and messages. -/

@[simp] theorem memory_setChan {c x} : memory (setChan c x s) = memory s := by simp [setChan]

@[simp] theorem memory_complete {c e} : memory (complete c e s) = memory s := by
  unfold complete
  split <;> simp

@[simp] theorem memory_noteTags : memory (noteTags s) = memory s := by simp [noteTags]
@[simp] theorem memory_setCredits {k n} : memory (setCredits k n s) = memory s := by simp [setCredits]
@[simp] theorem memory_setUnclaimed {k n} : memory (setUnclaimed k n s) = memory s := by simp [setUnclaimed]
@[simp] theorem memory_setMsg {m} : memory (setMsg m s) = memory s := by simp [setMsg]
@[simp] theorem memory_removeMsg {o} : memory (removeMsg o s) = memory s := by simp [removeMsg]
@[simp] theorem memory_returnCredit {m} : memory (returnCredit m s) = memory s := by simp [returnCredit]
@[simp] theorem memory_dropRest {c tag r} : memory (dropRest c tag r s) = memory s := by simp [dropRest]
@[simp] theorem memory_forgetRests {c} : memory (forgetRests c s) = memory s := by simp [forgetRests]
@[simp] theorem memory_tooLate {c tag} : memory (tooLate c tag s) = memory s := by simp [tooLate]

@[simp] theorem memory_endMsg {m status detail course devWords} :
    memory (endMsg m status detail course devWords s) = memory s := by
  simp [endMsg]

@[simp] theorem memory_breakMsg {detail m} : memory (breakMsg detail s m) = memory s := by simp [breakMsg]
@[simp] theorem memory_cancelMsg {status detail m} : memory (cancelMsg status detail s m) = memory s := by simp [cancelMsg]

@[simp] theorem memory_endHeld {w status detail devWords} : memory (endHeld w status detail devWords s) = memory s := by
  simp [endHeld]

@[simp] theorem memory_putRecord {ws} : memory (putRecord ws s) = memory s := by simp [putRecord]
@[simp] theorem memory_loseRecord : memory (loseRecord s) = memory s := by simp [loseRecord]

@[simp] theorem memory_drainRecords {g l} : memory (drainRecords g l s) = memory s := by
  induction l generalizing s with
  | nil => simp [drainRecords]
  | cons e r ih => simp [drainRecords, ih]

@[simp] theorem memory_writeRecords {g} : memory (writeRecords g s) = memory s := by simp [writeRecords]
@[simp] theorem memory_stopDataPlane : memory (stopDataPlane s) = memory s := by simp [stopDataPlane]
@[simp] theorem memory_dropMessages {c} : memory (dropMessages c s) = memory s := by simp [dropMessages]
@[simp] theorem memory_chanError {c err} : memory (chanError c err s) = memory s := by simp [chanError]
@[simp] theorem memory_chanOff {c} : memory (chanOff c s) = memory s := by simp [chanOff]
@[simp] theorem memory_drained {c} : memory (drained c s) = memory s := by simp [drained]
@[simp] theorem memory_applyBudgets : memory (applyBudgets s) = memory s := by simp [applyBudgets]

/-! The stroke. -/

@[simp] theorem memory_contention {pc w x} : memory (contention pc w s x) = memory s := by simp [contention]

@[simp] theorem memory_resolveOne {before k} : memory (resolveOne before s k) = memory s := by
  unfold resolveOne
  dsimp only
  (repeat' split) <;> simp

@[simp] theorem memory_resolveWires : memory (resolveWires s) = memory s := by simp [resolveWires]

@[simp] theorem memory_appendLogs : memory (appendLogs s) = memory s := by
  simp [appendLogs, appendLog, appendInst, endMessage]

@[simp] theorem memory_applyLandings : memory (applyLandings s) = memory s := by simp [applyLandings, landOne]

@[simp] theorem memory_applyPin {d} : memory (applyPin s d) = memory s := by
  unfold applyPin
  split <;> simp

@[simp] theorem memory_applyPins {g} : memory (applyPins g s) = memory s := by simp [applyPins]
@[simp] theorem memory_startStroke : memory (startStroke s) = memory s := by simp [startStroke]
@[simp] theorem memory_clockTick : memory (clockTick s) = memory s := by simp [clockTick, traceTime]

/-! The network. -/

@[simp] theorem keepsMemory_execVn0Launch {p e} : KeepsMemory s (execVn0Launch p e s) := by simp [execVn0Launch, launch]

@[simp] theorem memory_recordNet {p kind output winner loser cyc tag} :
    memory (recordNet p kind output winner loser cyc tag s) = memory s := by
  unfold recordNet
  split <;> simp

@[simp] theorem memory_collision {p kind output winner loser cyc} :
    memory (collision p kind output winner loser cyc s) = memory s := by
  simp [collision]

@[simp] theorem memory_flitCheck {p inp cyc} : memory (flitCheck p inp cyc s) = memory s := by simp [flitCheck]
@[simp] theorem memory_dropFlit {f} : memory (dropFlit f s) = memory s := by simp [dropFlit]

@[simp] theorem memory_contest {f} : memory (contest f s).2 = memory s := by
  unfold contest
  dsimp only
  (repeat' split) <;> simp [skid]

@[simp] theorem memory_takeFlit {act : Flit → State → State} {f err} (h : ∀ x, memory (act f x) = memory x) :
    memory (takeFlit act f err s) = memory s := by
  unfold takeFlit
  split <;> simp [h]

@[simp] theorem keepsMemory_execFlitSwitch {p inp err} : KeepsMemory s (execFlitSwitch p inp err s) := by
  unfold execFlitSwitch
  split <;> simp [switchFlit, forward]

@[simp] theorem keepsMemory_execVn0Land {p inp err} : KeepsMemory s (execVn0Land p inp err s) := by
  unfold execVn0Land
  split <;> simp [landFlit, land, skew]

@[simp] theorem memory_flitMissed {gp tag n} : memory (flitMissed gp tag n s) = memory s := by simp [flitMissed]

@[simp] theorem memory_handOff {x} : memory (handOff x s) = memory s := by
  unfold handOff
  dsimp only
  (repeat' split) <;> simp [enterGateway]

@[simp] theorem memory_missFlit {n} : memory (missFlit n s) = memory s := by
  unfold missFlit
  split <;> simp

@[simp] theorem keepsMemory_execIngressHandoff {n} : KeepsMemory s (execIngressHandoff n s) := by
  unfold execIngressHandoff
  split <;> simp

@[simp] theorem memory_setBuf {k ps} : memory (setBuf k ps s) = memory s := by simp [setBuf]
@[simp] theorem memory_setWaiting {k ps} : memory (setWaiting k ps s) = memory s := by simp [setWaiting]
@[simp] theorem memory_setOwed {r n} : memory (setOwed r n s) = memory s := by simp [setOwed]
@[simp] theorem memory_enter {r inp p} : memory (enter r inp p s) = memory s := by simp [enter]
@[simp] theorem memory_enqueuePacket {r inp p} : memory (enqueuePacket r inp p s) = memory s := by simp [enqueuePacket]

@[simp] theorem memory_refill {r inp vn} : memory (refill r inp vn s) = memory s := by
  unfold refill
  dsimp only
  split <;> simp

@[simp] theorem memory_refillAll {r} : memory (refillAll r s) = memory s := by simp [refillAll]
@[simp] theorem memory_toInbox {r p} : memory (toInbox r p s) = memory s := by simp [toInbox]
@[simp] theorem memory_toIo {p} : memory (toIo p s) = memory s := by simp [toIo]

@[simp] theorem memory_queued {p port x} : memory (queued p port x s) = memory s := by
  unfold queued
  split <;> simp

@[simp] theorem memory_reply {p op addr data x} : memory (reply p op addr data x s) = memory s := by simp [reply]
@[simp] theorem memory_replyStatus {p code x} : memory (replyStatus p code x s) = memory s := by simp [replyStatus]
@[simp] theorem memory_ioAnswer {op code x} : memory (ioAnswer op code x s) = memory s := by simp [ioAnswer]
@[simp] theorem memory_ioStatus {code x} : memory (ioStatus code x s) = memory s := by simp [ioStatus]

/-- As functions, so that the kernel compares the two bodies and does not evaluate the packet's head. -/
theorem sendNotice_eq : sendNotice = fun p port inst credit s =>
    let h := mkHead 0xE (position s) true 0 (position s) false p 0 1 0 0
    match routed s p h [BitVec.ofNat 64 (port + inst * 2 ^ 12 + credit.toNat * 2 ^ 13)] with
    | some x => enqueuePacket p 0 x s
    | none => toInbox p
        { head := replyHead s p 0xA 0 ccDeadTarget h, data := [], vn := 2, legs := 0, endG := false, nextPort := 0,
          bad := false, held := 0, cls := false } (setOwed p (look 0 s.net.owed p + 1) s) := rfl

@[simp] theorem memory_sendNotice {p port inst credit} : memory (sendNotice p port inst credit s) = memory s := by
  rw [sendNotice_eq]
  beta_reduce
  extract_lets h
  cases routed s p h _ with
  | some x => exact memory_enqueuePacket
  | none => exact memory_toInbox.trans memory_setOwed

@[simp] theorem memory_dropNotices {f} : memory (dropNotices f s) = memory s := by simp [dropNotices]
@[simp] theorem memory_losePkt {pk} : memory (losePkt s pk) = memory s := by simp [losePkt]

@[simp] theorem memory_sendFar {pk} : memory (sendFar pk s) = memory s := by
  unfold sendFar
  split <;> simp [transmit]

@[simp] theorem memory_atIo {pk} : memory (atIo pk s) = memory s := by
  unfold atIo
  dsimp only
  (repeat' split) <;> simp

@[simp] theorem memory_atLocal {r pk} : memory (atLocal r pk s) = memory s := by
  unfold atLocal
  dsimp only
  (repeat' split) <;> simp

@[simp] theorem memory_movePacket {r inp k vn pk errs} : memory (movePacket r inp k vn pk errs s) = memory s := by
  unfold movePacket
  dsimp only
  (repeat' split) <;> simp [takeOutput]

@[simp] theorem memory_waitPacket {r inp vn pk} : memory (waitPacket r inp vn pk s) = memory s := by simp [waitPacket]

@[simp] theorem memory_waitHeld {r k} : memory (waitHeld r k s) = memory s := by
  unfold waitHeld
  refine memory_foldl fun x vn => memory_foldl fun y i => ?_
  split <;> simp

@[simp] theorem memory_hop {r k errs} : memory (hop r k errs s) = memory s := by
  have held : memory (waitHeld r k (refillAll r s)) = memory s := by simp
  unfold hop
  dsimp only
  generalize waitHeld r k (refillAll r s) = y at held
  split
  · exact held
  · split
    · exact held
    · exact memory_movePacket.trans held

@[simp] theorem keepsMemory_execPacketHop {p out errs} : KeepsMemory s (execPacketHop p out errs s) := by
  simp [execPacketHop]

@[simp] theorem keepsMemory_execRouteBusy {p out} : KeepsMemory s (execRouteBusy p out s) := by
  unfold execRouteBusy
  split <;> simp

@[simp] theorem memory_portsUp {d} : memory (portsUp d s) = memory s := by simp [portsUp, portUps]

@[simp] theorem memory_replayLatch {d} : memory (replayLatch d s) = memory s := by
  unfold replayLatch
  split <;> simp

@[simp] theorem keepsMemory_execWakeLatchReplay {die} : KeepsMemory s (execWakeLatchReplay die s) := by
  simp [execWakeLatchReplay]

/-! Bank cycles. -/

@[simp] theorem memory_takeCycle {p b} : memory (takeCycle p b s) = memory s := by simp [takeCycle]
@[simp] theorem memory_takeFor {p b rank} : memory (takeFor p b rank s) = memory s := by simp [takeFor]

/-! The course controller. -/

@[simp] theorem memory_throttleStep {up} : memory (throttleStep up s) = memory s := by simp [throttleStep]

@[simp] theorem memory_enterEasy : memory (enterEasy s) = memory s := by
  unfold enterEasy
  split
  · rfl
  · dsimp only
    split
    · rw [memory_ite, memory_throttleStep, memory_mk, memory_setReg, memory_setReg, memory_count, ite_self]
    · rw [memory_mk, memory_setReg, memory_setReg, memory_count]

@[simp] theorem memory_chargeEasy : memory (chargeEasy s) = memory s := by simp [chargeEasy]
@[simp] theorem memory_dropStops : memory (dropStops s) = memory s := by simp [dropStops]
@[simp] theorem memory_serviceEffects : memory (serviceEffects s) = memory s := by simp [serviceEffects, triggerStop]
@[simp] theorem memory_applyMode {m} : memory (applyMode m s) = memory s := by simp [applyMode, logMode]
@[simp] theorem memory_adoptShadow {p} : memory (adoptShadow p s) = memory s := by simp [adoptShadow]

@[simp] theorem memory_liven {p} : memory (liven s p) = memory s := by
  unfold liven
  split <;> simp

@[simp] theorem memory_headerPolicies : memory (headerPolicies s) = memory s := by
  unfold headerPolicies
  split <;> simp

@[simp] theorem memory_setLnk {n x} : memory (setLnk n x s) = memory s := by simp [setLnk]
@[simp] theorem memory_showFar {n} : memory (showFar n s) = memory s := by simp [showFar]
@[simp] theorem memory_toMeasuring : memory (toMeasuring s) = memory s := by simp [toMeasuring]
@[simp] theorem memory_tryMeasure : memory (tryMeasure s) = memory s := by simp [tryMeasure]
@[simp] theorem memory_recentre {f} : memory (recentre f s) = memory s := by simp [recentre]

@[simp] theorem memory_enterHalted {cause teth} : memory (enterHalted cause teth s) = memory s :=
  memory_of_stores (keepsPower_enterHalted cause teth s).stores

@[simp] theorem memory_haltHere {cause} : memory (haltHere cause s) = memory s := by
  unfold haltHere
  split <;> simp

@[simp] theorem memory_haltHereAll {cause} : memory (haltHereAll cause s) = memory s := by simp [haltHereAll]
@[simp] theorem memory_slip : memory (slip s) = memory s := by simp [slip]
@[simp] theorem memory_setPkg {st src} : memory (setPkg st src s) = memory s := by simp [setPkg]
@[simp] theorem memory_setDies {code} : memory (setDies code s) = memory s := by simp [setDies]
@[simp] theorem memory_wakeP1 : memory (wakeP1 s) = memory s := by simp [wakeP1]
@[simp] theorem memory_startLead {stepping} : memory (startLead stepping s) = memory s := by simp [startLead]
@[simp] theorem keepsMemory_execRun : KeepsMemory s (execRun s) := by simp [execRun]
@[simp] theorem keepsMemory_execStep : KeepsMemory s (execStep s) := by simp [execStep]

@[simp] theorem keepsMemory_execHalt : KeepsMemory s (execHalt s) := by
  unfold execHalt
  split <;> simp

@[simp] theorem keepsMemory_execAsk {m} : KeepsMemory s (execAsk m s) := by
  unfold execAsk
  dsimp only
  split <;> simp

@[simp] theorem keepsMemory_execStop {x} : KeepsMemory s (execStop x s) := by simp [execStop]

@[simp] theorem memory_clearAtMaster {m ago} : memory (clearAtMaster m ago s) = memory s := by
  unfold clearAtMaster
  dsimp only
  split
  · split <;> simp
  · simp

@[simp] theorem keepsMemory_execClear {m} : KeepsMemory s (execClear m s) := by simp [execClear]
@[simp] theorem keepsMemory_execResume {m} : KeepsMemory s (execResume m s) := by simp [execResume, setFigure]
@[simp] theorem memory_toForming : memory (toForming s) = memory s := by simp [toForming]

@[simp] theorem keepsMemory_execHaltMessage {m} : KeepsMemory s (execHaltMessage m s) := by
  simp [execHaltMessage, haltArrives]

@[simp] theorem keepsMemory_execEasyLong : KeepsMemory s (execEasyLong s) := by simp [execEasyLong]

@[simp] theorem keepsMemory_execThrottleRequest {up x} : KeepsMemory s (execThrottleRequest up x s) := by
  simp [execThrottleRequest]

@[simp] theorem keepsMemory_execCourseStretchAsk : KeepsMemory s (execCourseStretchAsk s) := by simp [execCourseStretchAsk]
@[simp] theorem keepsMemory_execBoardWaitTimeout : KeepsMemory s (execBoardWaitTimeout s) := by simp [execBoardWaitTimeout]

@[simp] theorem memory_measureTclk : memory (measureTclk s) = memory s := by
  unfold measureTclk
  split <;> simp

@[simp] theorem keepsMemory_execTclkEdge {falling} : KeepsMemory s (execTclkEdge falling s) := by
  simp [execTclkEdge, paceTclk, overrun]

/-! Trace. -/

@[simp] theorem memory_writeMsgCtrl {v} : memory (writeMsgCtrl v s) = memory s := by simp [writeMsgCtrl]
@[simp] theorem keepsMemory_execMsgCtrl {v} : KeepsMemory s (execMsgCtrl v s) := by simp [execMsgCtrl]

@[simp] theorem memory_commitMarker : memory (commitMarker s) = memory s := by
  unfold commitMarker
  split <;> simp

@[simp] theorem keepsMemory_execHostMarkerCommit : KeepsMemory s (execHostMarkerCommit s) := by simp [execHostMarkerCommit]

@[simp] theorem memory_commitLog : memory (commitLog s) = memory s := by
  unfold commitLog
  split <;> simp

@[simp] theorem keepsMemory_execLogPacketCommit : KeepsMemory s (execLogPacketCommit s) := by simp [execLogPacketCommit]

@[simp] theorem memory_putPacket {p} : memory (putPacket p s) = memory s := by
  unfold putPacket
  split <;> simp [ringWrite, hostRingWrite, losePacket]

@[simp] theorem memory_flushStep : memory (flushStep s) = memory s := by
  unfold flushStep
  split <;> simp

@[simp] theorem memory_traceBusError : memory (traceBusError s) = memory s := by simp [traceBusError]

@[simp] theorem memory_sinkWrite {busErr} : memory (sinkWrite busErr s) = memory s := by
  unfold sinkWrite
  split <;> simp

@[simp] theorem keepsMemory_execTraceSinkWrite {busErr} : KeepsMemory s (execTraceSinkWrite busErr s) := by
  simp [execTraceSinkWrite]

@[simp] theorem memory_flushNow : memory (flushNow s) = memory s := by
  unfold flushNow
  split <;> simp

@[simp] theorem keepsMemory_execFlush : KeepsMemory s (execFlush s) := by simp [execFlush]
@[simp] theorem memory_writeTrcCtrl {v} : memory (writeTrcCtrl v s) = memory s := by simp [writeTrcCtrl, traceStart]
@[simp] theorem keepsMemory_execTraceEnable {v} : KeepsMemory s (execTraceEnable v s) := by simp [execTraceEnable]
@[simp] theorem memory_keeperDown : memory (keeperDown s) = memory s := by simp [keeperDown]
@[simp] theorem memory_keeperUp : memory (keeperUp s) = memory s := by simp [keeperUp]
@[simp] theorem keepsMemory_execKeeperSleep : KeepsMemory s (execKeeperSleep s) := by simp [execKeeperSleep]
@[simp] theorem keepsMemory_execKeeperWake : KeepsMemory s (execKeeperWake s) := by simp [execKeeperWake]

/-! The mailbox. -/

@[simp] theorem memory_commandPacket {code isEnd} : memory (commandPacket code isEnd s) = memory s := by simp [commandPacket]
@[simp] theorem memory_writeArgs {m} : memory (writeArgs m s) = memory s := by simp [writeArgs]
@[simp] theorem memory_mbxBegin {cmd long irq seq} : memory (mbxBegin cmd long irq seq s) = memory s := by simp [mbxBegin]
@[simp] theorem memory_mbxEnd {r} : memory (mbxEnd r s) = memory s := by simp [mbxEnd]

@[simp] theorem memory_mbxWrite {cmd long inRom m} {body : State → State} (h : ∀ x, memory (body x) = memory x) :
    memory (mbxWrite cmd long inRom m body s) = memory s := by
  simp [mbxWrite, h]

@[simp] theorem memory_mbxShort {cmd m} {f : State → State × MbxRes} (h : ∀ x, memory (f x).1 = memory x) :
    memory (mbxShort cmd m f s) = memory s := by
  simp [mbxShort, h]

@[simp] theorem memory_mbxDue {r} : memory (mbxDue r s) = memory s := by simp [mbxDue]
@[simp] theorem memory_mbxRefuse {code detail} : memory (mbxRefuse code detail s) = memory s := by simp [mbxRefuse]

@[simp] theorem keepsMemory_execReservedCommand {m code} : KeepsMemory s (execReservedCommand m code s) := by
  simp [execReservedCommand]

@[simp] theorem keepsMemory_execMbxComplete : KeepsMemory s (execMbxComplete s) := by
  unfold execMbxComplete
  split <;> simp

/-! Wake events. -/

@[simp] theorem memory_beginWake {src latched} : memory (beginWake src latched s) = memory s := by simp [beginWake]
@[simp] theorem memory_packageWake {src} : memory (packageWake src s) = memory s := by simp [packageWake]

/-! The Daxair ports. -/

@[simp] theorem memory_setLnkState {n st} : memory (setLnkState n st s) = memory s := by simp [setLnkState]
@[simp] theorem memory_leaveOff {n} : memory (leaveOff s n) = memory s := by simp [leaveOff]
@[simp] theorem memory_openLinks : memory (openLinks s) = memory s := by simp [openLinks]
@[simp] theorem memory_lnkReset {n} : memory (lnkReset n s) = memory s := by simp [lnkReset]
@[simp] theorem memory_setPortActive {n b} : memory (setPortActive n b s) = memory s := by simp [setPortActive]

@[simp] theorem memory_checkPort {n} : memory (checkPort n s) = memory s := by
  unfold checkPort
  split <;> simp

@[simp] theorem memory_coxTo {ps m} : memory (coxTo ps m s) = memory s := by simp [coxTo]
@[simp] theorem memory_boardLoses {n st} : memory (boardLoses n st s) = memory s := by simp [boardLoses, isolate]
@[simp] theorem memory_leavePort {n st cause} : memory (leavePort n st cause s) = memory s := by simp [leavePort]
@[simp] theorem memory_toTrain {n cause} : memory (toTrain n cause s) = memory s := by simp [toTrain]
@[simp] theorem memory_toFault {n cause} : memory (toFault n cause s) = memory s := by simp [toFault]

@[simp] theorem memory_spareBad {n} : memory (spareBad n s) = memory s := by
  unfold spareBad
  split <;> simp

@[simp] theorem memory_markBad {n p} : memory (markBad n p s) = memory s := by simp [markBad]

@[simp] theorem keepsMemory_execDetect {n opens shorts clockOk} : KeepsMemory s (execDetect n opens shorts clockOk s) := by
  simp [execDetect, detectResult]

@[simp] theorem memory_tryLock {n} : memory (tryLock n s) = memory s := by simp [tryLock]

@[simp] theorem memory_checkBits {n e} : memory (checkBits n s e) = memory s := by
  unfold checkBits
  dsimp only
  (repeat' split) <;> simp

@[simp] theorem memory_checkLanes {n lanes} : memory (checkLanes n lanes s) = memory s := by simp [checkLanes]

@[simp] theorem memory_trainData {n p block} : memory (trainData n p block s) = memory s := by
  unfold trainData
  dsimp only
  (repeat' split) <;> simp

@[simp] theorem keepsMemory_execTrainBlock {n lane block} : KeepsMemory s (execTrainBlock n lane block s) := by
  simp [execTrainBlock, trainClock]

@[simp] theorem memory_setFom {n lane x w ctle} : memory (setFom n lane x w ctle s) = memory s := by simp [setFom]

@[simp] theorem keepsMemory_execAdaptStep {n lane x w} : KeepsMemory s (execAdaptStep n lane x w s) := by
  simp [execAdaptStep, adaptLane]

@[simp] theorem keepsMemory_execBlockLock {n} : KeepsMemory s (execBlockLock n s) := by simp [execBlockLock]
@[simp] theorem keepsMemory_execTrainTimeout {n} : KeepsMemory s (execTrainTimeout n s) := by simp [execTrainTimeout]
@[simp] theorem keepsMemory_execLockTimeout {n} : KeepsMemory s (execLockTimeout n s) := by simp [execLockTimeout]

@[simp] theorem keepsMemory_execExchangeTimeout {n} : KeepsMemory s (execExchangeTimeout n s) := by
  simp [execExchangeTimeout]

@[simp] theorem keepsMemory_execFaultRetry {n} : KeepsMemory s (execFaultRetry n s) := by simp [execFaultRetry]
@[simp] theorem memory_frameError {n} : memory (frameError n s) = memory s := by simp [frameError]

@[simp] theorem memory_discardFrame {n dropNext scram} : memory (discardFrame n dropNext scram s) = memory s := by
  simp [discardFrame]

@[simp] theorem keepsMemory_onFrame {n f0 want} {act : RxDone → State → State}
    (h : ∀ d x, memory (act d x) = memory x) : KeepsMemory s (onFrame n f0 want act s) := by
  unfold onFrame
  dsimp only
  (repeat' split) <;> simp [h]

@[simp] theorem memory_actCox {m} : memory (actCox m s) = memory s := by
  refine memory_after ?_
  split <;> simp

@[simp] theorem memory_takePacket {fl vn cls} : memory (takePacket fl vn cls s) = memory s := by
  unfold takePacket
  split <;> simp

@[simp] theorem memory_takeData {n b} : memory (takeData n b s) = memory s := by
  simp [takeData, takeVn0, holdFlit, takeSlot, takeAck]

@[simp] theorem keepsMemory_execDataFrame {n f} : KeepsMemory s (execDataFrame n f s) := by simp [execDataFrame, takeCox]
@[simp] theorem memory_tryActive {n} : memory (tryActive n s) = memory s := by simp [tryActive, becomeActive]
@[simp] theorem keepsMemory_execExchange {n f} : KeepsMemory s (execExchange n f s) := by simp [execExchange, takeExchange]
@[simp] theorem keepsMemory_execAlign {n f} : KeepsMemory s (execAlign n f s) := by simp [execAlign]
@[simp] theorem memory_askControl {n k} : memory (askControl n k s) = memory s := by simp [askControl]
@[simp] theorem memory_goSleep {n} : memory (goSleep n s) = memory s := by simp [goSleep]
@[simp] theorem memory_wakeTo {wakes n} : memory (wakeTo wakes n s) = memory s := by simp [wakeTo]
@[simp] theorem memory_portWakes {n} : memory (portWakes n s) = memory s := by simp [portWakes]
@[simp] theorem keepsMemory_execSleepReq {n f} : KeepsMemory s (execSleepReq n f s) := by simp [execSleepReq]
@[simp] theorem keepsMemory_execSleepAck {n f} : KeepsMemory s (execSleepAck n f s) := by simp [execSleepAck]
@[simp] theorem memory_sleepOp {n} : memory (sleepOp n s) = memory s := by simp [sleepOp]
@[simp] theorem keepsMemory_execSleep {n} : KeepsMemory s (execSleep n s) := by simp [execSleep]

@[simp] theorem keepsMemory_execSleepAckTimeout {n} : KeepsMemory s (execSleepAckTimeout n s) := by
  simp [execSleepAckTimeout]

@[simp] theorem memory_wakeOp {n} : memory (wakeOp n s) = memory s := by simp [wakeOp]
@[simp] theorem keepsMemory_execWake {n} : KeepsMemory s (execWake n s) := by simp [execWake]
@[simp] theorem keepsMemory_execWakeBlock {w} : KeepsMemory s (execWakeBlock w s) := by simp [execWakeBlock]

@[simp] theorem keepsMemory_execLaneSignalLoss {n lane lockLost} : KeepsMemory s (execLaneSignalLoss n lane lockLost s) := by
  unfold execLaneSignalLoss
  dsimp only
  split <;> simp [laneLoss]

@[simp] theorem keepsMemory_execBufferDrift {n ahead} : KeepsMemory s (execBufferDrift n ahead s) := by
  simp [execBufferDrift]

@[simp] theorem memory_driftFaults : memory (driftFaults s) = memory s := by simp [driftFaults]

@[simp] theorem keepsMemory_execFomRefresh {n lane x w} : KeepsMemory s (execFomRefresh n lane x w s) := by
  simp [execFomRefresh]

@[simp] theorem keepsMemory_execLinkLost {x} : KeepsMemory s (execLinkLost x s) := by simp [execLinkLost]
@[simp] theorem memory_retrainOp {n} : memory (retrainOp n s) = memory s := by simp [retrainOp]
@[simp] theorem keepsMemory_execRetrain {n} : KeepsMemory s (execRetrain n s) := by simp [execRetrain]
@[simp] theorem memory_testOp {n on} : memory (testOp n on s) = memory s := by simp [testOp]
@[simp] theorem keepsMemory_execTest {n on} : KeepsMemory s (execTest n on s) := by simp [execTest]
@[simp] theorem memory_injectOp {n v} : memory (injectOp n v s) = memory s := by simp [injectOp]
@[simp] theorem keepsMemory_execInject {n v} : KeepsMemory s (execInject n v s) := by simp [execInject]
@[simp] theorem memory_portOff {n} : memory (portOff n s) = memory s := by simp [portOff]

/-! Boards and modes. -/

@[simp] theorem memory_formBoard : memory (formBoard s) = memory s := by simp [formBoard]
@[simp] theorem memory_boardFails : memory (boardFails s) = memory s := by simp [boardFails]
@[simp] theorem memory_unusedOff : memory (unusedOff s) = memory s := by simp [unusedOff]

@[simp] theorem memory_remeasure {m} : memory (remeasure m s) = memory s := by simp [remeasure]
@[simp] theorem keepsMemory_execBoardIncomplete : KeepsMemory s (execBoardIncomplete s) := by simp [execBoardIncomplete]
@[simp] theorem memory_modeDone {c} : memory (modeDone c s).1 = memory s := by simp [modeDone]
@[simp] theorem keepsMemory_execMoveMaster {m} : KeepsMemory s (execMoveMaster m s) := by simp [execMoveMaster, moveMaster]

/-! Power states. -/

@[simp] theorem memory_dieReset {d} : memory (dieReset d s) = memory s := by simp [dieReset]
@[simp] theorem memory_dieOn {d} : memory (dieOn d s) = memory s := by simp [dieOn]
@[simp] theorem memory_diePavsDead {d} : memory (diePavsDead d s) = memory s := by simp [diePavsDead, setLatch]
@[simp] theorem memory_dieFails {d} : memory (dieFails d s) = memory s := by simp [dieFails]

@[simp] theorem memory_dieDown {d} : memory (dieDown d s).1 = memory s := by
  unfold dieDown
  split <;> simp [portDowns]

@[simp] theorem memory_dieUp {d ready} : memory (dieUp d ready s).1 = memory s := by
  unfold dieUp
  (repeat' split) <;> simp

@[simp] theorem memory_portDown {n} : memory (portDown n s).1 = memory s := by
  unfold portDown
  split <;> simp

@[simp] theorem memory_portUp {n} : memory (portUp n s).1 = memory s := by simp [portUp]

@[simp] theorem memory_packageState {v} : memory (packageState v s).1 = memory s := by
  unfold packageState
  dsimp only
  (repeat' split) <;> simp

@[simp] theorem memory_powerDomain {op m} {f : State → State × MbxRes} (h : ∀ x, memory (f x).1 = memory x) :
    memory (powerDomain op m f s) = memory s := by
  simp [powerDomain, h, apply_ite Prod.fst]

@[simp] theorem keepsMemory_execPackageState {m} : KeepsMemory s (execPackageState m s) := by simp [execPackageState]
@[simp] theorem keepsMemory_execDieDown {m} : KeepsMemory s (execDieDown m s) := by simp [execDieDown]
@[simp] theorem keepsMemory_execDieUp {m ready} : KeepsMemory s (execDieUp m ready s) := by simp [execDieUp]
@[simp] theorem keepsMemory_execPortDown {m} : KeepsMemory s (execPortDown m s) := by simp [execPortDown]
@[simp] theorem keepsMemory_execPortUp {m} : KeepsMemory s (execPortUp m s) := by simp [execPortUp]

@[simp] theorem memory_flushAll {k} : memory (flushAll k s) = memory s := by
  induction k generalizing s with
  | zero => rfl
  | succ k ih => simp [flushAll, ih]

@[simp] theorem memory_latchPads : memory (latchPads s) = memory s := by simp [latchPads]
@[simp] theorem memory_banksRetain : memory (banksRetain s) = memory s := by simp [banksRetain]
@[simp] theorem memory_domainsP2 : memory (domainsP2 s) = memory s := by simp [domainsP2, portRetain]
@[simp] theorem memory_domainsP3 : memory (domainsP3 s) = memory s := by simp [domainsP3]
@[simp] theorem keepsMemory_execPcieWake : KeepsMemory s (execPcieWake s) := by simp [execPcieWake]
@[simp] theorem keepsMemory_execDaxairWake {n} : KeepsMemory s (execDaxairWake n s) := by simp [execDaxairWake]
@[simp] theorem memory_setKept {d st} : memory (setKept d st s) = memory s := by simp [setKept]

@[simp] theorem memory_stepOn {k} : memory (stepOn k s) = memory s := by
  unfold stepOn
  split <;> simp [netReset]

@[simp] theorem memory_startLeaf {next} : memory (startLeaf next s) = memory s := by simp [startLeaf]

@[simp] theorem memory_wakeStep {src us total n p3} : memory (wakeStep src us total n p3 s) = memory s := by
  simp [wakeStep, iodReady, wakeLink, awake]

@[simp] theorem keepsMemory_execWakeStep {us} : KeepsMemory s (execWakeStep us s) := by
  unfold execWakeStep
  split
  · simp
  · split <;> simp

@[simp] theorem keepsMemory_execWakeFail : KeepsMemory s (execWakeFail s) := by
  unfold execWakeFail
  dsimp only
  (repeat' split) <;> simp [stepFails]

@[simp] theorem keepsMemory_execResumeAfterWake : KeepsMemory s (execResumeAfterWake s) := by simp [execResumeAfterWake]

/-! Register reads. -/

@[simp] theorem memory_readEffects {a be} : memory (readEffects a be s) = memory s := by
  simp [readEffects, snapshot, readClears, rebasePeak]

@[simp] theorem memory_readKey {a be} : memory (readKey a be s) = memory s := by simp [readKey]
@[simp] theorem memory_accessFails {p code} : memory (accessFails p code s) = memory s := by simp [accessFails]
@[simp] theorem memory_wakeFor {d} : memory (wakeFor d s) = memory s := by simp [wakeFor]

@[simp] theorem memory_pavAccess {p} {ok bad : State → State} (hok : ∀ x, memory (ok x) = memory x)
    (hbad : ∀ x, memory (bad x) = memory x) : memory (pavAccess p ok bad s) = memory s := by
  simp [pavAccess, hok, hbad]

@[simp] theorem memory_writeCtr {a v} : memory (writeCtr a v s) = memory s := by simp [writeCtr]
@[simp] theorem memory_writePlain {a v} : memory (writePlain a v s) = memory s := by simp [writePlain]

@[simp] theorem keepsMemory_execCounterClear {addr} : KeepsMemory s (execCounterClear addr s) := by
  unfold execCounterClear
  dsimp only
  split <;> simp

@[simp] theorem memory_clearLog : memory (clearLog s) = memory s := by simp [clearLog]
@[simp] theorem keepsMemory_execEvlogClear : KeepsMemory s (execEvlogClear s) := by simp [execEvlogClear]

@[simp] theorem keepsMemory_execSchedInject {p v} : KeepsMemory s (execSchedInject p v s) := by
  simp [execSchedInject, writeInject]

@[simp] theorem memory_writeBankPage {v} : memory (writeBankPage v s) = memory s := by simp [writeBankPage]
@[simp] theorem keepsMemory_execBankPage {v} : KeepsMemory s (execBankPage v s) := by simp [execBankPage]

/-! The services of the packets. -/

@[simp] theorem memory_takeInbox {p pk} : memory (takeInbox p pk s) = memory s := by simp [takeInbox]

@[simp] theorem memory_serve {p op vn} {f : Packet → State → State} (h : ∀ pk x, memory (f pk x) = memory x) :
    memory (serve p op vn f s) = memory s := by
  unfold serve
  split <;> simp [h]

@[simp] theorem keepsMemory_execRegRd {p} : KeepsMemory s (execRegRd p s) := by simp [execRegRd, regRdService]
@[simp] theorem keepsMemory_execRegWr {p} : KeepsMemory s (execRegWr p s) := by simp [execRegWr, regWrService]

@[simp] theorem memory_deliverService {p pk} : memory (deliverService p pk s) = memory s := by
  unfold deliverService
  split <;> simp [stageMsg]

@[simp] theorem keepsMemory_execDeliver {p} : KeepsMemory s (execDeliver p s) := by simp [execDeliver]

@[simp] theorem memory_engineFails {e code detail} : memory (engineFails e code detail s) = memory s := by
  unfold engineFails
  split <;> simp

@[simp] theorem memory_respond {op io p} : memory (respond op io p s) = memory s := by
  unfold respond
  split <;> simp [takeReply, freeEngine]

@[simp] theorem keepsMemory_execRespData {io p} : KeepsMemory s (execRespData io p s) := by simp [execRespData]
@[simp] theorem keepsMemory_execRespAck {io p} : KeepsMemory s (execRespAck io p s) := by simp [execRespAck]
@[simp] theorem keepsMemory_execRespStatus {io p} : KeepsMemory s (execRespStatus io p s) := by simp [execRespStatus]

@[simp] theorem keepsMemory_execCfgWr {p addr word} : KeepsMemory s (execCfgWr p addr word s) := by
  simp [execCfgWr, cfgWrService, writeCfgWord]

@[simp] theorem keepsMemory_execCfgRd {p addr word n} : KeepsMemory s (execCfgRd p addr word n s) := by
  simp [execCfgRd, cfgRdService]

@[simp] theorem memory_takeNotice : memory (takeNotice s) = memory s := by
  unfold takeNotice
  split <;> simp

@[simp] theorem keepsMemory_execMgmt : KeepsMemory s (execMgmt s) := by simp [execMgmt]

/-! Host channels. -/

@[simp] theorem memory_setChn {c off v} : memory (setChn c off v s) = memory s := by simp [setChn]
@[simp] theorem memory_writeSqTail {c v} : memory (writeSqTail c v s) = memory s := by simp [writeSqTail]
@[simp] theorem memory_writeCqHead {c v} : memory (writeCqHead c v s) = memory s := by simp [writeCqHead]
@[simp] theorem keepsMemory_execSqTail {c fn v} : KeepsMemory s (execSqTail c fn v s) := by simp [execSqTail]
@[simp] theorem keepsMemory_execCqHead {c fn v} : KeepsMemory s (execCqHead c fn v s) := by simp [execCqHead]

@[simp] theorem memory_enableChannel {c v} : memory (enableChannel c v s) = memory s := by
  unfold enableChannel
  split <;> simp

@[simp] theorem memory_disableChannel {c v} : memory (disableChannel c v s) = memory s := by
  unfold disableChannel
  split <;> simp

@[simp] theorem keepsMemory_execChannelEnable {c fn v} : KeepsMemory s (execChannelEnable c fn v s) := by
  simp [execChannelEnable]

@[simp] theorem keepsMemory_execChannelDisable {c fn} : KeepsMemory s (execChannelDisable c fn s) := by
  simp [execChannelDisable]

@[simp] theorem memory_writeOwn {v} : memory (writeOwn v s) = memory s := by simp [writeOwn]
@[simp] theorem keepsMemory_execChOwn {v} : KeepsMemory s (execChOwn v s) := by simp [execChOwn]
@[simp] theorem memory_writeBudget {v} : memory (writeBudget v s) = memory s := by simp [writeBudget]
@[simp] theorem keepsMemory_execChBudget {v} : KeepsMemory s (execChBudget v s) := by simp [execChBudget]
@[simp] theorem memory_takeEntry {c} : memory (takeEntry c s) = memory s := by simp [takeEntry]

@[simp] theorem memory_endEntry {c f status detail hostBytes devWords} :
    memory (endEntry c f status detail hostBytes devWords s) = memory s := by
  simp [endEntry]

@[simp] theorem memory_badEntry {c f detail} : memory (badEntry c f detail s) = memory s := by
  unfold badEntry
  split <;> simp

@[simp] theorem memory_notePeaks : memory (notePeaks s) = memory s := by simp [notePeaks]

@[simp] theorem memory_fetchEntry {c op f} {act : State → State} (h : ∀ x, memory (act x) = memory x) :
    memory (fetchEntry c op f act s) = memory s := by
  unfold fetchEntry
  dsimp only
  (repeat' split) <;> simp [h]

@[simp] theorem keepsMemory_execNopEntry {c f} : KeepsMemory s (execNopEntry c f s) := by simp [execNopEntry]

@[simp] theorem memory_reachDie {d ready} : memory (reachDie d ready s).2 = memory s := by
  unfold reachDie
  (repeat' split) <;> simp

@[simp] theorem memory_reachPav {p ready} : memory (reachPav p ready s).2 = memory s := by
  unfold reachPav
  dsimp only
  (repeat' split) <;> simp

@[simp] theorem memory_readEnds {c f ws code} : memory (readEnds c f ws code s) = memory s := by simp [readEnds]
@[simp] theorem memory_writeEnds {c f n code} : memory (writeEnds c f n code s) = memory s := by simp [writeEnds]

@[simp] theorem memory_shed {inSlot} : memory (shed inSlot s) = memory s := by
  unfold shed
  split <;> simp

@[simp] theorem memory_addMsg {m} : memory (addMsg m s) = memory s := by simp [addMsg]

@[simp] theorem memory_admitTimed {m} : memory (admitTimed m s) = memory s := by
  unfold admitTimed
  dsimp only
  split <;> simp [makeRoom]

@[simp] theorem memory_sendEntry {c f} : memory (sendEntry c f s) = memory s := by
  unfold sendEntry
  split <;> simp [firstFrag, refuseMsg, nextFrag]

@[simp] theorem memory_sendMsg {c f} : memory (sendMsg c f s) = memory s := by
  unfold sendMsg
  dsimp only
  split
  · simp
  · split <;> simp

@[simp] theorem keepsMemory_execSendMsg {c f} : KeepsMemory s (execSendMsg c f s) := by simp [execSendMsg]

@[simp] theorem memory_abortTag {c tag} : memory (abortTag c tag s) = memory s := by
  unfold abortTag
  (repeat' split) <;> simp

@[simp] theorem keepsMemory_execAbort {c fn tag} : KeepsMemory s (execAbort c fn tag s) := by simp [execAbort]

@[simp] theorem keepsMemory_execCompletionWrite {c busErr} : KeepsMemory s (execCompletionWrite c busErr s) := by
  unfold execCompletionWrite
  dsimp only
  split <;> simp [writeCompletion]

@[simp] theorem memory_functionOff {fn} : memory (functionOff fn s) = memory s := by simp [functionOff, vectorsOff]
@[simp] theorem memory_setD3 {fn b} : memory (setD3 fn b s) = memory s := by simp [setD3]

@[simp] theorem keepsMemory_execFunctionLevelReset {fn} : KeepsMemory s (execFunctionLevelReset fn s) := by
  simp [execFunctionLevelReset]

@[simp] theorem keepsMemory_execD3hotEntry {fn} : KeepsMemory s (execD3hotEntry fn s) := by simp [execD3hotEntry]
@[simp] theorem memory_wakeSeen {fn} : memory (wakeSeen fn s) = memory s := by simp [wakeSeen]
@[simp] theorem keepsMemory_execD3coldEntry {fn} : KeepsMemory s (execD3coldEntry fn s) := by simp [execD3coldEntry]
@[simp] theorem keepsMemory_execD0Return {fn} : KeepsMemory s (execD0Return fn s) := by simp [execD0Return]

/-! Message dispatch. -/

@[simp] theorem memory_writeBind {v} : memory (writeBind v s) = memory s := by
  unfold writeBind
  dsimp only
  split <;> simp

@[simp] theorem keepsMemory_execPortBind {v} : KeepsMemory s (execPortBind v s) := by simp [execPortBind]

@[simp] theorem keepsMemory_execCreditGrant {p} : KeepsMemory s (execCreditGrant p s) := by
  simp [execCreditGrant, grantCredit]

@[simp] theorem memory_makeReady {m} : memory (makeReady m s) = memory s := by
  unfold makeReady
  split <;> simp

@[simp] theorem keepsMemory_execMessageReady {c tag} : KeepsMemory s (execMessageReady c tag s) := by
  unfold execMessageReady
  split <;> simp

theorem memory_popReady {o t} (h : popReady s = some (o, t)) : memory t = memory s := by
  unfold popReady at h
  split at h <;> simp at h <;> obtain ⟨-, rfl⟩ := h <;> simp

@[simp] theorem memory_fillSlot {e} : memory (fillSlot e s) = memory s := by
  unfold fillSlot
  split
  · rfl
  · split
    next o s1 h =>
      dsimp only
      split <;> simp [memory_popReady h]
    · rfl

@[simp] theorem memory_engineSend {e} : memory (engineSend e s) = memory s := by
  unfold engineSend
  dsimp only
  (repeat' split) <;> simp [sendDeliver]

@[simp] theorem keepsMemory_execEngineSend {e} : KeepsMemory s (execEngineSend e s) := by simp [execEngineSend]

@[simp] theorem keepsMemory_execEngineLoadWindow {busy} : KeepsMemory s (execEngineLoadWindow busy s) := by
  simp [execEngineLoadWindow]

@[simp] theorem memory_addDecision {d} : memory (addDecision d s) = memory s := by simp [addDecision]
@[simp] theorem memory_askHost {p i g free} : memory (askHost p i g free s) = memory s := by simp [askHost]
@[simp] theorem memory_diverge {m} : memory (diverge m s) = memory s := by simp [diverge]

@[simp] theorem memory_decideReplay {p i g e} : memory (decideReplay p i g e s) = memory s := by
  unfold decideReplay
  dsimp only
  split <;> simp

@[simp] theorem keepsMemory_execPortDecision {p} : KeepsMemory s (execPortDecision p s) := by
  simp [execPortDecision, decidePort]

@[simp] theorem memory_portWrite {e r i lanes v} : memory (portWrite e r i lanes v s) = memory s := by simp [portWrite]
@[simp] theorem memory_recordLanding {m bs} : memory (recordLanding m bs s) = memory s := by simp [recordLanding]

@[simp] theorem memory_promoteReplay {k} : memory (promoteReplay k s) = memory s := by
  unfold promoteReplay
  split <;> simp

@[simp] theorem memory_landPort {p e waits i} : memory (landPort p e waits s i) = memory s := by
  unfold landPort
  dsimp only
  split <;> simp [landMsg, landValues]

@[simp] theorem keepsMemory_execPortLanding {p waits} : KeepsMemory s (execPortLanding p waits s) := by
  simp [execPortLanding]

@[simp] theorem memory_writeDspCtrl {on} : memory (writeDspCtrl on s) = memory s := by simp [writeDspCtrl]
@[simp] theorem keepsMemory_execReplayEnable {on} : KeepsMemory s (execReplayEnable on s) := by simp [execReplayEnable]

@[simp] theorem memory_settleReplay {d} : memory (settleReplay s d) = memory s := by
  unfold settleReplay
  dsimp only
  split <;> simp [setLand]

@[simp] theorem keepsMemory_execReplayEntryRead {entry} : KeepsMemory s (execReplayEntryRead entry s) := by
  simp [execReplayEntryRead, readReplay, settleWaits]

@[simp] theorem memory_writeRing {replay v} : memory (writeRing replay v s) = memory s := by simp [writeRing]
@[simp] theorem keepsMemory_execRecEnable {replay v} : KeepsMemory s (execRecEnable replay v s) := by simp [execRecEnable]

/-! Loading. -/

@[simp] theorem memory_loadStart {j} : memory (loadStart j s) = memory s := by simp [loadStart]
@[simp] theorem memory_noteVerdict {v} : memory (noteVerdict v s) = memory s := by simp [noteVerdict]
@[simp] theorem memory_loaderIdle : memory (loaderIdle s) = memory s := by simp [loaderIdle]
@[simp] theorem memory_endLoad {v} : memory (endLoad v s) = memory s := by simp [endLoad]
@[simp] theorem memory_abortRecovery : memory (abortRecovery s) = memory s := by simp [abortRecovery]
@[simp] theorem memory_failLoad {v} : memory (failLoad v s) = memory s := by simp [failLoad]
@[simp] theorem memory_refuseLoad {code detail} : memory (refuseLoad code detail s) = memory s := by simp [refuseLoad]

@[simp] theorem memory_loadFull {m} : memory (loadFull m s) = memory s := by
  unfold loadFull
  dsimp only
  (repeat' split) <;> simp

@[simp] theorem keepsMemory_execLoadFull {m} : KeepsMemory s (execLoadFull m s) := by simp [execLoadFull]

@[simp] theorem memory_loadPartial {m} : memory (loadPartial m s) = memory s := by
  unfold loadPartial
  dsimp only
  (repeat' split) <;> simp

@[simp] theorem keepsMemory_execLoadPartial {m} : KeepsMemory s (execLoadPartial m s) := by simp [execLoadPartial]

@[simp] theorem memory_rollback {m} : memory (rollback m s) = memory s := by
  unfold rollback
  dsimp only
  (repeat' split) <;> simp

@[simp] theorem keepsMemory_execRollback {m} : KeepsMemory s (execRollback m s) := by simp [execRollback]
@[simp] theorem memory_restartScrub : memory (restartScrub s) = memory s := by simp [restartScrub]

@[simp] theorem keepsMemory_execPassAEnd {x} : KeepsMemory s (execPassAEnd x s) := by
  unfold execPassAEnd
  dsimp only
  (repeat' split) <;> simp [afterPassA]

@[simp] theorem keepsMemory_execQuiesceTimeout : KeepsMemory s (execQuiesceTimeout s) := by simp [execQuiesceTimeout]

@[simp] theorem keepsMemory_execLoaderWakeTimeout : KeepsMemory s (execLoaderWakeTimeout s) := by
  unfold execLoaderWakeTimeout
  split <;> simp

@[simp] theorem memory_writeFrames {x} : memory (writeFrames x s) = memory s := by simp [writeFrames]
@[simp] theorem memory_leaveRun : memory (leaveRun s) = memory s := by simp [leaveRun, leaveBoard]
@[simp] theorem memory_clearFabric : memory (clearFabric s) = memory s := by simp [clearFabric]
@[simp] theorem memory_leaveRegion {ps} : memory (leaveRegion ps s) = memory s := by simp [leaveRegion, killPort]
@[simp] theorem memory_clearRegion {ps} : memory (clearRegion ps s) = memory s := by simp [clearRegion]
@[simp] theorem memory_dropRegionFrames {ps} : memory (dropRegionFrames ps s) = memory s := by simp [dropRegionFrames]
@[simp] theorem memory_writeRegionFrames {x ps} : memory (writeRegionFrames x ps s) = memory s := by simp [writeRegionFrames]
@[simp] theorem memory_setRegion {r g} : memory (setRegion r g s) = memory s := by simp [setRegion]
@[simp] theorem memory_clearDead : memory (clearDead s) = memory s := by simp [clearDead]

@[simp] theorem memory_basePlaced {j x role kept} : memory (basePlaced j x role kept s) = memory s := by
  unfold basePlaced
  dsimp only
  split <;> simp

@[simp] theorem memory_baseDone {j x} : memory (baseDone j x s) = memory s := by simp [baseDone, swapRoles, autoRelease]
@[simp] theorem memory_loadDone {j x} : memory (loadDone j x s) = memory s := by simp [loadDone, regionDone, restartBoot]

@[simp] theorem memory_passBFails {v j} : memory (passBFails v j s) = memory s := by
  simp [passBFails, baseFails, regionFails]

@[simp] theorem keepsMemory_execLoadWriteDone {w} : KeepsMemory s (execLoadWriteDone w s) := by
  unfold execLoadWriteDone
  dsimp only
  (repeat' split) <;> simp

@[simp] theorem keepsMemory_execLoadStoreDone {ok} : KeepsMemory s (execLoadStoreDone ok s) := by
  unfold execLoadStoreDone
  split <;> simp [storeStream, storeEntry, storeFails]

@[simp] theorem keepsMemory_execLoadRecovery : KeepsMemory s (execLoadRecovery s) := by
  unfold execLoadRecovery
  dsimp only
  (repeat' split) <;> simp

/-! RELEASE and INSTALL_TOKEN. -/

@[simp] theorem memory_commits {v} : memory (commits v s) = memory s := by
  unfold commits
  split <;> simp [raiseFloor]

@[simp] theorem memory_releaseBase {v} : memory (releaseBase v s).1 = memory s := by
  unfold releaseBase
  dsimp only
  split <;> simp

@[simp] theorem memory_releaseRegion {v} : memory (releaseRegion v s).1 = memory s := by
  unfold releaseRegion
  dsimp only
  split <;> simp

@[simp] theorem memory_release {v} : memory (release v s).1 = memory s := by
  unfold release
  (repeat' split) <;> simp

@[simp] theorem keepsMemory_execRelease {m} : KeepsMemory s (execRelease m s) := by simp [execRelease]

@[simp] theorem memory_installToken {m tok} : memory (installToken m tok s).1 = memory s := by
  unfold installToken
  dsimp only
  (repeat' split) <;> simp

@[simp] theorem keepsMemory_execInstallToken {m tok} : KeepsMemory s (execInstallToken m tok s) := by simp [execInstallToken]

/-! Repair, test and health. -/

@[simp] theorem memory_retire {p} : memory (retire p s) = memory s := by simp [retire, dropRoutesTo]

@[simp] theorem memory_useSpareCrew {p c} : memory (useSpareCrew p c s).2 = memory s := by
  unfold useSpareCrew
  dsimp only
  split <;> simp

@[simp] theorem memory_replaceBp {p c b} : memory (replaceBp p c b s).2 = memory s := by
  unfold replaceBp
  dsimp only
  (repeat' split) <;> simp

@[simp] theorem memory_replaceSpare {p b} : memory (replaceSpare p b s).2 = memory s := by
  unfold replaceSpare
  dsimp only
  (repeat' split) <;> simp

@[simp] theorem memory_repairOne {f} : memory (repairOne f s).2 = memory s := by
  unfold repairOne
  dsimp only
  (repeat' split) <;> simp

@[simp] theorem memory_repairAll {fs} : memory (repairAll fs s).2 = memory s :=
  List.foldlRecOn (motive := fun y : (Nat × Nat × Nat) × State => memory y.2 = memory s) fs _ rfl
    fun y hy _ _ => (memory_repairOne (s := y.2)).trans hy

@[simp] theorem memory_checkReplace : memory (checkReplace s) = memory s := by simp [checkReplace]
@[simp] theorem memory_addSoft {fs wait} : memory (addSoft fs wait s) = memory s := by simp [addSoft]
@[simp] theorem memory_repairWaiting : memory (repairWaiting s) = memory s := by simp [repairWaiting]

@[simp] theorem memory_noteRepaired : memory (noteRepaired s) = memory s := by
  refine memory_foldl fun x k => ?_
  dsimp only
  split <;> simp

@[simp] theorem memory_applyRepairs : memory (applyRepairs s) = memory s := by simp [applyRepairs]
@[simp] theorem memory_tempSlice {bad} : memory (tempSlice bad s) = memory s := by simp [tempSlice]
@[simp] theorem memory_processSlice : memory (processSlice s) = memory s := by simp [processSlice]

@[simp] theorem memory_sliceFails {k bad faults} : memory (sliceFails k bad faults s) = memory s := by
  simp [sliceFails, postFails, voltSlice]

@[simp] theorem memory_slicePasses {k} : memory (slicePasses k s) = memory s := by simp [slicePasses]
@[simp] theorem memory_dropImage : memory (dropImage s) = memory s := by simp [dropImage]
@[simp] theorem memory_wipeFrames {ty inP} : memory (wipeFrames ty inP s) = memory s := by simp [wipeFrames]
@[simp] theorem memory_wipeData {inP} : memory (wipeData inP s) = memory s := by simp [wipeData]

@[simp] theorem memory_logFaults {fs} : memory (logFaults fs s) = memory s := by
  refine memory_foldl fun x p => ?_
  split <;> simp

@[simp] theorem memory_slicePort {k fails} : memory (slicePort k fails s) = memory s := by simp [slicePort]
@[simp] theorem memory_bistFails {b k} : memory (bistFails b k s) = memory s := by simp [bistFails]
@[simp] theorem keepsMemory_execFuseRepair {m} : KeepsMemory s (execFuseRepair m s) := by simp [execFuseRepair, fuseRepair]

@[simp] theorem memory_noteTemps {x} : memory (noteTemps x s) = memory s := by
  unfold noteTemps
  split <;> simp

@[simp] theorem memory_rail {x r} : memory (rail x s r) = memory s := by simp [rail, supplyStop]

@[simp] theorem keepsMemory_execHealthSample {x} : KeepsMemory s (execHealthSample x s) := by
  simp [execHealthSample, heat, process, noteCool]

/-! Target pins. -/

@[simp] theorem keepsMemory_execBankWanted {b} : KeepsMemory s (execBankWanted b s) := by simp [execBankWanted, bankWanted]
@[simp] theorem memory_notePod {b mv high} : memory (notePod b mv high s) = memory s := by simp [notePod]
@[simp] theorem keepsMemory_execBankOn {b podidMv} : KeepsMemory s (execBankOn b podidMv s) := by simp [execBankOn, bankOn]

@[simp] theorem keepsMemory_execPodMiskeyed {b reversed podidMv} : KeepsMemory s (execPodMiskeyed b reversed podidMv s) := by
  simp [execPodMiskeyed, podFault]

@[simp] theorem keepsMemory_execPodRemoved {b} : KeepsMemory s (execPodRemoved b s) := by simp [execPodRemoved, freePodid]
@[simp] theorem keepsMemory_execVccioFault {b mv} : KeepsMemory s (execVccioFault b mv s) := by simp [execVccioFault]
@[simp] theorem keepsMemory_execPodFaultClear {b} : KeepsMemory s (execPodFaultClear b s) := by simp [execPodFaultClear]
@[simp] theorem memory_writeBankCfg {a v} : memory (writeBankCfg a v s) = memory s := by simp [writeBankCfg]
@[simp] theorem keepsMemory_execPinShort {pin} : KeepsMemory s (execPinShort pin s) := by simp [execPinShort, shortPin]
@[simp] theorem keepsMemory_execShortClear {b v} : KeepsMemory s (execShortClear b v s) := by simp [execShortClear]
@[simp] theorem memory_writePulltest {v} : memory (writePulltest v s) = memory s := by simp [writePulltest]
@[simp] theorem keepsMemory_execPulltest {v} : KeepsMemory s (execPulltest v s) := by simp [execPulltest]

@[simp] theorem memory_logOpen {first n} : memory (logOpen first n s) = memory s := by
  unfold logOpen
  split <;> simp

@[simp] theorem keepsMemory_execPulltestDone {followed} : KeepsMemory s (execPulltestDone followed s) := by
  simp [execPulltestDone, pullEnd]

@[simp] theorem keepsMemory_execTargetPinLevel {pin level} : KeepsMemory s (execTargetPinLevel pin level s) := by
  simp [execTargetPinLevel]

/-! The JTAG port. -/

@[simp] theorem memory_setIr {code} : memory (setIr code s) = memory s := by simp [setIr]
@[simp] theorem memory_capture {out} : memory (capture out s) = memory s := by simp [capture]
@[simp] theorem keepsMemory_execIdcode : KeepsMemory s (execIdcode s) := by simp [execIdcode]

@[simp] theorem keepsMemory_execSamplePreload {preload} : KeepsMemory s (execSamplePreload preload s) := by
  simp [execSamplePreload]

@[simp] theorem keepsMemory_execExtest : KeepsMemory s (execExtest s) := by simp [execExtest]
@[simp] theorem keepsMemory_execHighz : KeepsMemory s (execHighz s) := by simp [execHighz]
@[simp] theorem keepsMemory_execClamp : KeepsMemory s (execClamp s) := by simp [execClamp]
@[simp] theorem keepsMemory_execExtestPulse : KeepsMemory s (execExtestPulse s) := by simp [execExtestPulse]
@[simp] theorem keepsMemory_execExtestTrain : KeepsMemory s (execExtestTrain s) := by simp [execExtestTrain]
@[simp] theorem keepsMemory_execDebugAccess {code} : KeepsMemory s (execDebugAccess code s) := by simp [execDebugAccess]
@[simp] theorem keepsMemory_execBypass {code} : KeepsMemory s (execBypass code s) := by simp [execBypass]
@[simp] theorem keepsMemory_execTapReset : KeepsMemory s (execTapReset s) := by simp [execTapReset]

/-! The SMBus target. -/

@[simp] theorem keepsMemory_execSmbusAddressMatch {addr} : KeepsMemory s (execSmbusAddressMatch addr s) := by
  simp [execSmbusAddressMatch, smMatch]

@[simp] theorem keepsMemory_execSmbusHoldTimeout : KeepsMemory s (execSmbusHoldTimeout s) := by simp [execSmbusHoldTimeout]

@[simp] theorem memory_smWrite {len pec} {f : State → State} (h : ∀ x, memory (f x) = memory x) :
    memory (smWrite len pec f s) = memory s := by
  simp [smWrite, h]

@[simp] theorem keepsMemory_execSmbusAddr {len ptr pecOk} : KeepsMemory s (execSmbusAddr len ptr pecOk s) := by
  simp [execSmbusAddr]

@[simp] theorem memory_smNext : memory (smNext s) = memory s := by simp [smNext]
@[simp] theorem keepsMemory_execSmbusDataRead : KeepsMemory s (execSmbusDataRead s) := by simp [execSmbusDataRead, smData]

@[simp] theorem keepsMemory_execSmbusDataWrite {len v pecOk} : KeepsMemory s (execSmbusDataWrite len v pecOk s) := by
  simp [execSmbusDataWrite, smPut]

@[simp] theorem keepsMemory_execAlertResponseAddress : KeepsMemory s (execAlertResponseAddress s) := by
  simp [execAlertResponseAddress]

/-! Register writes. -/

@[simp] theorem memory_writeCoxCtrl {v} : memory (writeCoxCtrl v s) = memory s := by simp [writeCoxCtrl]
@[simp] theorem memory_writeTether {v} : memory (writeTether v s) = memory s := by simp [writeTether]
@[simp] theorem memory_writeTrgCtrl {v} : memory (writeTrgCtrl v s) = memory s := by simp [writeTrgCtrl]
@[simp] theorem memory_writeChn {c o v} : memory (writeChn c o v s) = memory s := by simp [writeChn, writeChnCfg]
@[simp] theorem memory_writeLnk {n o v} : memory (writeLnk n o v s) = memory s := by simp [writeLnk, writeLnkCtrl]
@[simp] theorem memory_writeVector {fn vec v} : memory (writeVector fn vec v s) = memory s := by simp [writeVector]

/-! The start of the package. -/

@[simp] theorem keepsMemory_execSupplyRiseTimeout {rail} : KeepsMemory s (execSupplyRiseTimeout rail s) := by
  simp [execSupplyRiseTimeout]

@[simp] theorem keepsMemory_execBrefLost {present} : KeepsMemory s (execBrefLost present s) := by simp [execBrefLost]
@[simp] theorem memory_sliceEnds {k} : memory (sliceEnds k s) = memory s := by simp [sliceEnds]

@[simp] theorem keepsMemory_execPostSlice {k pass us bad faults} : KeepsMemory s (execPostSlice k pass us bad faults s) := by
  simp [execPostSlice, postSlice]

@[simp] theorem keepsMemory_execIncomplete {k} : KeepsMemory s (execIncomplete k s) := by simp [execIncomplete, incomplete]

@[simp] theorem keepsMemory_execRetentionDwellEnd : KeepsMemory s (execRetentionDwellEnd s) := by
  simp [execRetentionDwellEnd]

set_option exponentiation.threshold 512 in
@[simp] theorem memory_resolveKey {e} : memory (resolveKey s e) = memory s := by simp [resolveKey]

@[simp] theorem memory_resolveKeys {keys} : memory (resolveKeys keys s) = memory s := by simp [resolveKeys]
@[simp] theorem memory_noteFirmware {s0 d fw} : memory (noteFirmware s0 d fw s) = memory s := by simp [noteFirmware]
@[simp] theorem memory_romRecovery : memory (romRecovery s) = memory s := by simp [romRecovery]
@[simp] theorem memory_leavesLow : memory (leavesLow s) = memory s := by simp [leavesLow]

@[simp] theorem memory_bootRom {d0 d1 keys fw0 fw1 next} : memory (bootRom d0 d1 keys fw0 fw1 next s) = memory s := by
  unfold bootRom
  dsimp only
  (repeat' split) <;> simp

@[simp] theorem keepsMemory_execBootRomStart {d0 d1 keys fw0 fw1 lmsNext} :
    KeepsMemory s (execBootRomStart d0 d1 keys fw0 fw1 lmsNext s) := by
  simp [execBootRomStart]

@[simp] theorem memory_repairDir : memory (repairDir s) = memory s := by
  unfold repairDir
  split <;> simp

@[simp] theorem memory_reportThermal : memory (reportThermal s) = memory s := by
  unfold reportThermal
  split <;> simp

@[simp] theorem memory_autoload : memory (autoload s) = memory s := by
  unfold autoload
  dsimp only
  (repeat' split) <;> simp

@[simp] theorem memory_raiseNonce : memory (raiseNonce s) = memory s := by simp [raiseNonce]

/-! DOE and SPDM. -/

@[simp] theorem keepsMemory_doe {f : State → State} (h : ∀ x, memory (f x) = memory x) : KeepsMemory s (doe f s) := by
  simp [doe, h]

@[simp] theorem memory_doeAnswer {code fields} : memory (doeAnswer code fields s) = memory s := by simp [doeAnswer]
@[simp] theorem memory_doeError {e} : memory (doeError e s) = memory s := by simp [doeError]
@[simp] theorem memory_spdmTo {n} : memory (spdmTo n s) = memory s := by simp [spdmTo]

@[simp] theorem memory_spdmAt {n} {f : State → State} (h : ∀ x, memory (f x) = memory x) :
    memory (spdmAt n f s) = memory s := by
  simp [spdmAt, h]

@[simp] theorem keepsMemory_execDoeDiscovery {index} : KeepsMemory s (execDoeDiscovery index s) := by simp [execDoeDiscovery]
@[simp] theorem keepsMemory_execGetVersion : KeepsMemory s (execGetVersion s) := by simp [execGetVersion]
@[simp] theorem keepsMemory_execGetCapabilities : KeepsMemory s (execGetCapabilities s) := by simp [execGetCapabilities]

@[simp] theorem keepsMemory_execNegotiateAlgorithms {asym hash} : KeepsMemory s (execNegotiateAlgorithms asym hash s) := by
  simp [execNegotiateAlgorithms]

@[simp] theorem keepsMemory_execGetDigests : KeepsMemory s (execGetDigests s) := by simp [execGetDigests]

@[simp] theorem keepsMemory_execGetCertificate {slot off len} : KeepsMemory s (execGetCertificate slot off len s) := by
  simp [execGetCertificate]

@[simp] theorem keepsMemory_execChallenge {slot nonce} : KeepsMemory s (execChallenge slot nonce s) := by
  simp [execChallenge]

@[simp] theorem keepsMemory_execGetMeasurements {index signed nonce} :
    KeepsMemory s (execGetMeasurements index signed nonce s) := by
  simp [execGetMeasurements, measurements, report, useLeaf]

/-! Configuration integrity. -/

@[simp] theorem memory_recordItem {x synd ue care} : memory (recordItem x synd ue care s) = memory s := by simp [recordItem]
@[simp] theorem memory_putItem {x w} : memory (putItem x w s) = memory s := by simp [putItem]

@[simp] theorem memory_scrubItem {x} : memory (scrubItem x s).2 = memory s := by
  unfold scrubItem
  dsimp only
  split <;> simp [itemFixed, fixItem, itemBad, zeroItem]

@[simp] theorem memory_backgroundStep : memory (backgroundStep s) = memory s := by
  unfold backgroundStep
  dsimp only
  (repeat' split) <;> simp [passStart, passEnd]

@[simp] theorem memory_fullTo {f n} : memory (fullTo f n s) = memory s := by simp [fullTo]
@[simp] theorem memory_fullMemory {f} : memory (fullMemory f s) = memory s := by simp [fullMemory]

@[simp] theorem memory_fullRecovery {f} : memory (fullRecovery f s) = memory s := by
  unfold fullRecovery
  (repeat' split) <;> simp

@[simp] theorem memory_fullStep {f} : memory (fullStep f s) = memory s := by
  unfold fullStep
  dsimp only
  (repeat' split) <;> simp

@[simp] theorem keepsMemory_execScrubFull {m} : KeepsMemory s (execScrubFull m s) := by simp [execScrubFull, scrubFull]

@[simp] theorem keepsMemory_execScrubItem : KeepsMemory s (execScrubItem s) := by
  unfold execScrubItem
  split <;> simp

@[simp] theorem memory_recoveryRead {outcome} : memory (recoveryRead outcome s) = memory s := by simp [recoveryRead]

@[simp] theorem keepsMemory_execRecoveryRead {outcome} : KeepsMemory s (execRecoveryRead outcome s) := by
  simp [execRecoveryRead]

@[simp] theorem memory_recoveryWrite : memory (recoveryWrite s) = memory s := by
  unfold recoveryWrite
  split <;> simp [rewriteFrame, resetSlots, resetKeepers]

@[simp] theorem keepsMemory_execRecoveryWrite : KeepsMemory s (execRecoveryWrite s) := by simp [execRecoveryWrite]
@[simp] theorem keepsMemory_execRecoveryTimeout : KeepsMemory s (execRecoveryTimeout s) := by simp [execRecoveryTimeout]

@[simp] theorem memory_voteLost {a} : memory (voteLost a s) = memory s := by
  unfold voteLost
  dsimp only
  (repeat' split) <;> simp

@[simp] theorem keepsMemory_execScrubSelfCorrect {k threeWay} : KeepsMemory s (execScrubSelfCorrect k threeWay s) := by
  simp [execScrubSelfCorrect, selfCorrect]

/-! REGISTER_WRITE. -/

/-! What the Daxair ports send. -/

@[simp] theorem memory_inject {n hdrs lanes} : memory (inject n hdrs lanes s).2.2 = memory s := by
  unfold inject
  split <;> simp

@[simp] theorem memory_sendBody {n ctl body} : memory (sendBody n ctl body s) = memory s := by
  unfold sendBody
  dsimp only
  split <;> simp

@[simp] theorem memory_sendData {n} : memory (sendData n s) = memory s := by
  unfold sendData
  dsimp only
  (repeat' split) <;> simp

@[simp] theorem memory_sendFrame {n} : memory (sendFrame n s) = memory s := by
  unfold sendFrame
  dsimp only
  (repeat' split) <;> simp

@[simp] theorem memory_sendPort {n} : memory (sendPort s n) = memory s := by
  unfold sendPort
  dsimp only
  (repeat' split) <;> simp [sendPattern]

@[simp] theorem memory_takeOut {o} : memory (takeOut s o) = memory s := by
  unfold takeOut
  split <;> simp

@[simp] theorem memory_sendLinks : memory (sendLinks s) = memory s := by simp [sendLinks]

end Sys2Proof.Machine
end

section
/-! PROOFS. The canonical form of bank and deep memory through the operations and commands that write them (R182, R191), and
so through every step (O57). -/

namespace Sys2Proof.Machine

/-- Neither memory lists a codeword twice, out of order, or with the value that an unlisted one reads as: `Memory.wf` as a
property of what the memories list, so that the equations of `memory` rewrite it. -/
def Canonical (m : Sparse (BitVec 72) × Sparse (BitVec 288)) : Prop := wf 0 m.1 = true ∧ wf 0 m.2 = true

/-- The command answers no state whose memories have lost their canonical form. -/
def NextCanonical (r : Res) : Prop := ∀ t, r = .next t → Canonical (memory t)

/-- A command that leaves the memories alone keeps their form. -/
theorem KeepsMemory.canonical {s : State} {r : Res} (k : KeepsMemory s r) (h : Canonical (memory s)) : NextCanonical r :=
  fun t e => k t e ▸ h

@[simp] theorem canonical_ite (c : Prop) [Decidable c] (a b : Sparse (BitVec 72) × Sparse (BitVec 288)) :
    Canonical (if c then a else b) ↔ (c → Canonical a) ∧ (¬ c → Canonical b) := by split <;> simp [*]

@[simp] theorem canonical_empty : Canonical ([], []) := ⟨rfl, rfl⟩

@[simp] theorem nextCanonical_next {t : State} : NextCanonical (.next t) ↔ Canonical (memory t) :=
  ⟨fun h => h t rfl, fun h _ e => by cases e; exact h⟩

@[simp] theorem nextCanonical_fault (f : Fault) : NextCanonical (.fault f) := fun _ e => by cases e

@[simp] theorem nextCanonical_ite (c : Prop) [Decidable c] (a b : Res) :
    NextCanonical (if c then a else b) ↔ (c → NextCanonical a) ∧ (¬ c → NextCanonical b) := by split <;> simp [*]

@[simp] theorem nextCanonical_whenever {c : Bool} {s t : State} :
    NextCanonical (whenever c s t) ↔ (c = true → Canonical (memory t)) ∧ (c = false → Canonical (memory s)) := by
  cases c <;> simp [whenever]

@[simp] theorem nextCanonical_forUnit {c : Bool} {r : Res} : NextCanonical (forUnit c r) ↔ (c = true → NextCanonical r) := by
  cases c <;> simp [forUnit]

/-! A package whose memories lose power lists nothing (R16, R462). -/

@[simp] theorem memory_loseState {s : State} : memory (loseState s) = ([], []) := rfl

@[simp] theorem memory_shutDown {s : State} {sensor temp} : memory (shutDown sensor temp s) = ([], []) := by simp [shutDown]

@[simp] theorem memory_powerless {s : State} : memory (powerless s) = ([], []) := rfl

@[simp] theorem memory_powerOn {s : State} {pos nonce} : memory (powerOn pos nonce s) = ([], []) := by simp [powerOn]

section
variable {s : State} (h : Canonical (memory s))
include h

@[simp] theorem canonical_foldl {α : Type} {f : State → α → State} {l : List α}
    (hf : ∀ x a, Canonical (memory x) → Canonical (memory (f x a))) : Canonical (memory (l.foldl f s)) :=
  l.foldlRecOn (motive := fun x => Canonical (memory x)) f h fun x hx a _ => hf x a hx

/-- The state after a command that keeps the form. -/
@[simp] theorem canonical_after {r : Res} (k : NextCanonical r) : Canonical (memory (after r s)) := by
  cases r with
  | next t => exact k t rfl
  | fault f => exact h
  | refused f => exact h

/-! Design memory. -/

@[simp] theorem canonical_writeBank {k d} : Canonical (memory (writeBank k d s)) := wf_writeBank k d h

@[simp] theorem canonical_bankPoison {p i src inst raw e} : Canonical (memory (bankPoison p i src inst raw e s)) :=
  wf_bankPoison p i src inst raw e h

@[simp] theorem canonical_bankRead {p i src} : Canonical (memory (bankRead p i src s).2) := wf_bankRead p i src h

@[simp] theorem canonical_deepPoison {k src port pav inst raw es} :
    Canonical (memory (deepPoison k src port pav inst raw es s)) :=
  wf_deepPoison k src port pav inst raw es h

@[simp] theorem canonical_deepRead {k src glitch} : Canonical (memory (deepRead k src glitch s).2) :=
  wf_deepRead k src glitch h

@[simp] theorem canonical_performWrite {p d desc cs inst idx} :
    Canonical (memory (performWrite p d desc cs inst idx s)) :=
  wf_performWrite p d desc cs inst idx h

@[simp] theorem canonical_performOp {write port name} : Canonical (memory (performOp write port s name)) := by
  unfold performOp
  extract_lets p d desc cs
  split
  · split
    · exact canonical_foldl h fun x i hx => canonical_performWrite hx
    · simp [h]
  · exact h

@[simp] theorem canonical_memoryOps : Canonical (memory (memoryOps s)) := by
  have performed : ∀ {write : Bool} {port : Nat} {l : List (Nat × Nat)} {x : State}, Canonical (memory x) →
      Canonical (memory (l.foldl (performOp write port) x)) :=
    fun hx => canonical_foldl hx fun y n hy => canonical_performOp hy
  unfold memoryOps
  extract_lets names byTerr s0 s1 s2 s3
  have h0 : Canonical (memory s0) := by simp [s0, h]
  have h1 : Canonical (memory s1) := canonical_foldl h0 fun x port hx => performed hx
  have h2 : Canonical (memory s2) := canonical_foldl h1 fun x port hx => performed hx
  have h3 : Canonical (memory s3) := performed h2
  simpa using h3

@[simp] theorem canonical_bankInst {r k raw inst} : Canonical (memory (bankInst r k raw inst s).2) := by
  unfold bankInst
  dsimp only
  (repeat' split) <;> simp [h]

@[simp] theorem canonical_deliverBank {r} : Canonical (memory (deliverBank r s)) := by
  unfold deliverBank
  dsimp only
  (repeat' split) <;> simp [h]

@[simp] theorem nextCanonical_execBankReadDeliver {p port} : NextCanonical (execBankReadDeliver p port s) := by
  unfold execBankReadDeliver
  split <;> simp [h]

@[simp] theorem canonical_deepInst {r k raw glitch inst} : Canonical (memory (deepInst r k raw glitch inst s).2) := by
  unfold deepInst
  dsimp only
  (repeat' split) <;> simp [h]

@[simp] theorem canonical_arriveDeep {r glitch} : Canonical (memory (arriveDeep r glitch s)) := by
  unfold arriveDeep
  dsimp only
  (repeat' split) <;> simp [h]

@[simp] theorem nextCanonical_execDmemResultArrive {t glitch} : NextCanonical (execDmemResultArrive t glitch s) := by
  unfold execDmemResultArrive
  split <;> simp [h]

@[simp] theorem canonical_writeCws {p ws i} : Canonical (memory (writeCws p ws i s).2.2) := wf_writeCws p ws i h

/-! The stroke. -/

@[simp] theorem canonical_retireStroke : Canonical (memory (retireStroke s)) := by simp [retireStroke, h]

/-! Bank cycles. -/

@[simp] theorem canonical_writeBack : Canonical (memory (writeBack s)) := wf_writeBack h

@[simp] theorem nextCanonical_execCorrectionWriteBack : NextCanonical (execCorrectionWriteBack s) := by
  simp [execCorrectionWriteBack, h]

@[simp] theorem canonical_hostWrite {p ws i} : Canonical (memory (hostWrite p ws i s).2.2) := wf_hostWrite p ws i h
@[simp] theorem canonical_scrubBank {n} : Canonical (memory (scrubBank n s)) := by simp [scrubBank, h]

@[simp] theorem canonical_bankScrubStep : Canonical (memory (bankScrubStep s)) := by
  unfold bankScrubStep
  extract_lets pos start
  have begun : ∀ y, start = some y → Canonical (memory y.2) := by
    intro y e
    unfold start at e
    split at e
    · cases e
      exact h
    · obtain ⟨n, -, rfl⟩ := Option.map_eq_some_iff.mp e
      simp [h]
  clear_value start
  cases start with
  | none => exact h
  | some y =>
    have hy := begun y rfl
    dsimp only
    split
    · exact h
    · split <;> simp [hy]

@[simp] theorem canonical_deepScrubStep {glitch} : Canonical (memory (deepScrubStep glitch s)) := by simp [deepScrubStep, h]
@[simp] theorem canonical_storeSample {w} : Canonical (memory (storeSample w s)) := wf_storeSample w h

@[simp] theorem canonical_captureTakes {w} : Canonical (memory (captureTakes w s)) := by
  unfold captureTakes
  split
  · simp [h]
  · split <;> simp [h]

@[simp] theorem nextCanonical_execCaptureWrite {p granted} : NextCanonical (execCaptureWrite p granted s) := by
  unfold execCaptureWrite
  split <;> simp [h]

/-! The course controller. -/

@[simp] theorem canonical_emptyBank {p b} : Canonical (memory (emptyBank p b s)) := wf_emptyBank p b h
@[simp] theorem canonical_turnBank {p b st} : Canonical (memory (turnBank p b st s)) := wf_turnBank p b st h

@[simp] theorem canonical_applyBankMap {p} : Canonical (memory (applyBankMap s p)) :=
  canonical_foldl h fun _ _ hx => canonical_turnBank hx

@[simp] theorem canonical_baseStage : Canonical (memory (baseStage s)) := by
  unfold baseStage
  dsimp only
  split
  · split
    · simp [h]
    · exact canonical_foldl (by simp [h]) fun _ _ hx => canonical_applyBankMap hx
    · simp [h]
  · exact h

@[simp] theorem canonical_regionStage {e} : Canonical (memory (regionStage s e)) := by
  unfold regionStage
  dsimp only
  split
  · split
    · simp [h]
    · exact canonical_foldl (by simp [h]) fun _ _ hx => canonical_applyBankMap hx
    · simp [h]
  · exact h

@[simp] theorem canonical_releaseStages : Canonical (memory (releaseStages s)) :=
  canonical_foldl (canonical_baseStage h) fun _ _ hx => canonical_regionStage hx

@[simp] theorem canonical_enterCourse : Canonical (memory (enterCourse s)) := by simp [enterCourse, h]
@[simp] theorem canonical_goCourse : Canonical (memory (goCourse s)) := by simp [goCourse, h]
@[simp] theorem canonical_proceed : Canonical (memory (proceed s)) := by simp [proceed, h]
@[simp] theorem canonical_retryStart : Canonical (memory (retryStart s)) := by simp [retryStart, h]
@[simp] theorem canonical_passStroke : Canonical (memory (passStroke s)) := by simp [passStroke, h]

@[simp] theorem canonical_crossBoundary : Canonical (memory (crossBoundary s)) := by
  unfold crossBoundary
  dsimp only
  (repeat' split) <;> simp [h]

@[simp] theorem canonical_stepStroke : Canonical (memory (stepStroke s)) := by simp [stepStroke, h]

@[simp] theorem canonical_tick : Canonical (memory (tick s)) := by
  unfold tick
  dsimp only
  (repeat' split) <;> simp [h]

@[simp] theorem nextCanonical_execCourseBoundary : NextCanonical (execCourseBoundary s) := by simp [execCourseBoundary, h]
@[simp] theorem nextCanonical_execStartLeadEnd : NextCanonical (execStartLeadEnd s) := by simp [execStartLeadEnd, h]
@[simp] theorem nextCanonical_execGrant {add} : NextCanonical (execGrant add s) := by simp [execGrant, h]
@[simp] theorem nextCanonical_execEasyEnter : NextCanonical (execEasyEnter s) := by simp [execEasyEnter, h]

@[simp] theorem canonical_resumeWrites : Canonical (memory (resumeWrites s)) := by
  refine canonical_foldl h fun x w hx => ?_
  simp [hx]

@[simp] theorem canonical_leaveEasy {e} : Canonical (memory (leaveEasy e s)) := by simp [leaveEasy, h]

@[simp] theorem nextCanonical_execEasyResumePoint : NextCanonical (execEasyResumePoint s) := by
  unfold execEasyResumePoint
  split <;> simp [h]

/-! The mailbox. -/

@[simp] theorem canonical_mbxWrite {cmd long inRom m} {body : State → State}
    (hf : ∀ x, Canonical (memory x) → Canonical (memory (body x))) :
    Canonical (memory (mbxWrite cmd long inRom m body s)) := by
  simp [mbxWrite, h, hf]

/-! The Daxair ports. -/

@[simp] theorem nextCanonical_execTetherLeadEnd : NextCanonical (execTetherLeadEnd s) := by simp [execTetherLeadEnd, h]

/-! Boards and modes. -/

@[simp] theorem canonical_boardAligned {b m rs reach stretch} :
    Canonical (memory (boardAligned b m rs reach stretch s)) := by
  simp [boardAligned, h]

@[simp] theorem canonical_boardFormed {b} : Canonical (memory (boardFormed b s)) := by
  cases passes : measurementPasses b s with
  | false =>
    obtain ⟨y, logged, e⟩ := boardFormed_fails passes
    simp [e, memory_of_stores logged.keeps.1.stores, h]
  | true =>
    obtain ⟨-, e⟩ := boardFormed_passes passes
    obtain ⟨logged, -⟩ := measured_shows b s
    simp [e, memory_of_stores logged.keeps.1.stores, h]

@[simp] theorem nextCanonical_execBoardFormed {b} : NextCanonical (execBoardFormed b s) := by simp [execBoardFormed, h]
@[simp] theorem canonical_modeBefore {m} : Canonical (memory (modeBefore m s)) := by simp [modeBefore, h]

@[simp] theorem canonical_modeAccept {m} : Canonical (memory (modeAccept m s).1) := by
  unfold modeAccept
  dsimp only
  (repeat' split) <;> simp [h]

@[simp] theorem canonical_setMode {v} : Canonical (memory (setMode v s).1) := by
  unfold setMode
  split
  · exact h
  · (repeat' split) <;> simp [h]

@[simp] theorem nextCanonical_execSetMode {m} : NextCanonical (execSetMode m s) :=
  nextCanonical_next.mpr (canonical_mbxWrite h fun x hx => by simp [hx])

/-! Power states. -/

@[simp] theorem canonical_finishEntry {e} : Canonical (memory (finishEntry e s)) := by
  unfold finishEntry
  dsimp only
  split <;> simp [h]

@[simp] theorem canonical_startEntry {e} : Canonical (memory (startEntry e s)) := by simp [startEntry, h]

@[simp] theorem nextCanonical_execPowerEntry : NextCanonical (execPowerEntry s) := by
  unfold execPowerEntry
  split <;> simp [h]

@[simp] theorem canonical_padRelease {v} : Canonical (memory (padRelease v s)) := by simp [padRelease, h]
@[simp] theorem nextCanonical_execPadRelease {v} : NextCanonical (execPadRelease v s) := by simp [execPadRelease, h]

@[simp] theorem nextCanonical_execRetentionRailLoss {rail} : NextCanonical (execRetentionRailLoss rail s) := by
  simp [execRetentionRailLoss, h]

/-! Register reads. -/

@[simp] theorem canonical_windowWrite {off v} : Canonical (memory (windowWrite off v s)) := wf_windowWrite off v h

@[simp] theorem canonical_windowRead {off} : Canonical (memory (windowRead off s).2) := by
  unfold windowRead
  dsimp only
  split <;> simp [h]

@[simp] theorem canonical_pavAccess {p} {ok bad : State → State}
    (hok : ∀ x, Canonical (memory x) → Canonical (memory (ok x)))
    (hbad : ∀ x, Canonical (memory x) → Canonical (memory (bad x))) : Canonical (memory (pavAccess p ok bad s)) := by
  simp [pavAccess, h, hok, hbad]

@[simp] theorem canonical_readAccess {bar addr be} : Canonical (memory (readAccess bar addr be s)) := by
  unfold readAccess
  dsimp only
  (repeat' split) <;> simp [h]

@[simp] theorem nextCanonical_execReadClear {bar addr be} : NextCanonical (execReadClear bar addr be s) := by
  simp [execReadClear, h]

@[simp] theorem nextCanonical_execSnapshotRead {bar addr be} : NextCanonical (execSnapshotRead bar addr be s) := by
  simp [execSnapshotRead, h]

@[simp] theorem nextCanonical_execBankWindowWrite {off v} : NextCanonical (execBankWindowWrite off v s) := by
  simp [execBankWindowWrite, h]

@[simp] theorem nextCanonical_execBankWindowRead {off} : NextCanonical (execBankWindowRead off s) := by
  simp [execBankWindowRead, h]

/-! The services of the packets. -/

@[simp] theorem canonical_serve {p op vn} {f : Packet → State → State}
    (hf : ∀ pk x, Canonical (memory x) → Canonical (memory (f pk x))) : Canonical (memory (serve p op vn f s)) := by
  unfold serve
  split <;> simp [h, hf]

@[simp] theorem canonical_readCws {p n i} : Canonical (memory (readCws p n i s).2.2) := by
  induction n generalizing i s with
  | zero => exact h
  | succ n ih =>
    unfold readCws
    split
    · exact h
    · have read : Canonical (memory (bankRead p i 3 s).2) := canonical_bankRead h
      dsimp only
      split
      · exact read
      · exact ih read

@[simp] theorem canonical_bankRdService {p pk} : Canonical (memory (bankRdService p pk s)) := by
  have read := canonical_readCws h (p := p) (n := pkCount pk.head) (i := pkAddr pk.head)
  unfold bankRdService
  split
  all_goals
    next e =>
      rw [e] at read
      simpa using read

@[simp] theorem nextCanonical_execBankRdRequest {p} : NextCanonical (execBankRdRequest p s) := by
  refine nextCanonical_whenever.mpr ⟨fun _ => canonical_serve h fun pk x hx => ?_, fun _ => h⟩
  simp [packetCycle, hx]

@[simp] theorem canonical_bankWrService {p pk} : Canonical (memory (bankWrService p pk s)) := by
  have written := canonical_hostWrite h (p := p) (ws := pk.data) (i := pkAddr pk.head)
  unfold bankWrService
  split
  all_goals
    next e =>
      rw [e] at written
      simpa using written

@[simp] theorem nextCanonical_execBankWrRequest {p same} : NextCanonical (execBankWrRequest p same s) := by
  refine nextCanonical_whenever.mpr ⟨fun _ => canonical_serve h fun pk x hx => ?_, fun _ => h⟩
  simp [packetCycle, hx]

/-! Host channels. -/

@[simp] theorem canonical_fetchEntry {c op f} {act : State → State}
    (hf : ∀ x, Canonical (memory x) → Canonical (memory (act x))) : Canonical (memory (fetchEntry c op f act s)) := by
  unfold fetchEntry
  dsimp only
  (repeat' split) <;> simp [h, hf]

@[simp] theorem canonical_readDeepCws {st glitch n i} : Canonical (memory (readDeepCws st glitch n i s).2.2) := by
  induction n generalizing glitch i s with
  | zero => exact h
  | succ n ih =>
    unfold readDeepCws
    split
    · exact h
    · have read : Canonical (memory (deepRead (deepKey st i) 2 glitch s).2) := canonical_deepRead h
      dsimp only
      split
      · exact read
      · exact ih read

@[simp] theorem canonical_writeDeepCws {st n ws i} : Canonical (memory (writeDeepCws st n ws i s).2.2) :=
  wf_writeDeepCws st n ws i h

@[simp] theorem canonical_memStart {c f} {act : State → State}
    (hf : ∀ x, Canonical (memory x) → Canonical (memory (act x))) : Canonical (memory (memStart c f act s)) := by
  simp [memStart, h, hf]

@[simp] theorem canonical_bankRdEntry {c f} : Canonical (memory (bankRdEntry c f s)) := by
  have reached : Canonical (memory (reachPav (enUnit f.entry) f.ready s).2) := by simp [h]
  unfold bankRdEntry
  dsimp only
  split
  all_goals
    next e =>
      rw [e] at reached
      simp [reached]

@[simp] theorem nextCanonical_execBankRd {c f} : NextCanonical (execBankRd c f s) :=
  nextCanonical_whenever.mpr ⟨fun _ => canonical_fetchEntry h fun _ hx => canonical_memStart hx fun _ hy =>
    canonical_bankRdEntry hy, fun _ => h⟩

@[simp] theorem canonical_bankWrEntry {c f data} : Canonical (memory (bankWrEntry c f data s)) := by
  have reached : Canonical (memory (reachPav (enUnit f.entry) f.ready s).2) := by simp [h]
  unfold bankWrEntry
  dsimp only
  split
  all_goals
    next e =>
      rw [e] at reached
      simp [reached]

@[simp] theorem nextCanonical_execBankWr {c f data same} : NextCanonical (execBankWr c f data same s) :=
  nextCanonical_whenever.mpr ⟨fun _ => canonical_fetchEntry h fun _ hx => canonical_memStart hx fun _ hy =>
    canonical_bankWrEntry hy, fun _ => h⟩

@[simp] theorem canonical_deepRdEntry {c f glitch} : Canonical (memory (deepRdEntry c f glitch s)) := by
  have reached : Canonical (memory (reachDie (enUnit f.entry) f.ready s).2) := by simp [h]
  unfold deepRdEntry
  dsimp only
  split
  all_goals
    next e =>
      rw [e] at reached
      simp [reached]

@[simp] theorem nextCanonical_execDeepRd {c f glitch} : NextCanonical (execDeepRd c f glitch s) :=
  nextCanonical_whenever.mpr ⟨fun _ => canonical_fetchEntry h fun _ hx => canonical_memStart hx fun _ hy =>
    canonical_deepRdEntry hy, fun _ => h⟩

@[simp] theorem canonical_deepWrEntry {c f data} : Canonical (memory (deepWrEntry c f data s)) := by
  have reached : Canonical (memory (reachDie (enUnit f.entry) f.ready s).2) := by simp [h]
  unfold deepWrEntry
  dsimp only
  split
  all_goals
    next e =>
      rw [e] at reached
      simp [reached]

@[simp] theorem nextCanonical_execDeepWr {c f data} : NextCanonical (execDeepWr c f data s) :=
  nextCanonical_whenever.mpr ⟨fun _ => canonical_fetchEntry h fun _ hx => canonical_memStart hx fun _ hy =>
    canonical_deepWrEntry hy, fun _ => h⟩

/-! Loading. -/

@[simp] theorem canonical_writeBankFrames {x p b} : Canonical (memory (writeBankFrames x p b s)) := by
  have emptied : Canonical (memory (setBank p b 0 (emptyBank p b s))) := by simp [h]
  exact canonical_foldl emptied fun y f hy => canonical_foldl hy fun z e hz => canonical_writeBank hz

@[simp] theorem canonical_writeBanks {x sel} : Canonical (memory (writeBanks x sel s)) := by
  refine canonical_foldl h fun y f hy => ?_
  dsimp only
  split
  · refine canonical_foldl hy fun z b hz => ?_
    split
    · exact hz
    · exact canonical_writeBankFrames hz
  · exact hy

@[simp] theorem canonical_zeroDeep {x} : Canonical (memory (zeroDeep x s)) :=
  canonical_foldl h fun _ _ hy => ⟨hy.1, wf_filter _ hy.2⟩

@[simp] theorem canonical_passB {x} : Canonical (memory (passB x s)) := by simp [passB, h]

@[simp] theorem nextCanonical_execLoadPassB : NextCanonical (execLoadPassB s) := by
  unfold execLoadPassB
  split <;> simp [h]

@[simp] theorem canonical_partialPassB {j x} : Canonical (memory (partialPassB j x s)) := by simp [partialPassB, h]

@[simp] theorem nextCanonical_execPartialPassB : NextCanonical (execPartialPassB s) := by
  unfold execPartialPassB
  split <;> simp [h]

/-! Repair, test and health. -/

@[simp] theorem canonical_dropBanks {inP} : Canonical (memory (dropBanks inP s)) := by
  have dropped : Canonical (memory { s with bank := s.bank.filter fun e => !inP (e.1 / 65536) }) :=
    ⟨wf_filter _ h.1, h.2⟩
  unfold dropBanks
  simpa using dropped

@[simp] theorem canonical_wipeArrays {arrays inP} : Canonical (memory (wipeArrays arrays inP s)) := by simp [wipeArrays, h]
@[simp] theorem canonical_march {m faults} : Canonical (memory (march m faults s)) := by simp [march, h]

@[simp] theorem nextCanonical_execMarch {m faults} : NextCanonical (execMarch m faults s) :=
  nextCanonical_next.mpr (canonical_mbxWrite h fun _ hx => canonical_march hx)

@[simp] theorem canonical_bistSlice {b k} : Canonical (memory (bistSlice b k s)) := by simp [bistSlice, h]

@[simp] theorem canonical_bist {m b} : Canonical (memory (bist m b s)) := by
  unfold bist
  split
  · simp [h]
  · have tested := canonical_foldl (f := fun x k => bistSlice b k x) (l := ones m.a0) (s := repairWaiting (dropImage s))
      (by simp [h]) fun x k hx => canonical_bistSlice hx
    simpa using tested

@[simp] theorem nextCanonical_execBist {m b} : NextCanonical (execBist m b s) :=
  nextCanonical_next.mpr (canonical_mbxWrite h fun _ hx => canonical_bist hx)

@[simp] theorem nextCanonical_execThermalShutdown {sensor temp} : NextCanonical (execThermalShutdown sensor temp s) := by
  simp [execThermalShutdown, h]

/-! Register writes. -/

/-- One register whose write is a row of its own. -/
theorem canonical_elim_ite {c : Prop} [Decidable c] {f : State → State} {o : Option (State → State)}
    (hf : Canonical (memory s) → Canonical (memory (f s))) (ho : Canonical (memory (o.elim s (· s)))) :
    Canonical (memory ((if c then some f else o).elim s (· s))) := by
  split
  · exact hf h
  · exact ho

theorem canonical_writeSpecial {a v} : Canonical (memory ((writeSpecial a v).elim s (· s))) := by
  unfold writeSpecial
  repeat refine canonical_elim_ite h (fun _ => by simp [h]) ?_
  split <;> simp [h]

@[simp] theorem canonical_writeReg {a v} : Canonical (memory (writeReg a v s)) := by
  have special := canonical_writeSpecial h (a := a) (v := v)
  unfold writeReg
  split
  · exact h
  · split
    next e => simpa [e] using special
    all_goals simp [h]

@[simp] theorem canonical_writeAccess {bar addr v be} : Canonical (memory (writeAccess bar addr v be s)) := by
  unfold writeAccess
  split
  · exact h
  · split
    · exact h
    · split
      · exact canonical_windowWrite h
      · split
        · exact canonical_pavAccess h (fun _ hx => canonical_writeReg hx) fun _ hx => hx
        · exact canonical_writeReg h
    · exact canonical_writeReg h
    · exact h

/-! The start of the package. -/

@[simp] theorem nextCanonical_execPowerOn {pos nonce} : NextCanonical (execPowerOn pos nonce s) := by simp [execPowerOn, h]
@[simp] theorem nextCanonical_execPowerLoss : NextCanonical (execPowerLoss s) := by simp [execPowerLoss, h]

@[simp] theorem nextCanonical_execDmemInitDone : NextCanonical (execDmemInitDone s) := by
  have cleared : Canonical (memory { s with deep := [] }) := ⟨h.1, rfl⟩
  simp [execDmemInitDone, h, cleared]

@[simp] theorem canonical_applyShell {es} : Canonical (memory (applyShell es s)) := by
  unfold applyShell
  extract_lets s1
  have written : Canonical (memory s1) := canonical_foldl h fun x e hx => by
    split
    · exact canonical_writeReg hx
    · exact hx
  split <;> simp [written]

@[simp] theorem canonical_startShell {shell code} : Canonical (memory (startShell shell code s)) := by
  unfold startShell
  dsimp only
  (repeat' split) <;> simp [h]

@[simp] theorem canonical_keeperStart {shell code routes} : Canonical (memory (keeperStart shell code routes s)) := by
  simp [keeperStart, h]

@[simp] theorem nextCanonical_execKeeperStart {shell shellCode droutes} :
    NextCanonical (execKeeperStart shell shellCode droutes s) := by
  simp [execKeeperStart, h]

/-! Configuration integrity. -/

@[simp] theorem canonical_fullBank {f} : Canonical (memory (fullBank f s)) := by
  unfold fullBank
  split <;> simp [h]

@[simp] theorem canonical_fullDeep {f glitch} : Canonical (memory (fullDeep f glitch s)) := by simp [fullDeep, h]

@[simp] theorem nextCanonical_execBankScrub : NextCanonical (execBankScrub s) := by
  unfold execBankScrub
  split <;> simp [h]

@[simp] theorem nextCanonical_execDeepScrub {glitch} : NextCanonical (execDeepScrub glitch s) := by
  unfold execDeepScrub
  split <;> simp [h]

@[simp] theorem canonical_upset {t} : Canonical (memory (upset t s)) := wf_upset t h
@[simp] theorem nextCanonical_execUpset {t} : NextCanonical (execUpset t s) := by simp [execUpset, h]

/-! REGISTER_WRITE. -/

@[simp] theorem nextCanonical_startCommand {v x} : NextCanonical (startCommand v x s) := by
  have power : KeepsMemory s (cmdPower (cmdArgs v s) x s) := by
    unfold cmdPower
    split <;> simp
  unfold startCommand
  dsimp only
  split
  case h_1 => simp [h]
  case h_9 => simp [h]
  case h_10 => simp [h]
  case h_4 => exact power.canonical h
  all_goals exact KeepsMemory.canonical (by simp) h

@[simp] theorem nextCanonical_execRegisterWrite {bar addr v x} : NextCanonical (execRegisterWrite bar addr v x s) := by
  simp [execRegisterWrite, h]

/-! What the Daxair ports send. -/

@[simp] theorem canonical_idle : Canonical (memory (idle s)) := by simp [idle, h]

/-- Whatever command runs: those that write a memory by their own lemmas, and the others leave both alone. -/
theorem nextCanonical_exec (i : Instr) : NextCanonical (exec i s) := by
  cases i with
  | bankReadDeliver _ _ => exact nextCanonical_execBankReadDeliver h
  | dmemResultArrive _ _ => exact nextCanonical_execDmemResultArrive h
  | correctionWriteBack => exact nextCanonical_execCorrectionWriteBack h
  | bankScrub => exact nextCanonical_execBankScrub h
  | deepScrub _ => exact nextCanonical_execDeepScrub h
  | bankRdRequest _ => exact nextCanonical_execBankRdRequest h
  | bankWrRequest _ _ => exact nextCanonical_execBankWrRequest h
  | courseBoundary => exact nextCanonical_execCourseBoundary h
  | startLeadEnd => exact nextCanonical_execStartLeadEnd h
  | grant _ => exact nextCanonical_execGrant h
  | easyEnter => exact nextCanonical_execEasyEnter h
  | easyResumePoint => exact nextCanonical_execEasyResumePoint h
  | tetherLeadEnd => exact nextCanonical_execTetherLeadEnd h
  | setMode _ => exact nextCanonical_execSetMode h
  | boardFormed _ => exact nextCanonical_execBoardFormed h
  | bankRd _ _ => exact nextCanonical_execBankRd h
  | bankWr _ _ _ _ => exact nextCanonical_execBankWr h
  | deepRd _ _ _ => exact nextCanonical_execDeepRd h
  | deepWr _ _ _ => exact nextCanonical_execDeepWr h
  | march _ _ => exact nextCanonical_execMarch h
  | bist _ _ => exact nextCanonical_execBist h
  | loadPassB => exact nextCanonical_execLoadPassB h
  | partialPassB => exact nextCanonical_execPartialPassB h
  | powerOn _ _ => exact nextCanonical_execPowerOn h
  | keeperStart _ _ _ => exact nextCanonical_execKeeperStart h
  | captureWrite _ _ => exact nextCanonical_execCaptureWrite h
  | powerEntry => exact nextCanonical_execPowerEntry h
  | padRelease _ => exact nextCanonical_execPadRelease h
  | thermalShutdown _ _ => exact nextCanonical_execThermalShutdown h
  | bankWindowWrite _ _ => exact nextCanonical_execBankWindowWrite h
  | readClear _ _ _ => exact nextCanonical_execReadClear h
  | registerWrite _ _ _ _ => exact nextCanonical_execRegisterWrite h
  | upset _ => exact nextCanonical_execUpset h
  | dmemInitDone => exact nextCanonical_execDmemInitDone h
  | powerLoss => exact nextCanonical_execPowerLoss h
  | retentionRailLoss _ => exact nextCanonical_execRetentionRailLoss h
  | snapshotRead _ _ _ => exact nextCanonical_execSnapshotRead h
  | bankWindowRead _ => exact nextCanonical_execBankWindowRead h
  | _ => exact KeepsMemory.canonical (by simp [exec]) h

end

/-- Settles O57: the command at the front of the queue, or on an empty queue the tick and what the ports send in it. -/
theorem everyStepKeepsMemory : Obligations.EveryStepKeepsMemory := by
  unfold Obligations.EveryStepKeepsMemory
  intro s t h e
  have kept : NextCanonical (step s) := by
    unfold step
    split
    · exact nextCanonical_next.mpr (canonical_idle h)
    · exact nextCanonical_exec (s := { s with pending := _ }) h _
  exact kept t e

end Sys2Proof.Machine
end

section
/-! PROOFS. Correction write-backs (R176, R188) and the scrubbers of the memories (R190, R192). -/

namespace Sys2Proof.Machine

/-! CORRECTION_WRITE_BACK (R176, R188). -/

/-- A cycle taken changes the grants at most. -/
theorem takeCycle_only (p b : Nat) (s : State) :
    ∃ g, takeCycle p b s = { s with fab := { s.fab with grants := g } } := by
  unfold takeCycle iff
  split
  · exact ⟨_, rfl⟩
  · exact ⟨s.fab.grants, rfl⟩

/-- A deep write-back: no bank codeword changes, no bank cycle is taken, and the codeword is written where the word as it
was read still stands. -/
theorem writeBack_deep {s : State} {w : WriteBack} {ws : List WriteBack} (hb : s.fab.backs = w :: ws)
    (hd : w.deep = true) :
    writeBack s = { s with deep := (writeBack s).deep, fab := { s.fab with backs := ws } } ∧
    ∀ k, deepCw (writeBack s) k = if k = w.key ∧ deepCw s w.key = w.old then w.new else deepCw s k := by
  have e : writeBack s = iff (deepCw s w.key == w.old) (setDeepCw w.key w.new)
      { s with fab := { s.fab with backs := ws } } := by simp [writeBack, hb, hd]
  rw [e]
  by_cases h : deepCw s w.key = w.old
  · rw [h, beq_self_eq_true, iff_yes]
    exact ⟨rfl, fun k => by simp only [deepCw_setDeepCw, and_true]; rfl⟩
  · rw [beq_false_of_ne h, iff_no]
    exact ⟨rfl, fun k => (if_neg fun c => h c.2).symm⟩

/-- A bank write-back: no deep codeword changes, and the codeword is written where the word as it was read still
stands. -/
theorem writeBack_bank {s : State} {w : WriteBack} {ws : List WriteBack} (hb : s.fab.backs = w :: ws)
    (hd : w.deep = false) :
    (∃ g, writeBack s = { s with bank := (writeBack s).bank, fab := { s.fab with backs := ws, grants := g } }) ∧
    ∀ k, bankCw (writeBack s) k =
      if k = w.key ∧ (bankCw s w.key).setWidth 288 = w.old then w.new.setWidth 72 else bankCw s k := by
  have e : writeBack s = takeCycle (w.key / 65536) (w.key % 65536 / 1024)
      (iff ((bankCw s w.key).setWidth 288 == w.old) (setBankCw w.key (w.new.setWidth 72))
        { s with fab := { s.fab with backs := ws } }) := by simp [writeBack, hb, hd]
  rw [e]
  by_cases h : (bankCw s w.key).setWidth 288 = w.old
  · rw [h, beq_self_eq_true, iff_yes]
    obtain ⟨g, hg⟩ := takeCycle_only (w.key / 65536) (w.key % 65536 / 1024)
      (setBankCw w.key (w.new.setWidth 72) { s with fab := { s.fab with backs := ws } })
    rw [hg]
    exact ⟨⟨g, rfl⟩, fun k => by
      simp only [and_true]
      exact bankCw_setBankCw w.key _ { s with fab := { s.fab with backs := ws } } k⟩
  · rw [beq_false_of_ne h, iff_no]
    obtain ⟨g, hg⟩ := takeCycle_only (w.key / 65536) (w.key % 65536 / 1024) { s with fab := { s.fab with backs := ws } }
    rw [hg]
    exact ⟨⟨g, rfl⟩, fun k => (if_neg fun c => h c.2).symm⟩

theorem backGranted_deep {s : State} {w : WriteBack} {ws : List WriteBack} (hb : s.fab.backs = w :: ws)
    (hd : w.deep = true) : backGranted s = true := by simp [backGranted, hb, hd]

/-- A write-back that finds its cycle free is performed. -/
theorem correctionWriteBack_granted {s : State} {w : WriteBack} {ws : List WriteBack} (hb : s.fab.backs = w :: ws)
    (hg : backGranted s = true) : Answers .correctionWriteBack s fun t =>
      t = { s with bank := t.bank, deep := t.deep, fab := { s.fab with backs := ws, grants := t.fab.grants } } ∧
      (∀ k, bankCw t k = if w.deep = false ∧ k = w.key ∧ (bankCw s w.key).setWidth 288 = w.old then w.new.setWidth 72
        else bankCw s k) ∧
      (∀ k, deepCw t k = if w.deep = true ∧ k = w.key ∧ deepCw s w.key = w.old then w.new else deepCw s k) := by
  refine .of_next (whenever_true _ _ hg) ?_
  cases hd : w.deep with
  | true =>
    obtain ⟨only, deep⟩ := writeBack_deep hb hd
    refine ⟨by rw [only], fun k => ?_, fun k => by simpa using deep k⟩
    rw [only]
    simp [bankCw]
  | false =>
    obtain ⟨⟨g, only⟩, bank⟩ := writeBack_bank hb hd
    refine ⟨by rw [only], fun k => by simpa using bank k, fun k => ?_⟩
    rw [only]
    simp [deepCw]

/-! BANK_SCRUB (R190, R192). -/

theorem bankKey_div_mod (n : Nat) : bankKey (n / 65536) (n % 65536) = n := by
  unfold bankKey
  omega

/-- The cycles granted do not say which codewords the bank scrubber walks. -/
theorem nextBankItem_grants (s : State) (g : List Nat) (n : Nat) :
    nextBankItem { s with fab := { s.fab with grants := g } } n = nextBankItem s n := rfl

/-- The scrubber reads a sound codeword: one cycle of its bank, and nothing else. -/
theorem scrubBank_clean {s : State} {n : Nat} (h : (check72 (bankCw s n)).cls = .clean) :
    scrubBank n s = takeFor (n / 65536) (n % 65536 / 1024) 4 s := by
  obtain ⟨g, hg⟩ := takeFor_only (n / 65536) (n % 65536 / 1024) 4 s
  rw [scrubBank, bankRead_clean]
  rw [hg, bankKey_div_mod]
  exact h

/-- Outside SCRUB_FULL and with a rate, BANK_SCRUB is one step of the background scrubber. -/
theorem exec_bankScrub {s : State} (hu : upState s = true) (hf : s.scb.full = none)
    (hr : bits (reg s 0x60100) 0 16 ≠ 0) : exec .bankScrub s = .next (bankScrubStep s) := by
  have rate : (bits (reg s 0x60100) 0 16 != 0) = true := bne_iff_ne.mpr hr
  simp only [exec, execBankScrub, whenever, hu, hf, rate, iff_yes, if_true]

theorem bankScrubStep_clean {s : State} {n m : Nat} (hn : nextBankItem s (bits (reg s 0x60108) 0 23) = some n)
    (hm : nextBankItem s (n + 1) = some m) (hc : (check72 (bankCw s n)).cls = .clean) (hmay : bankScrubMay s n = true) :
    bankScrubStep s = setReg 0x60108 (BitVec.ofNat 32 m) (takeFor (n / 65536) (n % 65536 / 1024) 4 s) := by
  obtain ⟨g, hg⟩ := takeFor_only (n / 65536) (n % 65536 / 1024) 4 s
  simp [bankScrubStep, hn, hmay, scrubBank_clean hc, hg, nextBankItem_grants, hm]

/-- The bank scrubber waits where it may not read its codeword. -/
theorem bankScrubStep_waits {s : State} {n : Nat} (hn : nextBankItem s (bits (reg s 0x60108) 0 23) = some n)
    (hmay : bankScrubMay s n = false) : bankScrubStep s = s := by
  simp [bankScrubStep, hn, hmay]

theorem bankScrubMay_scheduled {s : State} {n : Nat} (h : schedBank s (n / 65536) (n % 65536) = true) :
    bankScrubMay s n = false := by simp [bankScrubMay, h]

/-- A sound codeword scrubbed: the position moves on, one cycle is granted, and nothing else changes. -/
theorem bankScrub_clean {s : State} {n m : Nat} (hu : upState s = true) (hf : s.scb.full = none)
    (hr : bits (reg s 0x60100) 0 16 ≠ 0) (hn : nextBankItem s (bits (reg s 0x60108) 0 23) = some n)
    (hm : nextBankItem s (n + 1) = some m) (hc : (check72 (bankCw s n)).cls = .clean) (hmay : bankScrubMay s n = true) :
    Answers .bankScrub s fun t => t = { s with regs := t.regs, fab := { s.fab with grants := t.fab.grants } } ∧
      ∀ a, reg t a = if a = 0x60108 then BitVec.ofNat 32 m else reg s a := by
  obtain ⟨g, hg⟩ := takeFor_only (n / 65536) (n % 65536 / 1024) 4 s
  refine .of_next (exec_bankScrub hu hf hr) ?_
  rw [bankScrubStep_clean hn hm hc hmay, hg]
  exact ⟨rfl, fun a => by rw [reg_setReg]; rfl⟩

theorem bankScrub_waits {s : State} {n : Nat} (hf : s.scb.full = none)
    (hn : nextBankItem s (bits (reg s 0x60108) 0 23) = some n)
    (hs : schedBank s (n / 65536) (n % 65536) = true) : exec .bankScrub s = .next s := by
  have stay : bankScrubStep s = s := bankScrubStep_waits hn (bankScrubMay_scheduled hs)
  simp [exec, execBankScrub, whenever, hf, iff, stay]

/-! DEEP_SCRUB (R190, R192). -/

theorem deepScrubStep_waits {s : State} (glitch : BitVec 288) (h : schedDeep s (bits (reg s 0x6010C) 0 31) = true) :
    deepScrubStep glitch s = s := by
  simp [deepScrubStep, h]

/-- A sound deep codeword before the last one moves the position on, and changes nothing else. -/
theorem deepScrubStep_clean {s : State} (hs : schedDeep s (bits (reg s 0x6010C) 0 31) = false)
    (hlt : bits (reg s 0x6010C) 0 31 + 1 < 2 ^ 31)
    (hc : deepClass (checkDeep (deepCw s (bits (reg s 0x6010C) 0 31))) = .clean) :
    deepScrubStep 0 s = setReg 0x6010C (BitVec.ofNat 32 (bits (reg s 0x6010C) 0 31 + 1)) s := by
  simp only [deepScrubStep, deepRead_clean 1 hc, hs, Nat.mod_eq_of_lt hlt, beq_false_of_ne hlt.ne, iff_no,
    Bool.false_eq_true, if_false]

theorem deepScrub_waits {s : State} (hf : s.scb.full = none) (hs : schedDeep s (bits (reg s 0x6010C) 0 31) = true) :
    exec (.deepScrub 0) s = .next s := by
  simp only [exec, execDeepScrub, whenever, hf, iff, deepScrubStep_waits _ hs, ite_self]

theorem deepScrub_clean {s : State} (hf : s.scb.full = none) (hr : bits (reg s 0x60104) 0 16 ≠ 0)
    (hu : deepUp s = true) (hlt : bits (reg s 0x6010C) 0 31 + 1 < 2 ^ 31)
    (hc : deepClass (checkDeep (deepCw s (bits (reg s 0x6010C) 0 31))) = .clean)
    (hs : schedDeep s (bits (reg s 0x6010C) 0 31) = false) :
    Answers (.deepScrub 0) s fun t => t = { s with regs := t.regs } ∧
      ∀ a, reg t a = if a = 0x6010C then BitVec.ofNat 32 (bits (reg s 0x6010C) 0 31 + 1) else reg s a := by
  have e : exec (.deepScrub 0) s = .next (deepScrubStep 0 s) := by
    have rate : (bits (reg s 0x60104) 0 16 != 0) = true := bne_iff_ne.mpr hr
    simp only [exec, execDeepScrub, whenever, hu, hf, rate, iff_yes, if_true]
  refine .of_next e ?_
  rw [deepScrubStep_clean hs hlt hc]
  exact ⟨rfl, reg_setReg _ _ s⟩

/-- Settles O8: the write-back by its memory, and each scrubber by whether the schedule lets it read its codeword. -/
theorem memoryUpkeep : Obligations.MemoryUpkeep := by
  unfold Obligations.MemoryUpkeep
  refine ⟨fun s w ws hb => ⟨fun h => whenever_false _ _ h, backGranted_deep hb, correctionWriteBack_granted hb⟩, ?_⟩
  exact ⟨fun s n m => bankScrub_clean, fun s n => bankScrub_waits, fun s => deepScrub_waits, fun s => deepScrub_clean⟩

end Sys2Proof.Machine
end

section
/-! PROOFS. What a test and a repair leave as it was (R523 to R527): the image's loss, the
repairs, and the arrays under a test. -/

namespace Sys2Proof.Machine

/-! What a test leaves as it was. -/

/-- The image, MBX's busy bit, the controller's state and mode, and the registers that `P` names are as they were. -/
structure KeepsTest (P : Nat → Prop) (s t : State) : Prop where
  image : t.ldr.image = s.ldr.image
  busy : t.hif.busy = s.hif.busy
  st : t.cox.st = s.cox.st
  mode : t.cox.mode = s.cox.mode
  regs : ∀ a, P a → reg t a = reg s a

/-- So are the fuses and the soft records, as for everything but a slice that finds faults. -/
structure KeepsRecords (P : Nat → Prop) (s t : State) : Prop extends KeepsTest P s t where
  fuses : t.fuses = s.fuses
  soft : t.hlt.soft = s.hlt.soft

section
variable {P Q : Nat → Prop}

theorem KeepsTest.refl (s : State) : KeepsTest P s s := ⟨rfl, rfl, rfl, rfl, fun _ _ => rfl⟩

theorem KeepsTest.trans {s t u : State} (h : KeepsTest P s t) (k : KeepsTest P t u) : KeepsTest P s u :=
  ⟨k.image.trans h.image, k.busy.trans h.busy, k.st.trans h.st, k.mode.trans h.mode,
    fun a ha => (k.regs a ha).trans (h.regs a ha)⟩

theorem KeepsTest.mono {s t : State} (h : KeepsTest P s t) (hq : ∀ a, Q a → P a) : KeepsTest Q s t :=
  { h with regs := fun a ha => h.regs a (hq a ha) }

/-- An image that is gone stays gone. -/
theorem KeepsTest.dropped {s t : State} (h : KeepsTest P s t) (hd : ImageDropped s) : ImageDropped t := by
  obtain ⟨image, st, mode⟩ := hd
  exact ⟨h.image.trans image, h.st.trans st, h.mode.trans mode⟩

theorem KeepsRecords.refl (s : State) : KeepsRecords P s s := ⟨.refl s, rfl, rfl⟩

theorem KeepsRecords.trans {s t u : State} (h : KeepsRecords P s t) (k : KeepsRecords P t u) : KeepsRecords P s u :=
  ⟨h.toKeepsTest.trans k.toKeepsTest, k.fuses.trans h.fuses, k.soft.trans h.soft⟩

theorem KeepsRecords.mono {s t : State} (h : KeepsRecords P s t) (hq : ∀ a, Q a → P a) : KeepsRecords Q s t :=
  ⟨h.toKeepsTest.mono hq, h.fuses, h.soft⟩

theorem KeepsRecords.iff {s : State} {f : State → State} (c : Bool) (h : KeepsRecords P s (f s)) :
    KeepsRecords P s (iff c f s) := by
  cases c
  · exact .refl s
  · exact h

theorem KeepsRecords.foldl {α : Type} {f : State → α → State} (h : ∀ x a, KeepsRecords P x (f x a)) (l : List α)
    (s : State) : KeepsRecords P s (l.foldl f s) :=
  l.foldlRecOn f (.refl s) fun x hx a _ => hx.trans (h x a)

/-- Changes of what neither relation speaks of. -/
theorem keepsRecords_outside (s : State) {cfg slots groups bank net lnk pins out free} :
    KeepsRecords P s { s with
      cfg := cfg, slots := slots, groups := groups, bank := bank, net := net, lnk := lnk, pins := pins, out := out,
      free := free } :=
  ⟨⟨rfl, rfl, rfl, rfl, fun _ _ => rfl⟩, rfl, rfl⟩

theorem keepsRecords_cox (s : State) {halts board out} : KeepsRecords P s { s with
    cox := { s.cox with halts := halts, board := board }, out := out } :=
  ⟨⟨rfl, rfl, rfl, rfl, fun _ _ => rfl⟩, rfl, rfl⟩

/-- Of the health unit, all but the soft records. -/
theorem keepsRecords_health (s : State) {pwr retired ownSpare spares waiting replaced} : KeepsRecords P s { s with
    pwr := pwr, hlt := { s.hlt with
      retired := retired, ownSpare := ownSpare, spares := spares, waiting := waiting, replaced := replaced } } :=
  ⟨⟨rfl, rfl, rfl, rfl, fun _ _ => rfl⟩, rfl, rfl⟩

theorem KeepsRecords.of_logOnly {s t : State} (h : LogOnly s t) (hr : ∀ a, P a → reg t a = reg s a) :
    KeepsRecords P s t := by
  obtain ⟨_, _, _, _, _, _, _, rfl⟩ := h
  exact ⟨⟨rfl, rfl, rfl, rfl, hr⟩, rfl, rfl⟩

theorem keepsRecords_setReg {a : Nat} (v : Word) (s : State) (h : ¬ P a) : KeepsRecords P s (setReg a v s) :=
  .of_logOnly (logOnly_setReg a v s) fun _ hb => reg_setReg_ne v s fun e => h (e ▸ hb)

theorem keepsRecords_setFld {f : Fld} (v : Nat) (s : State) (h : ¬ P f.a) : KeepsRecords P s (setFld f v s) :=
  keepsRecords_setReg _ s h

theorem keepsRecords_logEvent (c l d : Nat) (s : State) (h : ¬ P 0x20) : KeepsRecords P s (logEvent c l d s) :=
  .of_logOnly (logOnly_logEvent c l d s) fun _ ha => reg_logEvent c l d s fun e => h (e ▸ ha)

theorem keepsRecords_count (a : Nat) (s : State) (h : ¬ P 0x20) : KeepsRecords P s (count a s) :=
  .of_logOnly (logOnly_count a s) fun _ ha => reg_count a s fun e => h (e ▸ ha)

/-- A pod that goes to CHECK: the pins of its bank, and its registers in TIO. -/
theorem keepsRecords_podCheck (b : Nat) (s : State) (h : ¬ P (0x200000 + 4 * b)) : KeepsRecords P s (podCheck b s) := by
  have pod : KeepsRecords P s (setPod b .check s) := by
    unfold setPod bankDrop
    dsimp only
    split <;> exact keepsRecords_outside s
  have read : ∀ x, KeepsRecords P x (freeReadings b x) := fun x =>
    ((keepsRecords_setFld (f := fPodid b) _ x h).trans (keepsRecords_setFld (f := fPodkeyHigh b) _ _ h)).trans
      ((keepsRecords_setFld (f := fVccioOk b) _ _ h).trans (keepsRecords_outside _))
  exact (pod.trans (read _)).trans (keepsRecords_setFld (f := fBankCause b) _ _ h)

theorem keepsRecords_revolt (old s : State) (h : ∀ b, ¬ P (0x200000 + 4 * b)) : KeepsRecords P s (revolt old s) := by
  refine .foldl (fun x b => ?_) _ s
  split
  · exact keepsRecords_podCheck b x (h b)
  · exact .refl x

end

/-! A change of mode keeps MBX's busy bit, the fuses and the soft records. -/

/-- MBX's busy bit, the fuses and the soft records. -/
def records (s : State) : Bool × Fuses × List FaultRec := (s.hif.busy, s.fuses, s.hlt.soft)

section
variable {s : State}

theorem records_of {t : State} (hh : t.hif = s.hif) (hf : t.fuses = s.fuses) (hl : t.hlt = s.hlt) :
    records t = records s := by
  rw [records, records, hh, hf, hl]

@[simp] theorem records_iff {c : Bool} {f : State → State} (h : ∀ x, records (f x) = records x) :
    records (iff c f s) = records s := by
  cases c
  · rfl
  · exact h s

@[simp] theorem records_foldl {α : Type} {f : State → α → State} {l : List α} (h : ∀ x a, records (f x a) = records x) :
    records (l.foldl f s) = records s :=
  l.foldlRecOn (motive := fun x => records x = records s) f rfl fun x hx a _ => (h x a).trans hx

@[simp] theorem records_setFld {f v} : records (setFld f v s) = records s := rfl
@[simp] theorem records_logEvent {c l d} : records (logEvent c l d s) = records s := records_of (by simp) (by simp) (by simp)
@[simp] theorem records_count {a} : records (count a s) = records s := records_of (by simp) (by simp) (by simp)

@[simp] theorem records_complete {c e} : records (complete c e s) = records s := by
  have chan : ∀ x y, records (setChan c y x) = records x := fun _ _ => rfl
  unfold complete
  dsimp only
  split
  · rfl
  · split
    · exact records_count.trans (chan _ _)
    · exact chan _ _

@[simp] theorem records_tooLate {c tag} : records (tooLate c tag s) = records s := records_complete

@[simp] theorem records_endMsg {m status detail course devWords} :
    records (endMsg m status detail course devWords s) = records s := by
  have removed : records (removeMsg m.order s) = records s := rfl
  have dropped : ∀ x, records (dropRest m.chan.toNat m.tag (restOfMsg m) x) = records x := fun _ => rfl
  unfold endMsg
  dsimp only
  split
  · exact removed
  · rw [records_foldl fun _ _ => records_tooLate, records_complete, dropped, removed]

@[simp] theorem records_cancelMsg {status detail m} : records (cancelMsg status detail s m) = records s := by
  have claimed : ∀ k x, records (setUnclaimed k (unclaimed x k + 1) x) = records x := fun _ _ => rfl
  have credited : ∀ k x, records (setCredits k (min 15 (niCredits x k + 1)) x) = records x := fun _ _ => rfl
  exact records_endMsg.trans ((records_iff (credited (msgKey m))).trans (records_iff (claimed (msgKey m))))

@[simp] theorem records_endHeld {w status detail devWords} : records (endHeld w status detail devWords s) = records s :=
  records_complete.trans rfl

@[simp] theorem records_stopDataPlane : records (stopDataPlane s) = records s := by
  simp [stopDataPlane]

@[simp] theorem records_densWrite {p inst cut} : records (densWrite p inst cut s) = records s := by
  have out : ∀ o x, records (emit o x) = records x := fun _ _ => rfl
  unfold densWrite
  dsimp only
  split
  · rfl
  · split
    · exact (records_iff fun _ => records_logEvent).trans records_count
    · exact records_setFld.trans (out _ s)

@[simp] theorem records_densEnd {cut} : records (densEnd cut s) = records s := by
  have ended : ∀ (x : State) (t : Trg), records { x with trg := t } = records x := fun _ _ => rfl
  unfold densEnd
  dsimp only
  rw [ended]
  split
  · simp
  · rfl

@[simp] theorem records_serviceEffects : records (serviceEffects s) = records s :=
  records_stopDataPlane.trans ((records_densEnd (s := pinsOff s)).trans rfl)

theorem records_applyMode {m} : records (applyMode m s) = records s := by
  have released : ∀ x, records (releasePins x) = records x := fun _ => rfl
  have pulled : ∀ x, records (pullsOn x) = records x := fun _ => rfl
  have chosen : ∀ (x : State) (c : Cox), records { x with cox := c } = records x := fun _ _ => rfl
  have tethered : ∀ (x : State) (c : Cox), records (setFlag fThrPending false (setFlag fTclkSeen false
      { x with cox := c })) = records x := fun _ _ => rfl
  unfold applyMode
  dsimp only
  refine (records_iff fun _ => records_logEvent.trans records_setFld).trans ?_
  refine (records_iff released).trans ((records_iff pulled).trans ?_)
  refine (records_iff fun _ => records_serviceEffects).trans ((records_iff fun _ => tethered _ _).trans ?_)
  exact (records_iff fun _ => records_setFld).trans ((chosen _ _).trans (records_iff fun _ => records_densEnd))

end

/-- An operation that overwrites design state drops the image, and keeps MBX, the fuses and the soft records. -/
theorem dropImage_drops (s : State) : ImageDropped (dropImage s) ∧ records (dropImage s) = records s := by
  let service : ModeSet := { mode := .service, lockstep := false, fleetPins := false, course := 0 }
  obtain ⟨_, _, _, _, cox⟩ := applyMode_cox service s
  have mode : (serviceEffects (applyMode service s)).cox.mode = .service := by rw [serviceEffects_cox, cox]
  have kept : ∀ x, KeepsRecords (fun _ => False) x (revolt s x) := fun x => keepsRecords_revolt s x fun _ => not_false
  refine ⟨(kept _).dropped ⟨rfl, rfl, mode⟩, ?_⟩
  calc records (dropImage s) = records (serviceEffects (applyMode service s)) := by
        unfold dropImage records
        dsimp only
        rw [(kept _).busy, (kept _).fuses, (kept _).soft]
    _ = records s := records_serviceEffects.trans records_applyMode

/-! Repairs (R523, R524) keep the results of self-test and the states of the banks. -/

/-- The registers of HLT.POST. -/
abbrev SliceReg (a : Nat) : Prop := 0x30000 ≤ a ∧ a < 0x30100

/-- The registers of HLT.POST and of the banks' states. -/
def TestedReg (a : Nat) : Prop := SliceReg a ∨ ∃ p, pavA p + 0x620 ≤ a ∧ a < pavA p + 0x630

theorem not_testedReg_low {a : Nat} (h : a < 0x30000 ∨ 0x30100 ≤ a ∧ a < 0x400000) : ¬ TestedReg a := by
  rintro (h1 | ⟨p, h1⟩)
  · omega
  · unfold pavA at h1
    omega

theorem not_testedReg_spareCrewA (p : Nat) : ¬ TestedReg (spareCrewA p) := by
  unfold spareCrewA
  rintro (h | ⟨q, h⟩) <;> unfold pavA at h <;> omega

theorem not_testedReg_spareBpA {p c : Nat} (hc : c < 64) : ¬ TestedReg (spareBpA p c) := by
  unfold spareBpA
  rintro (h | ⟨q, h⟩) <;> unfold pavA at h <;> omega

section
variable (s : State)

theorem keepsRecords_retire (p : Nat) : KeepsRecords TestedReg s (retire p s) := by
  have routes : ∀ x, KeepsRecords TestedReg x (dropRoutesTo p x) := fun x =>
    .foldl (fun y q => by split <;> [exact keepsRecords_outside y; exact .refl y]) _ x
  unfold retire
  split
  · exact ((keepsRecords_health s).trans (routes _)).trans
      (keepsRecords_logEvent _ _ _ _ (not_testedReg_low (.inl (by decide))))
  · exact .refl s

theorem keepsRecords_useSpareCrew (p : Nat) {c : Nat} (hc : c < 64) :
    KeepsRecords TestedReg s (useSpareCrew p c s).2 := by
  unfold useSpareCrew
  dsimp only
  split
  · exact keepsRecords_retire s p
  · exact (keepsRecords_setReg _ s (not_testedReg_spareCrewA p)).trans
      (keepsRecords_setReg _ _ (not_testedReg_spareBpA hc))

theorem keepsRecords_replaceBp (p b : Nat) {c : Nat} (hc : c < 64) :
    KeepsRecords TestedReg s (replaceBp p c b s).2 := by
  unfold replaceBp
  dsimp only
  split
  · exact .refl s
  · split
    · exact keepsRecords_setReg _ s (not_testedReg_spareBpA hc)
    · exact keepsRecords_useSpareCrew s p hc

theorem keepsRecords_replaceSpare (p b : Nat) : KeepsRecords TestedReg s (replaceSpare p b s).2 := by
  unfold replaceSpare
  dsimp only
  split
  · exact (keepsRecords_health s).trans (.iff _ (keepsRecords_setReg _ _ (not_testedReg_spareBpA (bits_lt _ 0 6))))
  · split
    · exact keepsRecords_retire s p
    · exact keepsRecords_setReg _ s (not_testedReg_spareCrewA p)

theorem keepsRecords_repairOne (f : FaultRec) : KeepsRecords TestedReg s (repairOne f s).2 := by
  unfold repairOne
  extract_lets k p used
  split
  · exact .refl s
  · split
    · exact keepsRecords_health s
    · split
      · exact keepsRecords_retire s p
      · split
        · exact .foldl (fun x q => keepsRecords_retire x q) _ s
        · split
          · exact keepsRecords_replaceSpare s p _
          · exact keepsRecords_replaceBp s p _ f.crew.isLt

theorem keepsRecords_repairAll (fs : List FaultRec) : KeepsRecords TestedReg s (repairAll fs s).2 :=
  fs.foldlRecOn (motive := fun x : (Nat × Nat × Nat) × State => KeepsRecords TestedReg s x.2) _ (.refl s)
    fun x hx f _ => hx.trans (keepsRecords_repairOne x.2 f)

theorem keepsRecords_checkReplace : KeepsRecords TestedReg s (checkReplace s) := by
  have alerted : ∀ x, KeepsRecords TestedReg x (alert 6 x) := fun x =>
    keepsRecords_setReg _ x (not_testedReg_low (.inr (by decide)))
  unfold checkReplace
  split
  · exact ((keepsRecords_health s).trans (alerted _)).trans
      (keepsRecords_logEvent _ _ _ _ (not_testedReg_low (.inl (by decide))))
  · exact .refl s

theorem keepsRecords_repairWaiting : KeepsRecords TestedReg s (repairWaiting s) := by
  exact ((keepsRecords_health s).trans (keepsRecords_repairAll _ _)).trans (keepsRecords_checkReplace _)

/-- With the image dropped and the waiting records applied: MBX, the fuses and the soft records stand. -/
theorem dropImage_repaired : ImageDropped (repairWaiting (dropImage s)) ∧
    records (repairWaiting (dropImage s)) = records s := by
  obtain ⟨dropped, same⟩ := dropImage_drops s
  have kept := keepsRecords_repairWaiting (dropImage s)
  refine ⟨kept.dropped dropped, Eq.trans ?_ same⟩
  rw [records, kept.busy, kept.fuses, kept.soft]
  rfl

/-! Progress and the faults that a MARCH logs. -/

/-- A step shown in MBX.PROGRESS: registers, a free value drawn and a packet traced. -/
theorem showStep_only (n : Nat) : ∃ regs committed free, showStep n s =
    { s with regs := regs, trc := { s.trc with committed := committed }, free := free } := by
  unfold showStep commit
  dsimp only
  split
  · exact ⟨_, s.trc.committed, _, rfl⟩
  · split
    · exact ⟨_, _, _, rfl⟩
    · exact ⟨_, s.trc.committed, _, rfl⟩

theorem reg_showStep (n : Nat) {a : Nat} (h : a ≠ 0x10008) : reg (showStep n s) a = reg s a := by
  have shown : ∀ u v x, reg (setFld fMbxStep u (setFld fMbxPct v x)) a = reg x a := fun u v x =>
    (reg_setFld_ne u _ h).trans (reg_setFld_ne v x h)
  unfold showStep
  dsimp only
  split
  · exact shown _ _ _
  · exact (reg_commit ..).trans (shown _ _ _)

theorem keepsRecords_showStep (n : Nat) : KeepsRecords TestedReg s (showStep n s) := by
  have regs : ∀ a, TestedReg a → reg (showStep n s) a = reg s a := fun a ha =>
    reg_showStep s n fun e => not_testedReg_low (.inl (by decide)) (e ▸ ha)
  obtain ⟨_, _, _, e⟩ := showStep_only s n
  rw [e] at regs ⊢
  exact ⟨⟨rfl, rfl, rfl, rfl, regs⟩, rfl, rfl⟩

theorem keepsDesign_showStep (n : Nat) : KeepsDesign s (showStep n s) := by
  obtain ⟨_, _, _, e⟩ := showStep_only s n
  rw [e]
  exact ⟨rfl, rfl, rfl, .refl s⟩

theorem keepsRecords_logFaults (fs : List FaultRec) : KeepsRecords TestedReg s (logFaults fs s) :=
  .foldl (fun x p => by
    split
    · exact keepsRecords_logEvent _ _ _ x (not_testedReg_low (.inl (by decide)))
    · exact .refl x) _ s

theorem keepsDesign_logFaults (fs : List FaultRec) : KeepsDesign s (logFaults fs s) :=
  .foldl (fun x p => by
    split
    · exact (quiet_logEvent _ _ _ x).toKeepsDesign
    · exact .refl x) _ s

/-- The steps of the arrays that a MARCH selects are shown, and the faults that it finds are logged. -/
def marchShown (m : MbxArgs) (fs : List FaultRec) (s : State) : State :=
  logFaults fs ([0, 1, 2].foldl (fun x k => iff (m.a0.getLsbD (8 + k)) (showStep (arrayStep k)) x) s)

theorem keepsRecords_marchShown (m : MbxArgs) (fs : List FaultRec) : KeepsRecords TestedReg s (marchShown m fs s) :=
  (KeepsRecords.foldl (fun x _ => .iff _ (keepsRecords_showStep x _)) _ s).trans (keepsRecords_logFaults _ fs)

theorem keepsDesign_marchShown (m : MbxArgs) (fs : List FaultRec) : KeepsDesign s (marchShown m fs s) :=
  (KeepsDesign.foldl (fun x _ => .iff _ (keepsDesign_showStep x _)) _ s).trans (keepsDesign_logFaults _ fs)

/-- New soft records are no part of what a test keeps. -/
theorem keepsTest_addSoft {P : Nat → Prop} (fs : List FaultRec) (wait : Bool) : KeepsTest P s (addSoft fs wait s) :=
  ⟨rfl, rfl, rfl, rfl, fun _ _ => rfl⟩

end

/-! The arrays under a destructive test (R191, R527). -/

theorem KeepsTest.bankState {s t : State} (h : KeepsTest TestedReg s t) (p : Nat) {k : Nat} (hk : k < 64) :
    bankState t p k = bankState s p k :=
  fld_of_reg (h.regs _ (.inr ⟨p, by simp only; omega⟩))

/-- A row of banks switched off leaves each of them off, and one that was off. -/
theorem bankState_rowOff {p q k : Nat} (hk : k < 64) (l : List Nat) : (∀ b ∈ l, b < 64) → ∀ s : State,
    bankState s p k = 2 ∨ p = q ∧ k ∈ l → bankState (l.foldl (fun y b => setBank q b 2 y) s) p k = 2 := by
  induction l with
  | nil => exact fun _ s h => h.elim id fun h => absurd h.2 List.not_mem_nil
  | cons b l ih =>
    intro hl s h
    obtain ⟨hb, hl⟩ := List.forall_mem_cons.mp hl
    refine ih hl _ ?_
    rw [bankState_setBank 2 s hk hb]
    simp only [List.mem_cons] at h
    split
    · exact .inl rfl
    · tauto

/-- So do the rows of the pavilions under a test. -/
theorem bankState_rowsOff {inP : Nat → Bool} {p k : Nat} (hk : k < 64) (hi : inP p = true) (l : List Nat) : ∀ s : State,
    bankState s p k = 2 ∨ p ∈ l → bankState (l.foldl (fun x q =>
      if inP q then (List.range 64).foldl (fun y b => setBank q b 2 y) x else x) s) p k = 2 := by
  induction l with
  | nil => exact fun s h => h.elim id fun h => absurd h List.not_mem_nil
  | cons q l ih =>
    intro s h
    have row := bankState_rowOff (p := p) (q := q) hk (List.range 64) (fun _ => List.mem_range.mp) s
    refine ih _ ?_
    dsimp only
    rcases h with h | h
    · split
      · exact .inl (row (.inl h))
      · exact .inl h
    · rcases List.mem_cons.mp h with rfl | h
      · rw [if_pos hi]
        exact .inl (row (.inr ⟨rfl, List.mem_range.mpr hk⟩))
      · exact .inr h

/-- The banks of the pavilions under a test are off after it (R191). -/
theorem bankState_dropBanks {inP : Nat → Bool} {p k : Nat} (hp : p < 128) (hk : k < 64) (hi : inP p = true) (s : State) :
    bankState (dropBanks inP s) p k = 2 :=
  bankState_rowsOff hk hi allPavs _ (.inr (List.mem_range.mpr hp))

theorem keepsRecords_dropBanks (inP : Nat → Bool) (s : State) : KeepsRecords SliceReg s (dropBanks inP s) := by
  have bank : ∀ x q b, KeepsRecords SliceReg x (setBank q b 2 x) := fun x q b =>
    keepsRecords_setFld (f := ⟨pavA q + 0x620 + 4 * (b / 16), 2 * (b % 16), 2⟩) 2 x (by simp only [pavA]; omega)
  refine KeepsRecords.trans (keepsRecords_outside s) (.foldl (fun x q => ?_) _ _)
  split
  · exact .foldl (fun y b => bank y q b) _ x
  · exact .refl x

theorem keepsRecords_wipeArrays (arrays : BitVec 3) (inP : Nat → Bool) (s : State) :
    KeepsRecords SliceReg s (wipeArrays arrays inP s) := by
  have frames : ∀ ty x, KeepsRecords SliceReg x (wipeFrames ty inP x) := fun _ x => keepsRecords_outside x
  have data : ∀ x, KeepsRecords SliceReg x (wipeData inP x) := fun x => keepsRecords_outside x
  exact ((KeepsRecords.iff _ (frames 1 s)).trans (.iff _ (data _))).trans (.iff _ (keepsRecords_dropBanks inP _))

theorem bankState_wipeArrays {arrays : BitVec 3} {inP : Nat → Bool} {p k : Nat} (h : arrays.getLsbD 2 = true)
    (hp : p < 128) (hk : k < 64) (hi : inP p = true) (s : State) : bankState (wipeArrays arrays inP s) p k = 2 := by
  rw [wipeArrays, h, iff_yes]
  exact bankState_dropBanks hp hk hi _

end Sys2Proof.Machine
end

section
/-! PROOFS. The slices of BIST (R528): each notes its result, and keeps the results of the others. -/

namespace Sys2Proof.Machine

/-! A Daxair port that leaves its state outside WAIT (R528). -/

theorem not_sliceReg_lnkA (n o : Nat) : ¬ SliceReg (lnkA n + o) := by
  simp only [lnkA]
  omega

theorem keepsRecords_raiseHalt {P : Nat → Prop} (cause : Nat) (s : State) : KeepsRecords P s (raiseHalt cause s) := by
  obtain ⟨_, _, e⟩ := raiseHalt_only cause s
  rw [e]
  exact keepsRecords_cox s

theorem keepsRecords_toForming (s : State) : KeepsRecords SliceReg s (toForming s) := by
  have board : ∀ (x : State) (b : BoardState), KeepsRecords SliceReg x { x with cox := { x.cox with board := b } } :=
    fun x _ => keepsRecords_cox x
  have shown : ∀ n x, KeepsRecords SliceReg x (showFar n x) := fun n x =>
    (keepsRecords_setFld _ x (not_sliceReg_lnkA n _)).trans (keepsRecords_setFld _ _ (not_sliceReg_lnkA n _))
  have marked : ∀ n p x, KeepsRecords SliceReg x (setLnk n p x) := fun _ _ x => keepsRecords_outside x
  have measures : ∀ x, KeepsRecords SliceReg x (toMeasuring x) := fun x =>
    (board x .measuring).trans (.foldl (fun y n => .iff _ ((marked n _ y).trans (shown n _))) _ _)
  unfold toForming
  split
  · refine (board s .forming).trans ?_
    unfold tryMeasure
    split
    · exact measures _
    · exact .refl _
  · exact .refl s

/-- Outside WAIT no halt is in force at once. -/
theorem keepsRecords_isolate {s : State} (h : s.cox.st ≠ .wait) : KeepsRecords SliceReg s (isolate s) := by
  have said : ∀ m, KeepsRecords SliceReg s (emit (.cox 5 m) (setFlag fIsolated true (logEvent evCoxIsolated locNone 0 s))) :=
    fun m => ((keepsRecords_logEvent _ _ _ s (by decide)).trans (keepsRecords_setFld (f := fIsolated) _ _ (by decide))).trans
      (keepsRecords_outside _)
  have pending : ∀ r x, KeepsRecords SliceReg x (addHalt r x) := fun r x => by
    obtain ⟨_, e⟩ := addHalt_only r x
    rw [e]
    exact keepsRecords_cox x
  unfold isolate
  dsimp only
  split
  · rw [if_neg (by simpa using h)]
    exact (said _).trans (.iff _ (pending _ _))
  · exact .refl s

theorem keepsRecords_boardLoses (n : Nat) (st : LnkState) {s : State} (h : s.cox.st ≠ .wait) :
    KeepsRecords SliceReg s (boardLoses n st s) := by
  have inactive : KeepsRecords SliceReg s (setPortActive n false s) :=
    keepsRecords_setFld (f := ⟨0xB008C, 8 + n, 1⟩) _ s (show ¬ SliceReg 0xB008C by decide)
  have isolated : ∀ x, KeepsRecords SliceReg s x → KeepsRecords SliceReg s (isolate x) := fun x hx =>
    hx.trans (keepsRecords_isolate (hx.st ▸ h))
  unfold boardLoses
  dsimp only
  split
  · exact inactive
  · refine isolated _ ?_
    split
    · exact inactive.trans ((keepsRecords_logEvent _ _ _ _ (by decide)).trans
        ((KeepsRecords.iff _ (keepsRecords_raiseHalt _ _)).trans (keepsRecords_toForming _)))
    · exact inactive.trans (keepsRecords_toForming _)

theorem keepsRecords_losePkt {P : Nat → Prop} (s : State) (pk : Packet) : KeepsRecords P s (losePkt s pk) := by
  have answered : ∀ x, KeepsRecords P s (queued 0 5 x s) := fun x => by
    obtain ⟨_, _, _, e⟩ := queued_only 0 5 x s
    rw [e]
    exact keepsRecords_outside s
  unfold losePkt ioStatus ioAnswer
  dsimp only
  split
  · exact keepsRecords_outside s
  · split
    · exact keepsRecords_outside s
    · exact answered _

theorem keepsRecords_leavePort (n : Nat) (st : LnkState) (cause : Nat) {s : State} (h : s.cox.st ≠ .wait) :
    KeepsRecords SliceReg s (leavePort n st cause s) := by
  unfold leavePort
  extract_lets x was lost s1 s2 s3
  have gone : KeepsRecords SliceReg s s1 :=
    KeepsRecords.trans (keepsRecords_outside s) (keepsRecords_setFld (f := fLnkCause n) _ _ (not_sliceReg_lnkA n 4))
  have noted := (gone.trans (.iff was (keepsRecords_count (lnkA n + 0x220) s1 (by decide)))).trans
    (.iff (was && rewriting s2) (keepsRecords_logEvent evLinkLost (locUnit n 0) st.code s2 (by decide)))
  exact (noted.trans (.iff _ (keepsRecords_boardLoses n st (noted.st ▸ h)))).trans (.foldl keepsRecords_losePkt _ _)

theorem keepsRecords_slicePort (k : Nat) (fails : Bool) {s : State} (h : s.cox.st ≠ .wait) :
    KeepsRecords SliceReg s (slicePort k fails s) := by
  unfold slicePort
  split
  · split
    · exact keepsRecords_leavePort _ _ _ h
    · split
      · exact keepsRecords_leavePort _ _ _ h
      · exact .refl s
  · exact .refl s

/-! A slice of BIST (R528) keeps the results of the others. -/

theorem foldl_hif {α : Type} {f : State → α → State} (h : ∀ x a, (f x a).hif = x.hif) (l : List α) (s : State) :
    (l.foldl f s).hif = s.hif :=
  l.foldlRecOn (motive := fun x => x.hif = s.hif) f rfl fun x hx a _ => (h x a).trans hx

theorem tempSlice_hif (bad : List Nat) (s : State) : (tempSlice bad s).hif = s.hif :=
  (foldl_hif (fun x _ => (logEvent_hif _ _ _ (alert 4 x)).trans rfl) _ _).trans
    (foldl_hif (fun x _ => setFlag_hif _ _ x) _ s)

theorem voltSlice_hif (bad : List Nat) (s : State) : (voltSlice bad s).hif = s.hif :=
  foldl_hif (fun x r => (logEvent_hif _ _ _ (alert 2 (setFld ⟨0x30300 + 4 * r, 14, 2⟩ 3 x))).trans rfl) _ s

theorem slicePasses_hif (k : Nat) (s : State) : (slicePasses k s).hif = s.hif := by
  unfold slicePasses
  split
  · exact tempSlice_hif [] s
  · split <;> rfl

theorem processSlice_hif (s : State) : (processSlice s).hif = s.hif :=
  foldl_hif (fun _ _ => by split <;> rfl) _ s

theorem sliceFails_hif (k : Nat) (bad : List Nat) (fs : List FaultRec) (s : State) :
    (sliceFails k bad fs s).hif = s.hif := by
  have flagged : (alert 5 (setFlag fPostFail true s)).hif = s.hif := rfl
  unfold sliceFails
  dsimp only
  split_ifs
  · exact logEvent_hif ..
  · exact (tempSlice_hif bad _).trans flagged
  · exact (voltSlice_hif bad _).trans flagged
  · rfl
  · exact logEvent_hif ..
  · exact logEvent_hif ..
  · exact logEvent_hif ..
  · exact logEvent_hif ..

theorem KeepsTest.of_post {s t : State} (k : KeepsRegs PostReg s t) (hh : t.hif = s.hif) : KeepsTest SliceReg s t :=
  ⟨by rw [k.ldr], by rw [hh], by rw [k.cox], by rw [k.cox], fun a ha => k.regs a (.inr ha)⟩

theorem keepsTest_slicePasses (k : Nat) (s : State) : KeepsTest SliceReg s (slicePasses k s) :=
  .of_post (keepsPost_slicePasses k s) (slicePasses_hif k s)

theorem keepsTest_sliceFails (k : Nat) (bad : List Nat) (fs : List FaultRec) (s : State) :
    KeepsTest SliceReg s (sliceFails k bad fs s) :=
  (keepsRecords_setFld (f := fPostFail) 1 s (by decide)).toKeepsTest.trans
    (.of_post (keepsPost_sliceFails k bad fs s) ((sliceFails_hif k bad fs s).trans rfl))

/-- HLT.POST but for slice `k`. -/
def OtherSlice (k a : Nat) : Prop := SliceReg a ∧ a ≠ 0x30000 + 4 * k

/-- The result of slice `k` that BIST leaves (R528, R537): stopped, passed, failed, or failed and repaired. -/
def SliceNoted (b : BistIn) (k : Nat) (t : State) : Prop :=
  (b.late.getLsbD k = true → fld t (fPost k) = 4) ∧
  (b.late.getLsbD k = false → b.failed.getLsbD k = false → fld t (fPost k) = 1) ∧
  (b.late.getLsbD k = false → b.failed.getLsbD k = true → fld t (fPost k) = 3 ∨
    (fld t (fPost k) = 2 ∧ repairSlice k ≠ none))

theorem SliceNoted.of_fld {b : BistIn} {k : Nat} {s t : State} (h : SliceNoted b k s)
    (e : fld t (fPost k) = fld s (fPost k)) : SliceNoted b k t := by
  rw [SliceNoted, e]
  exact h

theorem fld_fPost {k v : Nat} (s : State) (h : v < 16) : fld (setFld (fPost k) v s) (fPost k) = v :=
  (fld_setFld (fPost k) v s (Nat.le_refl 32)).trans (Nat.mod_eq_of_lt h)

theorem keepsTest_fPost (k v : Nat) (s : State) : KeepsTest (OtherSlice k) s (setFld (fPost k) v s) :=
  (keepsRecords_setFld v s fun h => h.2 rfl).toKeepsTest

theorem keepsTest_fPostUs (k v : Nat) (s : State) : KeepsTest (OtherSlice k) s (setFld (fPostUs k) v s) :=
  (keepsRecords_setFld v s fun h => h.2 rfl).toKeepsTest

/-- What keeps all of HLT.POST keeps the results of the other slices. -/
theorem KeepsTest.other {s t : State} (h : KeepsTest SliceReg s t) (k : Nat) : KeepsTest (OtherSlice k) s t :=
  h.mono fun _ ha => ha.1

theorem bistFails_spec (b : BistIn) (k : Nat) (s : State) : KeepsTest (OtherSlice k) s (bistFails b k s) ∧
    (fld (bistFails b k s) (fPost k) = 3 ∨ (fld (bistFails b k s) (fPost k) = 2 ∧ repairSlice k ≠ none)) := by
  have repaired : ∀ fs x, KeepsTest SliceReg x (repairAll fs x).2 := fun fs x =>
    (keepsRecords_repairAll x fs).toKeepsTest.mono fun _ => .inl
  unfold bistFails
  extract_lets fs s1
  have failed : KeepsTest SliceReg s s1 := keepsTest_sliceFails k _ b.faults s
  split
  · exact ⟨(failed.other k).trans (keepsTest_fPost k 3 s1), .inl (fld_fPost s1 (by decide))⟩
  · refine ⟨((failed.trans (repaired fs s1)).other k).trans (keepsTest_fPost k _ _), ?_⟩
    dsimp only
    split
    · exact .inr ⟨fld_fPost _ (by decide), ‹_›⟩
    · exact .inl (fld_fPost _ (by decide))

/-- BIST runs one slice: its result is noted, and the results of the others stand. -/
theorem bistSlice_spec (b : BistIn) (k : Nat) {s : State} (h : s.cox.st ≠ .wait) :
    KeepsTest (OtherSlice k) s (bistSlice b k s) ∧ SliceNoted b k (bistSlice b k s) := by
  unfold bistSlice
  extract_lets s1 s2
  have wiped : KeepsRecords SliceReg s s1 :=
    (keepsRecords_wipeArrays _ _ s).trans ((keepsRecords_showStep _ k).mono fun _ => .inl)
  have port : ∀ fails, KeepsRecords SliceReg s (slicePort k fails s1) := fun fails =>
    wiped.trans (keepsRecords_slicePort k fails (wiped.st ▸ h))
  cases hl : b.late.getLsbD k with
  | true =>
    rw [if_pos rfl]
    have logged := (port false).trans (keepsRecords_logEvent evIncomplete (locUnit k 0) k _ (by decide))
    exact ⟨(((logged.toKeepsTest.trans (keepsTest_slicePasses k _)).other k).trans (keepsTest_fPostUs k 20000 _)).trans
      (keepsTest_fPost k 4 _), by simp [SliceNoted, hl, fld_fPost]⟩
  | false =>
    rw [if_neg (by decide)]
    have timed : KeepsTest (OtherSlice k) s s2 :=
      ((port _).toKeepsTest.other k).trans (keepsTest_fPostUs k (b.us.getD k 0).toNat _)
    cases hf : b.failed.getLsbD k with
    | true =>
      rw [if_pos rfl]
      obtain ⟨kept, result⟩ := bistFails_spec b k s2
      exact ⟨timed.trans kept, by simpa [SliceNoted, hl, hf] using result⟩
    | false =>
      rw [if_neg (by decide)]
      have counted : KeepsTest SliceReg s2 (if k = 3 then processSlice s2 else s2) := by
        split
        · exact .of_post (keepsPost_processSlice s2) (processSlice_hif s2)
        · exact .refl s2
      exact ⟨(timed.trans ((counted.trans (keepsTest_slicePasses k _)).other k)).trans (keepsTest_fPost k 1 _),
        by simp [SliceNoted, hl, hf, fld_fPost]⟩

/-- The slices that BIST runs, one after another, with the image gone. -/
theorem bistSlices_spec (b : BistIn) {s : State} (hd : ImageDropped s) (l : List Nat) (hl : ∀ k ∈ l, k < 32) :
    let t := l.foldl (fun x k => bistSlice b k x) s
    ImageDropped t ∧ t.hif.busy = s.hif.busy ∧ ∀ k ∈ l, SliceNoted b k t := by
  induction l using List.reverseRecOn with
  | nil => exact ⟨hd, rfl, fun k hk => absurd hk List.not_mem_nil⟩
  | append_singleton l k ih =>
    obtain ⟨dropped, busy, noted⟩ := ih fun j hj => hl j (List.mem_append_left _ hj)
    obtain ⟨kept, result⟩ := bistSlice_spec b k (by rw [dropped.2.1]; decide)
    rw [List.foldl_append]
    refine ⟨kept.dropped dropped, kept.busy.trans busy, fun j hj => ?_⟩
    by_cases e : j = k
    · exact e ▸ result
    · have hj : j ∈ l := by simpa [e] using hj
      have lt := hl j (List.mem_append_left _ hj)
      exact (noted j hj).of_fld (fld_of_reg (kept.regs _ ⟨by simp only [fPost]; omega, by simp only [fPost]; omega⟩))

end Sys2Proof.Machine
end

section
/-! PROOFS. MARCH, BIST, FUSE_REPAIR and SCRUB_FULL as commands of the mailbox (R191, R404, R525, R527, R528). -/

namespace Sys2Proof.Machine

/-! A long command of the mailbox (R305). -/

/-- A long command that MBX takes: its body runs on the state with the command begun. -/
theorem Answers.of_long {c : Instr} {cmd : Nat} {m : MbxArgs} {body : State → State} {s : State} {P : State → Prop}
    (hc : exec c s = .next (mbxWrite cmd true false m body s)) (free : mbxFree s = true)
    (hp : ∀ x, Mailed s x → x.hif.busy = true → P (body x)) : Answers c s P := by
  simp only [mbxFree, Bool.and_eq_true, Bool.not_eq_true', beq_iff_eq] at free
  obtain ⟨⟨ho, hb⟩, hu⟩ := free
  let written := setFlag ⟨0x10000, 31, 1⟩ m.irq (setFld ⟨0x10000, 8, 8⟩ m.seq.toNat
    (setFld ⟨0x10000, 0, 8⟩ cmd (writeArgs m (keeperUp s))))
  have words : Mailed (writeArgs m (keeperUp s)) written :=
    ((mailed_setFld _ _ (by decide) (by decide)).trans (mailed_setFld _ _ (by decide) (by decide))).trans
      (mailed_setFld _ _ (by decide) (by decide))
  have begun : mbxWrite cmd true false m body s = body (mbxBegin cmd true m.irq m.seq written) := by
    unfold mbxWrite
    rw [ho, hb, hu]
    rfl
  refine .of_next (hc.trans (congrArg _ begun)) (hp _ ?_ (congrArg Hif.busy (commit_hif ..)))
  exact (((mailed_keeperUp s).trans (mailed_writeArgs m _)).trans words).trans (mailed_mbxBegin _ _ _ _ _)

/-- A long command that has ended: its completion waits. -/
theorem mbxWaits_mbxDue {s : State} {r : MbxRes} {code : Nat} (hb : s.hif.busy = true) (hr : r.code.toNat = code) :
    MbxWaits (mbxDue r s) code := ⟨hb, congrArg some hr⟩

/-- A completion that waits is no part of what a test keeps. -/
theorem keepsTest_mbxDue {P : Nat → Prop} (r : MbxRes) (s : State) : KeepsTest P s (mbxDue r s) :=
  ⟨rfl, rfl, rfl, rfl, fun _ _ => rfl⟩

section
variable {s x : State} (h : Mailed s x)
include h

theorem Mailed.controllerBusy : controllerBusy x = controllerBusy s := by
  obtain ⟨-, cox, -⟩ := h.keeps
  rw [Machine.controllerBusy, Machine.controllerBusy, h.inCourse, cox]

theorem Mailed.marchPav (m : MbxArgs) : marchPav m x = marchPav m s := by
  funext p
  rw [Machine.marchPav, Machine.marchPav, h.enabled]

theorem Mailed.marched (m : MbxArgs) : marched m x = marched m s := by
  have bank : ∀ p b, bankState x p b = bankState s p b := fun p b => h.fld (by simp only [pavA]; omega)
  funext f
  rw [Machine.marched, Machine.marched, h.marchPav, bank]

theorem Mailed.railBad : railBad x = railBad s := by
  have rail : ∀ r, Machine.fld x ⟨0x30300 + 4 * r, 14, 2⟩ = Machine.fld s ⟨0x30300 + 4 * r, 14, 2⟩ := fun r =>
    h.fld (by simp only; omega)
  simp only [Machine.railBad, rail]

theorem Mailed.scb : x.scb = s.scb := by
  obtain ⟨⟨_, _, _, _, _, rfl⟩, -⟩ := h
  rfl

end

/-! MARCH (R191, R527). -/

/-- The end of a MARCH: new soft records, and the completion that waits. -/
theorem marchEnd_keeps {P : Nat → Prop} (r : MbxRes) (fs : List FaultRec) (wait : Bool) (s : State) :
    KeepsTest P s (mbxDue r (addSoft fs wait s)) ∧ SameDesign s (mbxDue r (addSoft fs wait s)) :=
  ⟨(keepsTest_addSoft s fs wait).trans (keepsTest_mbxDue r _), .refl s⟩

section
variable {m : MbxArgs} {faults : List FaultRec} {s : State}

/-- The completion of a MARCH counts the faults found, and what took each. -/
def marchResult (n : Nat) (c : Nat × Nat × Nat) : MbxRes :=
  { code := BitVec.ofNat 8 ccDone, r0 := BitVec.ofNat 32 n, r1 := BitVec.ofNat 32 c.1, r2 := BitVec.ofNat 32 c.2.1,
    r3 := BitVec.ofNat 32 c.2.2 }

/-- A preserving MARCH leaves its faults as soft records that wait. -/
theorem march_keeping (ha : marchArgsOk m = true) (hb : controllerBusy s = false) (hk : m.a0.getLsbD 4 = true) :
    ∃ c, march m faults s = mbxDue (marchResult (faults.filter (marched m s)).length c)
      (addSoft (faults.filter (marched m s)) true (marchShown m (faults.filter (marched m s)) s)) := by
  simp only [march, ha, hb, hk, Bool.not_true, Bool.false_eq_true, if_false, if_true]
  exact ⟨_, rfl⟩

/-- Any other MARCH drops the image, applies what waits, wipes the arrays that it tests, and repairs what it finds. -/
theorem march_dropping (ha : marchArgsOk m = true) (hb : controllerBusy s = false) (hk : m.a0.getLsbD 4 = false) :
    ∃ c, march m faults s = mbxDue (marchResult (faults.filter (marched m s)).length c)
      (addSoft (faults.filter (marched m s)) false (checkReplace (repairAll (faults.filter (marched m s))
        (marchShown m (faults.filter (marched m s))
          (repairWaiting (wipeArrays (m.a0.extractLsb' 8 3) (marchPav m s) (dropImage s))))).2)) := by
  simp only [march, ha, hb, hk, Bool.not_true, Bool.false_eq_true, if_false]
  exact ⟨_, rfl⟩

theorem march_answers (free : mbxFree s = true) (ha : marchArgsOk m = true) (hb : controllerBusy s = false) :
    Answers (.march m faults) s fun t =>
      MbxWaits t ccDone ∧ (t.hif.due.map (·.r0)) = some (BitVec.ofNat 32 (faults.filter (marched m s)).length) ∧
      (m.a0.getLsbD 4 = false → ImageDropped t ∧ (m.a0.getLsbD 10 = true → ∀ p k, p < 128 → k < 64 →
        marchPav m s p = true → bankState t p k = 2)) ∧
      (m.a0.getLsbD 4 = true → t.ldr.image = s.ldr.image ∧ SameDesign s t) := by
  refine .of_long rfl free fun x mailed busy => ?_
  rw [← mailed.controllerBusy] at hb
  rw [← mailed.marched m, ← mailed.marchPav m]
  generalize hfs : faults.filter (marched m x) = fs
  cases hk : m.a0.getLsbD 4 with
  | true =>
    obtain ⟨c, eq⟩ := march_keeping (faults := faults) ha hb hk
    rw [eq, hfs]
    obtain ⟨ends, design⟩ := marchEnd_keeps (P := TestedReg) (marchResult fs.length c) fs true (marchShown m fs x)
    have kept := (keepsRecords_marchShown x m fs).toKeepsTest.trans ends
    obtain ⟨-, -, -, -, ldr⟩ := mailed.keeps
    refine ⟨⟨kept.busy.trans busy, rfl⟩, rfl, nofun, fun _ => ⟨?_, ?_⟩⟩
    · exact kept.image.trans (by rw [ldr])
    · exact (mailed.design.trans (keepsDesign_marchShown x m fs).design).trans design
  | false =>
    obtain ⟨c, eq⟩ := march_dropping (faults := faults) ha hb hk
    rw [eq, hfs]
    obtain ⟨dropped, same⟩ := dropImage_drops x
    let wiped := wipeArrays (m.a0.extractLsb' 8 3) (marchPav m x) (dropImage x)
    have wipes := keepsRecords_wipeArrays (m.a0.extractLsb' 8 3) (marchPav m x) (dropImage x)
    obtain ⟨ends, -⟩ := marchEnd_keeps (P := TestedReg) (marchResult fs.length c) fs false
      (checkReplace (repairAll fs (marchShown m fs (repairWaiting wiped))).2)
    have tail := (((keepsRecords_repairWaiting wiped).trans (keepsRecords_marchShown _ m fs)).trans
      ((keepsRecords_repairAll _ fs).trans (keepsRecords_checkReplace _))).toKeepsTest.trans ends
    have still : wiped.hif.busy = true := wipes.busy.trans ((congrArg Prod.fst same).trans busy)
    refine ⟨⟨tail.busy.trans still, rfl⟩, rfl, fun _ => ⟨tail.dropped (wipes.dropped dropped), ?_⟩, nofun⟩
    intro h10 p k hp hk hi
    exact (tail.bankState p hk).trans (bankState_wipeArrays (by simpa using h10) hp hk hi _)

/-! BIST (R528). -/

theorem mem_ones {n : Nat} {v : BitVec n} {k : Nat} : k ∈ ones v ↔ k < n ∧ v.getLsbD k = true := by
  simp [ones]

theorem bist_answers (b : BistIn) (free : mbxFree s = true) (hb : controllerBusy s = false) :
    Answers (.bist m b) s fun t =>
      MbxWaits t ccDone ∧ (t.hif.due.map (·.r0)) = some (m.a0 &&& b.failed &&& ~~~b.late) ∧ ImageDropped t ∧
      ∀ k, k < 32 → m.a0.getLsbD k = true → SliceNoted b k t := by
  refine .of_long rfl free fun x mailed busy => ?_
  obtain ⟨dropped, same⟩ := dropImage_repaired x
  obtain ⟨gone, still, noted⟩ := bistSlices_spec b dropped (ones m.a0) fun k hk => (mem_ones.mp hk).1
  let run := (ones m.a0).foldl (fun x k => bistSlice b k x) (repairWaiting (dropImage x))
  have eq : bist m b x = mbxDue (mbxRes ccDone (m.a0 &&& b.failed &&& ~~~b.late).toNat) (checkReplace run) := by
    simp only [bist, mailed.controllerBusy, hb, Bool.false_eq_true, if_false]
    rfl
  have ends : KeepsTest TestedReg run (mbxDue (mbxRes ccDone (m.a0 &&& b.failed &&& ~~~b.late).toNat) (checkReplace run)) :=
    (keepsRecords_checkReplace run).toKeepsTest.trans (keepsTest_mbxDue _ _)
  have was : (repairWaiting (dropImage x)).hif.busy = true := (congrArg Prod.fst same).trans busy
  rw [eq]
  refine ⟨⟨ends.busy.trans (still.trans was), rfl⟩, ?_, ends.dropped gone, fun k hk hs => ?_⟩
  · exact congrArg some (BitVec.ofNat_toNat 32 _)
  · exact (noted k (mem_ones.mpr ⟨hk, hs⟩)).of_fld (fld_of_reg (ends.regs _ (.inl (by simp only [fPost]; omega))))

/-! FUSE_REPAIR (R525). -/

theorem fuseRepair_answers (free : mbxFree s = true) (ha : m.a0 &&& 0xFFFFFFFE = 0) (hm : s.cox.mode = .service)
    (hb : controllerBusy s = false) (hr : railBad s = false)
    (room : s.fuses.repairs.length + s.hlt.soft.length ≤ 2048) : Answers (.fuseRepair m) s fun t =>
      MbxWaits t ccDone ∧ ImageDropped t ∧ t.fuses.repairs = s.fuses.repairs ++ s.hlt.soft ∧ t.hlt.soft = [] := by
  refine .of_long rfl free fun x mailed busy => ?_
  obtain ⟨-, cox, -⟩ := mailed.keeps
  obtain ⟨-, -, hlt, fuses⟩ := mailed.units
  obtain ⟨dropped, same⟩ := dropImage_repaired x
  simp only [records, Prod.mk.injEq] at same
  obtain ⟨still, blown, soft⟩ := same
  rw [fuses] at blown
  rw [hlt] at soft
  have fits : ¬ 2048 < s.fuses.repairs.length + s.hlt.soft.length := by omega
  generalize hy : repairWaiting (dropImage x) = y at dropped still blown soft
  obtain ⟨r, f, eq, hf, hc⟩ : ∃ r f, fuseRepair m x = mbxDue r (logEvent evFuseRepaired locNone s.hlt.soft.length
      (secureStep 4 ccDone { y with fuses := f, hlt := { y.hlt with soft := [] } })) ∧
      f.repairs = s.fuses.repairs ++ s.hlt.soft ∧ r.code.toNat = ccDone := by
    simp only [fuseRepair, hy, ha, cox, hm, mailed.controllerBusy, hb, mailed.railBad, hr, blown, soft, fits,
      bne_self_eq_false, Bool.false_eq_true, if_false]
    exact ⟨_, _, rfl, rfl, rfl⟩
  have traced : ∀ z, KeepsRecords SliceReg z (logEvent evFuseRepaired locNone s.hlt.soft.length (secureStep 4 ccDone z)) :=
    fun z => KeepsRecords.trans (.of_logOnly (logOnly_commitSecure _ _ z) fun a _ => reg_commitSecure _ _ z a)
      (keepsRecords_logEvent _ _ _ _ (by decide))
  have kept := traced { y with fuses := f, hlt := { y.hlt with soft := [] } }
  rw [eq]
  exact ⟨mbxWaits_mbxDue (kept.busy.trans (still.trans busy)) hc, kept.dropped dropped,
    (congrArg Fuses.repairs kept.fuses).trans hf, kept.soft⟩

/-! While the controller runs (R525, R527, R528). -/

theorem refused_leaves {x : State} (mailed : Mailed s x) (busy : x.hif.busy = true) :
    MbxWaits (mbxRefuse ccBusyInUse 0 x) ccBusyInUse ∧ (mbxRefuse ccBusyInUse 0 x).ldr = s.ldr ∧
      (mbxRefuse ccBusyInUse 0 x).cox = s.cox ∧ SameDesign s (mbxRefuse ccBusyInUse 0 x) := by
  obtain ⟨-, cox, -, -, ldr⟩ := mailed.keeps
  exact ⟨mbxWaits_mbxDue busy rfl, ldr, cox, mailed.design⟩

theorem bist_refused (b : BistIn) (free : mbxFree s = true) (hb : controllerBusy s = true) :
    Answers (.bist m b) s fun t => MbxWaits t ccBusyInUse ∧ t.ldr = s.ldr ∧ t.cox = s.cox ∧ SameDesign s t := by
  refine .of_long rfl free fun x mailed busy => ?_
  have eq : bist m b x = mbxRefuse ccBusyInUse 0 x := if_pos (mailed.controllerBusy.trans hb)
  rw [eq]
  exact refused_leaves mailed busy

theorem march_refused (ha : marchArgsOk m = true) (free : mbxFree s = true) (hb : controllerBusy s = true) :
    Answers (.march m faults) s fun t => MbxWaits t ccBusyInUse ∧ t.ldr = s.ldr ∧ t.cox = s.cox ∧ SameDesign s t := by
  refine .of_long rfl free fun x mailed busy => ?_
  have eq : march m faults x = mbxRefuse ccBusyInUse 0 x := by
    rw [march, ha, mailed.controllerBusy, hb]
    rfl
  rw [eq]
  exact refused_leaves mailed busy

/-! SCRUB_FULL (R404). -/

theorem fullTo_spec (f : FullScrub) (n : Nat) (s : State) : (fullTo f n s).hif = s.hif ∧
    (fullTo f n s).scb = { s.scb with full := some { f with step := n, pos := 0 } } ∧ SameDesign s (fullTo f n s) := by
  obtain ⟨_, _, _, e⟩ := showStep_only { s with scb := { s.scb with full := some { f with step := n, pos := 0 } } } n
  rw [fullTo, e]
  exact ⟨rfl, rfl, .refl s⟩

theorem scrubFull_answers (free : mbxFree s = true) (ha : fullArgsOk m = true) : Answers (.scrubFull m) s fun t =>
    t.hif.busy = true ∧
    t.scb.full = some { step := 1, pos := 0, fixed := 0, care := 0, dc := 0,
                        rec_ := m.a0.getLsbD 0 && s.scb.st == .needHost, memory := m.a0.getLsbD 1 } ∧
    t.scb.st = (if m.a0.getLsbD 0 && s.scb.st == .needHost then .read else s.scb.st) ∧ SameDesign s t := by
  refine .of_long rfl free fun x mailed busy => ?_
  let feeds := m.a0.getLsbD 0 && x.scb.st == .needHost
  let fed : State := if feeds then { x with scb := { x.scb with st := .read } } else x
  have eq : scrubFull m x = fullTo { step := 1, pos := 0, fixed := 0, care := 0, dc := 0, rec_ := feeds,
                                     memory := m.a0.getLsbD 1 } 1 fed := by
    rw [scrubFull, ha]
    rfl
  have fed_spec : fed.hif = x.hif ∧ fed.scb.st = (if feeds then .read else x.scb.st) ∧ SameDesign x fed := by
    unfold fed
    split <;> exact ⟨rfl, rfl, .refl x⟩
  obtain ⟨hif, st, design⟩ := fed_spec
  obtain ⟨hif', scb, design'⟩ := fullTo_spec { step := 1, pos := 0, fixed := 0, care := 0, dc := 0, rec_ := feeds,
                                               memory := m.a0.getLsbD 1 } 1 fed
  rw [eq, hif', hif, scb, ← mailed.scb]
  exact ⟨busy, rfl, st, (mailed.design.trans design).trans design'⟩

end

/-- Settles O35: each command by its lemma, and the two that a running controller refuses. -/
theorem testAndRepairCommands : Obligations.TestAndRepairCommands := by
  unfold Obligations.TestAndRepairCommands
  intro s m free
  refine ⟨fun _ => march_answers free, fun b hb => bist_answers b free hb, fuseRepair_answers free, fun b hb x hx => ?_,
    scrubFull_answers free⟩
  rcases List.mem_pair.mp hx with rfl | rfl
  · exact bist_refused b free hb
  · exact march_refused (by simp [marchArgsOk, bits]) free hb

end Sys2Proof.Machine
end
